-- ==== Sys2Proof/Word.lean ====
section
/-! DEFINITION. The word types of the Gnouc (R5): a byte is 8 bits, a word 32 and a doubleword 64.
Register values, flags and addresses while they are computed are words; keys of memory, of the register file and of
the units' tables are plain numbers. -/
namespace Sys2Proof

/-- A byte (R5). -/
abbrev Byte := BitVec 8

/-- A word (R5): the width of every MMIO register (R10). -/
abbrev W32 := BitVec 32

/-- A doubleword (R5): the width of every core register and system register (R22, R65). -/
abbrev W64 := BitVec 64

end Sys2Proof
end

