-- ==== Sys2Proof/Syntax.lean ====
section
/-! DEFINITION. The commands of the block, whole: one constructor per row of spec/opcode_table.json, with its
operands. The core instructions follow R84-R86, the other rows the requirement each names. -/
namespace Sys2Proof

/-- A register field of an instruction (R84): g0-g31 or f0-f31 as the instruction defines. -/
abbrev RegNo := BitVec 5

/-- Who reads or writes an MMIO register (R19): a logical core, the JTAG debug access port, PF0 of the host endpoint,
or the boot ROM sequencer applying the image (R38, R533). -/
inductive Requester where
  | core (n : Nat) | dap | pf0 | bootRom
deriving DecidableEq, Repr

/-- The access tag of R37: world (true = sealed), partition, class (R38) and source. -/
structure AccessTag where
  world : Bool
  pid : Nat
  cls : Nat
  src : Nat
deriving DecidableEq, Repr

/-- Data sizes of R86. -/
inductive MemSize where
  | b | h | w | d | bs | hs | ws | fw | fd
deriving DecidableEq, Repr

/-- Integer widths of CRC32C, LDRES and STCND. -/
inductive Width where
  | b | h | w | d
deriving DecidableEq, Repr

/-- Binary32 or binary64. -/
inductive Fmt where
  | s | d
deriving DecidableEq, Repr

/-- Lane widths of packed operations (R70). -/
inductive Lane where
  | b | h | w
deriving DecidableEq, Repr

/-- What an error-correcting code finds on a read (R47): nothing, a corrected error or an uncorrectable one; injected:
the error comes from an injector (R541, R543) with this index. -/
inductive Ecc where
  | ok | corrected | uncorrectable | injCorrected (i : Nat) | injUncorrectable (i : Nat)
deriving DecidableEq, Repr

/-- A Fatal error that a unit's own check finds, beside those that come of another command: a mismatch of the duplicate logic of the CSS (R291) or of the
interrupt distributor (R432), or a parity error of a dual-clock queue (R512, R526). -/
inductive FatalFind where
  | cssLogic | intdLogic | queueParity
deriving DecidableEq, Repr

/-- What the endpoint finds on a transfer (R418): nothing, a link error that a replay recovers, or a buffer error, corrected or not. -/
inductive EpCheck where
  | ok | replayed | corrected | bad
deriving DecidableEq, Repr

/-- What the check code of a unit's own array finds at a read, for arrays that no injector reaches (R542). -/
inductive ArrayCheck where
  | ok | corrected | bad
deriving DecidableEq, Repr

/-- The items that the AON domain retains under its own check code (R526 UNIT 0x05). -/
inductive AonItem where
  | snapshot | repairs | traindata
deriving DecidableEq, Repr

/-- The answer of a target outside the device to a write. -/
inductive Resp where
  | ok | error | timeout
deriving DecidableEq, Repr

/-- The answer of a target outside the device to a read. -/
inductive LoadResp where
  | data (v : Nat) | error | timeout | poisoned
deriving DecidableEq, Repr

/-- An error response to a retired store (R151): whether it was a Device store, its addresses and the level that
issued it. -/
structure StoreError where
  device : Bool
  va : W64
  pa : Nat
  lvl : Nat
deriving DecidableEq, Repr

/-- A cache array that is scrubbed or loses a way: the L2 of a cluster, or a slice of the Cellar (R212). -/
inductive ArrayAt where
  | l2 (cluster : Nat) | cellar (slice : Nat)
deriving DecidableEq, Repr

/-- What is scrubbed of an array (R227, R228): its data, its tags, or, of an L2, the shadow tags and, of the Cellar, the directory. -/
inductive ArrayPart where
  | data | tags | copyTags
deriving DecidableEq, Repr

/-- A level line (R421): that of a shared source, or a GPIO ball whose pad may route it to one (R559). -/
inductive LineIn where
  | shared (n : Nat) | gpio (i : Nat)
deriving DecidableEq, Repr

/-- What the Pacer measured of a rail group over an epoch (R493): power in mW, peak current in 100 mA, busy share in %. -/
structure GroupMeas where
  pwr : Nat
  ipeak : Nat
  busy : Nat
deriving DecidableEq, Repr

/-- A flit of the Relay links (R364-R366): VL, TYPE, DST, SRC, TAG, INFO and the 64 payload bytes. -/
structure Flit where
  vl : Nat
  ty : Nat
  dst : Nat
  src : Nat
  tag : Nat
  info : Nat
  payload : List Byte
deriving DecidableEq, Repr

/-- What a PARAM frame carries (R363): is the sender strapped manager, its INDEX, port and INCARN, and the SEQ it expects. -/
structure ParamMsg where
  manager : Bool
  index : Nat
  port : Nat
  incarn : Nat
  expect : Nat
deriving DecidableEq, Repr

/-- A frame that an adapter receives: a CAN frame as the words of its image header (R320) and its data, or an Ethernet frame
from DA through its payload, tag included (R322). -/
inductive RxFrame where
  | can (w0 w1 af : Nat) (data : List Byte) | eth (bytes : List Byte)
deriving DecidableEq, Repr

/-- Where an engine step or a direct-only job step runs for: the head operation of a subchannel, or a job channel (R337). -/
inductive StepOf where
  | sub (sc : Nat) | job (ch : Nat)
deriving DecidableEq, Repr

/-- What an engine's own checks find during a step (R354): nothing; a corrected buffer error; a failure that the second run repairs; two failures. ecc:
the buffers' code rather than the duplicate logic. -/
inductive EngCheck where
  | ok | corrected | again (ecc : Bool) | twice (ecc : Bool)
deriving DecidableEq, Repr

/-- A completion from the host (R409): data, an error status, a malformed completion, or data with the EP bit. -/
inductive HostCpl where
  | data (bs : List Byte) | error | malformed | poisoned
deriving DecidableEq, Repr

/-- What an adapter finds (R52, R335): a buffer error, a mismatch of duplicate logic, loss of the link or a protocol error, each of which fences
its path; or a buffer error that its code corrected, which fences nothing. -/
inductive PathFault where
  | buffer | logic | link | protocol | corrected
deriving DecidableEq, Repr

/-- A boot set as the ROM reads it from a source (R459, R462): its manifest and its blocks in block-list order. none: the source
answers with an error, or the transfer times out. -/
structure BootSet where
  manifest : Option (List Byte)
  blocks : List (Option (List Byte))
deriving DecidableEq, Repr

/-- A slot of an xSPI device (R457): the bytes of its state area, and its set. -/
structure BootSlot where
  area : List Byte
  set : BootSet
deriving DecidableEq, Repr

/-- An xSPI boot device (R455, R456): does it answer the discovery read; the two locator copies; the two slots that the
locator gives. -/
structure XspiDev where
  answers : Bool
  loc0 : List Byte
  loc1 : List Byte
  slot0 : BootSlot
  slot1 : BootSlot
deriving DecidableEq, Repr

/-- What a full boot finds outside the ROM: the straps (R2, R454), the xSPI devices, the set that the Relay stream holds
(R455), and whether MODE 0 and MODE 1 training succeed (R533). -/
structure BootEnv where
  manager : Bool
  seq : BitVec 3
  x0 : XspiDev
  x1 : XspiDev
  relay : BootSet
  mode0 : Bool
  mode1 : Bool
deriving DecidableEq, Repr

/-- A recovery-download frame on UART0 with its IDX, payload and CRC (R473), or a mailbox message with its buffer, length and
block index (R475). -/
inductive BootMsg where
  | uart (idx : BitVec 16) (payload : List Byte) (crc : W32) | mailbox (buf : BitVec 8) (len blk : W32)
deriving DecidableEq, Repr


/-- The commands of the Gnouc: one constructor per row of the table of operations and events. A core instruction
names its logical core c; a register access names its requester r; an event carries what its environment decides. -/
inductive Instr where
  /-- REGISTER_WRITE (R12): An aligned 32-bit write to a register field that has no row of its own updates the field according to its access code.
  hw: the hardware update of the command before falls into the same cycle (R16). -/
  | registerWrite (r : Requester) (addr : Nat) (v : W32) (hw : Bool)
  /-- REGISTER_SIZE_ERROR (R10): A register access of the wrong size or alignment changes no register, completes with an error response and writes a bank 0 record with UNIT 0x01. -/
  | registerSizeError (r : Requester) (addr : Nat) (write : Bool) (size : Nat)
  /-- UNMAPPED_ACCESS (R28): An access to an unmapped address reaches no block, completes with an error response and writes a decode record in bank 0. -/
  | unmappedAccess (t : AccessTag) (addr : Nat) (write : Bool)
  /-- NAME_LO_READ (R19): A read of NAME_LO returns the low word and latches the high word of the same sample for the requester. -/
  | nameLoRead (r : Requester) (addr : Nat)
  /-- NAME_HI_READ (R19): A read of NAME_HI returns the requester's latched high word, or the live high word when no NAME_LO has been read. -/
  | nameHiRead (r : Requester) (addr : Nat)
  /-- NAME_LO_WRITE (R21): A write to NAME_LO of a writable pair is held in the requester's holding register and changes nothing else. -/
  | nameLoWrite (r : Requester) (addr : Nat) (v : W32)
  /-- NAME_HI_WRITE (R21): A write to NAME_HI commits the held low word and the high word as one 64-bit update. -/
  | nameHiWrite (r : Requester) (addr : Nat) (v : W32)
  /-- RECORD_SLOT_FREE (R62): A write of 1 to REC_STATUS.VALID frees the record slot and updates VALID_CNT and SUMMARY. -/
  | recordSlotFree (r : Requester) (bank slot : Nat)
  /-- BANK_CTL_WRITE (R564): A write of BANK_CTL sets the threshold and resets the bank's Corrected count to 0. -/
  | bankCtlWrite (r : Requester) (bank : Nat) (v : W32)
  /-- PARTITION_FENCE (R54): The hypervisor sets a partition's bit in ERRREC.PFENCE, and the partition submits nothing, its accesses are refused and its operations end. -/
  | partitionFence (r : Requester) (pid : Nat)
  /-- PARTITION_FENCE_RELEASE (R52): The hypervisor clears the partition's PFENCE bit, releasing the partition fence. -/
  | partitionFenceRelease (r : Requester) (pid : Nat)
  /-- FATAL_SEQUENCE (R58): A Fatal error drives ERROUT_N low, stops CSS dispatch and puts every adapter in its safe output state. -/
  | fatalSequence (found : Option FatalFind)
  /-- FATAL_HOLD_EXPIRY (R58): FATALCTL.HOLD ms after ERROUT_N the Gnouc performs a WARM reset unless HALT is 1. -/
  | fatalHoldExpiry
  /-- ADD (R94): rd := rs1 + rs2 modulo 2^64. -/
  | add (c : Nat) (rd rs1 rs2 : RegNo)
  /-- SUB (R94): rd := rs1 - rs2 modulo 2^64. -/
  | sub (c : Nat) (rd rs1 rs2 : RegNo)
  /-- AND (R94): Bitwise AND of rs1 and rs2 into rd. -/
  | and (c : Nat) (rd rs1 rs2 : RegNo)
  /-- OR (R94): Bitwise OR of rs1 and rs2 into rd. -/
  | or (c : Nat) (rd rs1 rs2 : RegNo)
  /-- XOR (R94): Bitwise XOR of rs1 and rs2 into rd. -/
  | xor (c : Nat) (rd rs1 rs2 : RegNo)
  /-- ANDN (R94): rd := rs1 AND NOT rs2. -/
  | andn (c : Nat) (rd rs1 rs2 : RegNo)
  /-- ORN (R94): rd := rs1 OR NOT rs2. -/
  | orn (c : Nat) (rd rs1 rs2 : RegNo)
  /-- XNOR (R94): rd := NOT (rs1 XOR rs2). -/
  | xnor (c : Nat) (rd rs1 rs2 : RegNo)
  /-- SLT (R94): rd := 1 when rs1 is signed-less than rs2, else 0. -/
  | slt (c : Nat) (rd rs1 rs2 : RegNo)
  /-- SLTU (R94): rd := 1 when rs1 is unsigned-less than rs2, else 0. -/
  | sltu (c : Nat) (rd rs1 rs2 : RegNo)
  /-- MIN (R94): Signed minimum of rs1 and rs2. -/
  | min (c : Nat) (rd rs1 rs2 : RegNo)
  /-- MAX (R94): Signed maximum of rs1 and rs2. -/
  | max (c : Nat) (rd rs1 rs2 : RegNo)
  /-- MINU (R94): Unsigned minimum of rs1 and rs2. -/
  | minu (c : Nat) (rd rs1 rs2 : RegNo)
  /-- MAXU (R94): Unsigned maximum of rs1 and rs2. -/
  | maxu (c : Nat) (rd rs1 rs2 : RegNo)
  /-- ADDW (R94): rd := sext32(rs1 + rs2). -/
  | addw (c : Nat) (rd rs1 rs2 : RegNo)
  /-- SUBW (R94): rd := sext32(rs1 - rs2). -/
  | subw (c : Nat) (rd rs1 rs2 : RegNo)
  /-- SLL (R94): Shift rs1 left by rs2[5:0]. -/
  | sll (c : Nat) (rd rs1 rs2 : RegNo)
  /-- SRL (R94): Logical right shift of rs1 by rs2[5:0]. -/
  | srl (c : Nat) (rd rs1 rs2 : RegNo)
  /-- SRA (R94): Arithmetic right shift of rs1 by rs2[5:0]. -/
  | sra (c : Nat) (rd rs1 rs2 : RegNo)
  /-- ROR (R94): Rotate rs1 right by rs2[5:0]. -/
  | ror (c : Nat) (rd rs1 rs2 : RegNo)
  /-- SLLW (R94): 32-bit left shift of rs1 by rs2[4:0], sign-extended. -/
  | sllw (c : Nat) (rd rs1 rs2 : RegNo)
  /-- SRLW (R94): 32-bit logical right shift, sign-extended. -/
  | srlw (c : Nat) (rd rs1 rs2 : RegNo)
  /-- SRAW (R94): 32-bit arithmetic right shift, sign-extended. -/
  | sraw (c : Nat) (rd rs1 rs2 : RegNo)
  /-- MUL (R94): Low 64 bits of rs1 × rs2. -/
  | mul (c : Nat) (rd rs1 rs2 : RegNo)
  /-- MULH (R94): High 64 bits of signed rs1 × signed rs2. -/
  | mulh (c : Nat) (rd rs1 rs2 : RegNo)
  /-- MULHU (R94): High 64 bits of unsigned rs1 × unsigned rs2. -/
  | mulhu (c : Nat) (rd rs1 rs2 : RegNo)
  /-- MULHSU (R94): High 64 bits of signed rs1 × unsigned rs2. -/
  | mulhsu (c : Nat) (rd rs1 rs2 : RegNo)
  /-- MULW (R94): rd := sext32(rs1 × rs2). -/
  | mulw (c : Nat) (rd rs1 rs2 : RegNo)
  /-- DIV (R94): 64-bit signed quotient rounded toward zero; division by zero gives all ones. -/
  | div (c : Nat) (rd rs1 rs2 : RegNo)
  /-- DIVU (R94): 64-bit unsigned quotient. -/
  | divu (c : Nat) (rd rs1 rs2 : RegNo)
  /-- REM (R94): 64-bit signed remainder; division by zero gives the dividend. -/
  | rem (c : Nat) (rd rs1 rs2 : RegNo)
  /-- REMU (R94): 64-bit unsigned remainder. -/
  | remu (c : Nat) (rd rs1 rs2 : RegNo)
  /-- DIVW (R94): 32-bit signed quotient, sign-extended. -/
  | divw (c : Nat) (rd rs1 rs2 : RegNo)
  /-- DIVUW (R94): 32-bit unsigned quotient, sign-extended. -/
  | divuw (c : Nat) (rd rs1 rs2 : RegNo)
  /-- REMW (R94): 32-bit signed remainder, sign-extended. -/
  | remw (c : Nat) (rd rs1 rs2 : RegNo)
  /-- REMUW (R94): 32-bit unsigned remainder, sign-extended. -/
  | remuw (c : Nat) (rd rs1 rs2 : RegNo)
  /-- CLZ (R94): Count leading zeros of rs1. -/
  | clz (c : Nat) (rd rs1 : RegNo)
  /-- CTZ (R94): Count trailing zeros of rs1. -/
  | ctz (c : Nat) (rd rs1 : RegNo)
  /-- POPC (R94): Count ones of rs1. -/
  | popc (c : Nat) (rd rs1 : RegNo)
  /-- REV8 (R94): Reverse the byte order of rs1. -/
  | rev8 (c : Nat) (rd rs1 : RegNo)
  /-- BREV (R94): Reverse the bit order of rs1. -/
  | brev (c : Nat) (rd rs1 : RegNo)
  /-- SEXTB (R94): Sign-extend rs1[7:0]. -/
  | sextb (c : Nat) (rd rs1 : RegNo)
  /-- SEXTH (R94): Sign-extend rs1[15:0]. -/
  | sexth (c : Nat) (rd rs1 : RegNo)
  /-- SEXTW (R94): Sign-extend rs1[31:0]. -/
  | sextw (c : Nat) (rd rs1 : RegNo)
  /-- ZEXTW (R94): Zero-extend rs1[31:0]. -/
  | zextw (c : Nat) (rd rs1 : RegNo)
  /-- PICKZ (R96): rd := rs1 when rs2 = 0, otherwise rd is kept. -/
  | pickz (c : Nat) (rd rs1 rs2 : RegNo)
  /-- PICKNZ (R96): rd := rs1 when rs2 != 0, otherwise rd is kept. -/
  | picknz (c : Nat) (rd rs1 rs2 : RegNo)
  /-- CRC32C (R95): Folds 1, 2, 4 or 8 bytes of rs2 into the CRC-32C value rs1[31:0]. -/
  | crc32c (c : Nat) (wd : Width) (rd rs1 rs2 : RegNo)
  /-- ADDI (R94): rd := rs1 + sext(imm12). -/
  | addi (c : Nat) (rd rs1 : RegNo) (imm : BitVec 12)
  /-- ADDWI (R94): rd := sext32(rs1 + sext(imm12)). -/
  | addwi (c : Nat) (rd rs1 : RegNo) (imm : BitVec 12)
  /-- ANDI (R94): Bitwise AND with sext(imm12). -/
  | andi (c : Nat) (rd rs1 : RegNo) (imm : BitVec 12)
  /-- ORI (R94): Bitwise OR with sext(imm12). -/
  | ori (c : Nat) (rd rs1 : RegNo) (imm : BitVec 12)
  /-- XORI (R94): Bitwise XOR with sext(imm12). -/
  | xori (c : Nat) (rd rs1 : RegNo) (imm : BitVec 12)
  /-- SLTI (R94): Signed compare of rs1 with sext(imm12). -/
  | slti (c : Nat) (rd rs1 : RegNo) (imm : BitVec 12)
  /-- SLTUI (R94): Unsigned compare of rs1 with sext(imm12). -/
  | sltui (c : Nat) (rd rs1 : RegNo) (imm : BitVec 12)
  /-- SLLI (R94): Shift rs1 left by imm12[5:0]. -/
  | slli (c : Nat) (rd rs1 : RegNo) (sh : BitVec 6)
  /-- SRLI (R94): Logical right shift by imm12[5:0]. -/
  | srli (c : Nat) (rd rs1 : RegNo) (sh : BitVec 6)
  /-- SRAI (R94): Arithmetic right shift by imm12[5:0]. -/
  | srai (c : Nat) (rd rs1 : RegNo) (sh : BitVec 6)
  /-- RORI (R94): Rotate right by imm12[5:0]. -/
  | rori (c : Nat) (rd rs1 : RegNo) (sh : BitVec 6)
  /-- SLLWI (R94): 32-bit left shift by imm12[4:0]. -/
  | sllwi (c : Nat) (rd rs1 : RegNo) (sh : BitVec 5)
  /-- SRLWI (R94): 32-bit logical right shift by imm12[4:0]. -/
  | srlwi (c : Nat) (rd rs1 : RegNo) (sh : BitVec 5)
  /-- SRAWI (R94): 32-bit arithmetic right shift by imm12[4:0]. -/
  | srawi (c : Nat) (rd rs1 : RegNo) (sh : BitVec 5)
  /-- EXTU (R96): rd := zero-extended bit field of rs1 at pos and len. -/
  | extu (c : Nat) (rd rs1 : RegNo) (pos lenM1 : BitVec 6)
  /-- EXTS (R96): rd := sign-extended bit field of rs1 at pos and len. -/
  | exts (c : Nat) (rd rs1 : RegNo) (pos lenM1 : BitVec 6)
  /-- INS (R96): Inserts rs1[len-1:0] into rd at pos, keeping other bits. -/
  | ins (c : Nat) (rd rs1 : RegNo) (pos lenM1 : BitVec 6)
  /-- MULI (R94): rd := low 64 bits of rs1 × sext(imm12). -/
  | muli (c : Nat) (rd rs1 : RegNo) (imm : BitVec 12)
  /-- LUI (R94): rd := sext(imm21 << 12). -/
  | lui (c : Nat) (rd : RegNo) (imm : BitVec 21)
  /-- AUIPC (R94): rd := PC + sext(imm21 << 12). -/
  | auipc (c : Nat) (rd : RegNo) (imm : BitVec 21)
  /-- ADR (R94): rd := PC + sext(imm21 << 2). -/
  | adr (c : Nat) (rd : RegNo) (imm : BitVec 21)
  /-- LUHI (R94): rd[63:43] := imm21, other bits kept. -/
  | luhi (c : Nat) (rd : RegNo) (imm : BitVec 21)
  /-- LD (R86): Load from base + imm12 into rt. -/
  | ld (c : Nat) (sz : MemSize) (rt rb : RegNo) (imm : BitVec 12)
  /-- ST (R86): Store rt to base + imm12. -/
  | st (c : Nat) (sz : MemSize) (rt rb : RegNo) (imm : BitVec 12)
  /-- LDX (R86): Load from base + index << scale. -/
  | ldx (c : Nat) (sz : MemSize) (rt rb ri : RegNo) (scale : BitVec 2)
  /-- STX (R86): Store to base + index << scale. -/
  | stx (c : Nat) (sz : MemSize) (rt rb ri : RegNo) (scale : BitVec 2)
  /-- LDI (R87): Post-increment load; the base is updated when no synchronous exception occurs. -/
  | ldi (c : Nat) (sz : MemSize) (rt rb : RegNo) (imm : BitVec 12)
  /-- STI (R87): Post-increment store. -/
  | sti (c : Nat) (sz : MemSize) (rt rb : RegNo) (imm : BitVec 12)
  /-- LDD (R87): Pre-decrement load. -/
  | ldd (c : Nat) (sz : MemSize) (rt rb : RegNo) (imm : BitVec 12)
  /-- STD (R87): Pre-decrement store. -/
  | std (c : Nat) (sz : MemSize) (rt rb : RegNo) (imm : BitVec 12)
  /-- L1D_FILL (R217): A line requested by an L1D miss arrives in four beats and releases the waiting load.
  va: an address of the line, at the level of the core (R138); victim: the line that makes way; own: an early ownership request of a store-buffer entry
  (R182); ecc: what the fill buffer's check finds; mem, parity: what the controller's read meets (R241). -/
  | l1dFill (c : Nat) (va : W64) (victim : Option Nat) (own : Bool) (ecc mem : Ecc) (parity : Nat)
  /-- STORE_BUFFER_DRAIN (R182): The oldest store-buffer entry is written to L1D or issued to the fabric in program order. -/
  | storeBufferDrain (c : Nat) (ecc : Ecc) (resp : Resp)
  /-- DEVICE_LOAD_RESPONSE (R165): The response to a Device load arrives, writing rd or raising an asynchronous 0x0B or 0x0E report. -/
  | deviceLoadResponse (c : Nat) (resp : LoadResp)
  /-- ASYNC_BUS_ERROR (R151): An error response to a retired store arrives and is reported at a later boundary as 0x0C or as 0x0B with ASYNC.
  arriving: the store that failed; none: the core is at a boundary. -/
  | asyncBusError (c : Nat) (arriving : Option StoreError)
  /-- LATE_WRITEBACK (R119): A late-writeback unit finishes, checks its residue and writes its result and FCSR flags. -/
  | lateWriteback (c : Nat) (residueOk : Bool)
  /-- LDRES (R104): Loads from a Normal-cached address and sets the reservation on its 128-byte granule. -/
  | ldres (c : Nat) (wd : Width) (rd rs1 : RegNo)
  /-- STCND (R104): Stores only when the reservation is valid for the granule, writes 0 or 1 to rd and clears the reservation. -/
  | stcnd (c : Nat) (wd : Width) (rd rs1 rs2 : RegNo)
  /-- BLKMOV (R106): Copies rs2 bytes from rs1 to rd in chunks, resumable at chunk boundaries.
  chunks: how many chunks at most are done now (R107). -/
  | blkmov (c : Nat) (rd rs1 rs2 : RegNo) (chunks : Nat)
  /-- BLKSET (R106): Fills rs2 bytes at rd with rs1[7:0] in chunks.
  chunks: how many chunks at most are done now (R107). -/
  | blkset (c : Nat) (rd rs1 rs2 : RegNo) (chunks : Nat)
  /-- FADD (R97): Floating-point add rounded per FCSR.RM. -/
  | fadd (c : Nat) (fmt : Fmt) (rd rs1 rs2 : RegNo)
  /-- FSUB (R97): Floating-point subtract. -/
  | fsub (c : Nat) (fmt : Fmt) (rd rs1 rs2 : RegNo)
  /-- FMUL (R97): Floating-point multiply. -/
  | fmul (c : Nat) (fmt : Fmt) (rd rs1 rs2 : RegNo)
  /-- FDIV (R97): Floating-point divide. -/
  | fdiv (c : Nat) (fmt : Fmt) (rd rs1 rs2 : RegNo)
  /-- FSQRT (R97): Floating-point square root. -/
  | fsqrt (c : Nat) (fmt : Fmt) (rd rs1 : RegNo)
  /-- FMIN (R97): IEEE minimumNumber. -/
  | fmin (c : Nat) (fmt : Fmt) (rd rs1 rs2 : RegNo)
  /-- FMAX (R97): IEEE maximumNumber. -/
  | fmax (c : Nat) (fmt : Fmt) (rd rs1 rs2 : RegNo)
  /-- FMAC (R97): fd := fd + fs1 × fs2 with one rounding. -/
  | fmac (c : Nat) (fmt : Fmt) (rd rs1 rs2 : RegNo)
  /-- FMSC (R97): fd := fd - fs1 × fs2 with one rounding. -/
  | fmsc (c : Nat) (fmt : Fmt) (rd rs1 rs2 : RegNo)
  /-- FABS (R97): Clears the sign bit without flags. -/
  | fabs (c : Nat) (fmt : Fmt) (rd rs1 : RegNo)
  /-- FNEG (R97): Inverts the sign bit without flags. -/
  | fneg (c : Nat) (fmt : Fmt) (rd rs1 : RegNo)
  /-- FCVT_S_D (R97): Converts binary64 to binary32, rounded. -/
  | fcvtSD (c : Nat) (rd rs1 : RegNo)
  /-- FCVT_D_S (R97): Converts binary32 to binary64 exactly. -/
  | fcvtDS (c : Nat) (rd rs1 : RegNo)
  /-- FCVT_TO_INTEGER (R97): FCVT.L and FCVT.LU convert an f value to a signed or unsigned integer in a g register. -/
  | fcvtToInteger (c : Nat) (uns : Bool) (fmt : Fmt) (rd fs1 : RegNo)
  /-- FCVT_FROM_INTEGER (R97): FCVT.S.L, .D.L, .S.LU, .D.LU convert a g integer to floating point. -/
  | fcvtFromInteger (c : Nat) (uns : Bool) (fmt : Fmt) (fd rs1 : RegNo)
  /-- FEQ (R97): rd := 1 when fs1 equals fs2. -/
  | feq (c : Nat) (fmt : Fmt) (rd rs1 rs2 : RegNo)
  /-- FLT (R97): rd := 1 when fs1 is less than fs2. -/
  | flt (c : Nat) (fmt : Fmt) (rd rs1 rs2 : RegNo)
  /-- FLE (R97): rd := 1 when fs1 is less than or equal to fs2. -/
  | fle (c : Nat) (fmt : Fmt) (rd rs1 rs2 : RegNo)
  /-- FCLASS (R98): Writes the class code, sign and integral bit of the operand into rd. -/
  | fclass (c : Nat) (fmt : Fmt) (rd rs1 : RegNo)
  /-- FMV_G_F (R97): Copies 64 bits from an f register to a g register. -/
  | fmvGF (c : Nat) (rd rs1 : RegNo)
  /-- FMV_F_G (R97): Copies 64 bits from a g register to an f register. -/
  | fmvFG (c : Nat) (rd rs1 : RegNo)
  /-- PADD (R70): Wrapping lane-wise add. -/
  | padd (c : Nat) (lane : Lane) (rd rs1 rs2 : RegNo)
  /-- PSUB (R70): Wrapping lane-wise subtract. -/
  | psub (c : Nat) (lane : Lane) (rd rs1 rs2 : RegNo)
  /-- PADDS (R99): Signed saturating lane-wise add. -/
  | padds (c : Nat) (lane : Lane) (rd rs1 rs2 : RegNo)
  /-- PADDUS (R99): Unsigned saturating lane-wise add. -/
  | paddus (c : Nat) (lane : Lane) (rd rs1 rs2 : RegNo)
  /-- PSUBS (R99): Signed saturating lane-wise subtract. -/
  | psubs (c : Nat) (lane : Lane) (rd rs1 rs2 : RegNo)
  /-- PSUBUS (R99): Unsigned saturating lane-wise subtract. -/
  | psubus (c : Nat) (lane : Lane) (rd rs1 rs2 : RegNo)
  /-- PMUL (R70): Low 16 bits of each 16 × 16 product. -/
  | pmul (c : Nat) (rd rs1 rs2 : RegNo)
  /-- PMULHS (R70): Signed high 16 bits of each 16 × 16 product. -/
  | pmulhs (c : Nat) (rd rs1 rs2 : RegNo)
  /-- PMIN (R70): Signed halfword lane minimum. -/
  | pmin (c : Nat) (rd rs1 rs2 : RegNo)
  /-- PMAX (R70): Signed halfword lane maximum. -/
  | pmax (c : Nat) (rd rs1 rs2 : RegNo)
  /-- PMINU (R70): Unsigned byte lane minimum. -/
  | pminu (c : Nat) (rd rs1 rs2 : RegNo)
  /-- PMAXU (R70): Unsigned byte lane maximum. -/
  | pmaxu (c : Nat) (rd rs1 rs2 : RegNo)
  /-- PCMPEQ (R70): Lane := all ones when lanes are equal. -/
  | pcmpeq (c : Nat) (lane : Lane) (rd rs1 rs2 : RegNo)
  /-- PCMPGT (R70): Lane := all ones when signed greater. -/
  | pcmpgt (c : Nat) (rd rs1 rs2 : RegNo)
  /-- PAND (R70): 64-bit bitwise AND of f registers. -/
  | pand (c : Nat) (rd rs1 rs2 : RegNo)
  /-- POR (R70): 64-bit bitwise OR of f registers. -/
  | por (c : Nat) (rd rs1 rs2 : RegNo)
  /-- PXOR (R70): 64-bit bitwise XOR of f registers. -/
  | pxor (c : Nat) (rd rs1 rs2 : RegNo)
  /-- PSAD (R70): Sum of absolute byte differences over 8 lanes. -/
  | psad (c : Nat) (rd rs1 rs2 : RegNo)
  /-- PFADD (R97): Two-lane binary32 add. -/
  | pfadd (c : Nat) (rd rs1 rs2 : RegNo)
  /-- PFSUB (R97): Two-lane binary32 subtract. -/
  | pfsub (c : Nat) (rd rs1 rs2 : RegNo)
  /-- PFMUL (R97): Two-lane binary32 multiply. -/
  | pfmul (c : Nat) (rd rs1 rs2 : RegNo)
  /-- PFMAC (R97): Two-lane binary32 fused multiply-add. -/
  | pfmac (c : Nat) (rd rs1 rs2 : RegNo)
  /-- BEQ (R100): Branch when rs1 equals rs2. -/
  | beq (c : Nat) (rs1 rs2 : RegNo) (off : BitVec 16)
  /-- BNE (R100): Branch when rs1 differs from rs2. -/
  | bne (c : Nat) (rs1 rs2 : RegNo) (off : BitVec 16)
  /-- BLT (R100): Branch when rs1 is signed-less than rs2. -/
  | blt (c : Nat) (rs1 rs2 : RegNo) (off : BitVec 16)
  /-- BGE (R100): Branch when rs1 is signed-greater or equal. -/
  | bge (c : Nat) (rs1 rs2 : RegNo) (off : BitVec 16)
  /-- BLTU (R100): Branch when rs1 is unsigned-less than rs2. -/
  | bltu (c : Nat) (rs1 rs2 : RegNo) (off : BitVec 16)
  /-- BGEU (R100): Branch when rs1 is unsigned-greater or equal. -/
  | bgeu (c : Nat) (rs1 rs2 : RegNo) (off : BitVec 16)
  /-- LOOP (R101): Sets LBEG, LEND and LCNT and enters or skips the loop body. -/
  | loop (c : Nat) (rs1 : RegNo) (off : BitVec 16)
  /-- JMP (R100): PC := PC + sext(off26) × 4. -/
  | jmp (c : Nat) (off : BitVec 26)
  /-- BL (R67): Writes PC + 4 to lk and jumps PC-relative. -/
  | bl (c : Nat) (off : BitVec 26)
  /-- JR (R89): Jumps to rs1, taking Alignment when bits [1:0] are nonzero. -/
  | jr (c : Nat) (rs1 : RegNo)
  /-- JLR (R100): Reads rs1, writes PC + 4 to lk and jumps. -/
  | jlr (c : Nat) (rs1 : RegNo)
  /-- MFS (R82): Reads a system register after the level and assignment checks. -/
  | mfs (c : Nat) (rd : RegNo) (num : BitVec 12)
  /-- MTS (R82): Writes a system register field by field after the level and assignment checks. -/
  | mts (c : Nat) (rs : RegNo) (num : BitVec 12)
  /-- DC_CLEAN (R221): Writes every dirty copy of the line to memory and keeps the copies. -/
  | dcClean (c : Nat) (rs : RegNo)
  /-- DC_INV (R221): Discards every copy of the line, dirty data and poison included. -/
  | dcInv (c : Nat) (rs : RegNo)
  /-- DC_CLINV (R221): Writes the line to memory and discards every copy. -/
  | dcClinv (c : Nat) (rs : RegNo)
  /-- DC_ZERO (R221): Installs the line zeroed and dirty in L1D and clears any poison mark. -/
  | dcZero (c : Nat) (rs : RegNo)
  /-- IC_INV (R221): Discards the line from every L1I and line buffer. -/
  | icInv (c : Nat) (rs : RegNo)
  /-- TLBI_VA (R210): Invalidates matching TLB entries for a page on every core. -/
  | tlbiVa (c : Nat) (rs : RegNo)
  /-- TLBI_ASID (R210): Invalidates U/K entries of an ASID on every core. -/
  | tlbiAsid (c : Nat) (rs : RegNo)
  /-- TLBI_VMID (R210): Invalidates every U/K entry of a VMID including walk-cache stage-2 results. -/
  | tlbiVmid (c : Nat) (rs : RegNo)
  /-- TLBI_ALL (R210): Invalidates every entry of the regimes the level covers. -/
  | tlbiAll (c : Nat)
  /-- FENCE_C (R110): Waits until older loads have data and older Device accesses are issued. -/
  | fenceC (c : Nat)
  /-- FENCE_K (R110): Adds the wait until older stores are cluster-visible. -/
  | fenceK (c : Nat)
  /-- FENCE_S (R110): Adds the wait for system visibility, Device write acknowledgement and completed maintenance. -/
  | fenceS (c : Nat)
  /-- BARRIER_WAIT_END (R184): The condition a waiting barrier holds for is met, and the next instruction may issue. -/
  | barrierWaitEnd (c : Nat)
  /-- ISYNC (R110): Waits for older instructions, discards fetched instructions and refetches. -/
  | isync (c : Nat)
  /-- WEV (R109): Consumes EVENT.PEND or waits for an event, interrupt or debug halt. -/
  | wev (c : Nat)
  /-- WAIT_END (R482): An event, takeable interrupt or debug halt ends a WEV or WTU wait, leaving any sleep state. -/
  | waitEnd (c : Nat)
  /-- SEV (R109): Sets EVENT.PEND in every online core of the chosen scope. -/
  | sev (c : Nat) (scope : BitVec 2)
  /-- WTU (R109): Waits until the ETC reaches the deadline in rx or an end condition, then writes the ETC to rx. -/
  | wtu (c : Nat) (rx : RegNo)
  /-- WTU_DEADLINE (R109): The ETC reaches a waiting WTU's deadline and the WTU completes. -/
  | wtuDeadline (c : Nat)
  /-- CLRRES (R103): Clears the core's reservation. -/
  | clrres (c : Nat)
  /-- TAKE (R111): Completes any held task and requests the next task word from the Pacer. -/
  | take (c : Nat) (rd : RegNo)
  /-- TAKE_GRANT (R111): The Pacer grants an eligible entry to a waiting TAKE, writing rd and DSPCUR together. -/
  | takeGrant (c : Nat) (checkFails : Nat)
  /-- YIELD (R111): Returns the held task to the tail of its queue. -/
  | yield (c : Nat)
  /-- GATE (R112): Checks the gate entry and arguments, pushes a frame and enters the higher level's handler. -/
  | gate (c : Nat) (t : BitVec 2) (n : BitVec 10)
  /-- GRET (R112): Pops a gate frame and restores STAT and PC. -/
  | gret (c : Nat)
  /-- ERET (R112): Pops an exception frame and restores STAT and PC. -/
  | eret (c : Nat)
  /-- BRK (R147): Raises Breakpoint with imm10 in INFO. -/
  | brk (c : Nat) (imm : BitVec 10)
  /-- EXCEPTION_ENTRY (R145): A synchronous exception pushes a frame on the target level's stack and enters its vector. -/
  | exceptionEntry (c vec info : Nat) (far : Option W64) (fipa : Option Nat) (wnr fetch : Bool)
  /-- INTERRUPT_ENTRY (R424): The core takes the best offered interrupt, acknowledging the source and entering its vector. -/
  | interruptEntry (c : Nat)
  /-- INSTRUCTION_RETRY (R160): An error detected by CK discards CK and younger instructions and restores state from the checkpoint.
  inj: a slot of an injector that caused the error (R543); line: the line or entry that failed; afterCk: a mismatch found after CK (R159); lost: the
  checkpoint doublewords that the retry's read finds uncorrectable, as a mask (R163). -/
  | instructionRetry (c unit code : Nat) (inj line : Option Nat) (afterCk : Bool) (lost : Nat)
  /-- CHECKPOINT_SCRUB (R159): The sparing controller scrubs the checkpoint array, correcting single-bit errors.
  i: the doubleword of the core-loss record's state that the error lies in (R173). -/
  | checkpointScrub (c i : Nat) (ecc : Ecc)
  /-- PROACTIVE_THRESHOLD (R166): A logical core's retries reach 16 × PRO_THRESH in 1 ms and sparing is triggered. -/
  | proactiveThreshold (c : Nat)
  /-- SPAREREQ_GO (R166): Software writes SPAREREQ.GO to spare the named logical core, or sets REJ. -/
  | sparereqGo (r : Requester) (n idx : Nat)
  /-- SPARING (R167): The logical core's state is moved to the reserve core, which is released at the committed PC.
  lost: the checkpoint doublewords that the transfer's read finds uncorrectable, as a mask (R163). -/
  | sparing (c : Nat) (bistOk xferOk xfer2Ok : Bool) (lost : Nat)
  /-- CORE_LOSS (R172): The logical core's state is saved to the core-loss record and the core taken offline. -/
  | coreLoss (c lost : Nat)
  /-- RANGE_CLEAN (R222): CMR_CTL START with OP 0 cleans every line of the VA range in the background. -/
  | rangeClean (c : Nat)
  /-- RANGE_CLINV (R222): CMR_CTL START with OP 1 cleans and invalidates the range. -/
  | rangeClinv (c : Nat)
  /-- RANGE_INV (R222): CMR_CTL START with OP 2 invalidates the range, or cleans and invalidates at U. -/
  | rangeInv (c : Nat)
  /-- RANGE_IINV (R222): CMR_CTL START with OP 3 invalidates instruction lines of the range. -/
  | rangeIinv (c : Nat)
  /-- RANGE_OPERATION_LINE (R222): A running range operation finishes a line and advances, or stops with FAULT. -/
  | rangeOperationLine (c : Nat)
  /-- DCLINV (R223): CACHECTL.DCLINV cleans and invalidates all of the core's L1D. -/
  | dclinv (c : Nat)
  /-- DCLEAN (R223): CACHECTL.DCLEAN cleans all of L1D. -/
  | dclean (c : Nat)
  /-- DINV (R223): CACHECTL.DINV invalidates all of L1D and sets DINIT. -/
  | dinv (c : Nat)
  /-- IINV (R223): CACHECTL.IINV invalidates all of L1I and the line buffer and sets IINIT. -/
  | iinv (c : Nat)
  /-- CACHE_ENABLE (R215): A write of CACHECTL IEN or DEN enables an initialised L1 or cleans and disables it. -/
  | cacheEnable (c : Nat) (ien den : Bool)
  /-- INVALL (R134): PSCTL.INVALL invalidates every predictor entry of the core. -/
  | invall (c : Nat)
  /-- L2OP_CLEAN (R223): CLUSTERn.L2OP.CLEAN cleans the whole L2 of the cluster. -/
  | l2opClean (r : Requester) (n : Nat)
  /-- L2OP_CLINV (R223): CLUSTERn.L2OP.CLINV cleans and invalidates the whole L2. -/
  | l2opClinv (r : Requester) (n : Nat)
  /-- CACHE_SCRUB (R228): L2 and the Cellar scrub every line at least once per 100 ms.
  part: which array is read. -/
  | cacheScrub (a : ArrayAt) (part : ArrayPart) (line : Nat) (ecc : Ecc)
  /-- CLUSTER_FENCE (R52): An uncorrectable fault in cluster-shared logic takes every core of the cluster offline and poisons its dirty lines.
  inj: the class of an injected error that caused it (R543). -/
  | clusterFence (n unit code : Nat) (inj : Option Nat)
  /-- WAY_FENCE (R226): Exhausted column repair in an L2 or Cellar array fences the way with a Contained record. -/
  | wayFence (a : ArrayAt) (way set : Nat)
  /-- QTIER_WRITE (R566): A write of MEMC.QTIER takes effect only when it obeys R231, otherwise leaves the register unchanged. -/
  | qtierWrite (r : Requester) (v : W32)
  /-- DTIER_WRITE (R566): A write of MEMC.DTIER takes effect only when it obeys R236. -/
  | dtierWrite (r : Requester) (v : W32)
  /-- GATE_BROADCAST_WRITE (R248): A write to the QDRB or DDRB instance writes that gate in every controller of the tier. -/
  | gateBroadcastWrite (r : Requester) (addr : Nat) (v : W32)
  /-- TRAIN_FULL (R235): TRAIN.GO with MODE 0 runs full training of a QDR or DRAM controller. -/
  | trainFull (k : Nat) (results : List W32) (ok : Bool)
  /-- TRAIN_LOAD (R239): TRAIN.GO with MODE 1 loads TRAINDATA and verifies it. -/
  | trainLoad (k : Nat) (ok : Bool)
  /-- TRAIN_INVALID_MODE (R235): TRAIN.GO with MODE 2 or 3 sets FAIL. -/
  | trainInvalidMode (k : Nat)
  /-- PERIODIC_RETRAINING (R238): Every 100 ms a DRAM channel retrains, stalling it at most 1 µs. -/
  | periodicRetraining (n : Nat) (ok : Bool)
  /-- POWER_DOWN (R238): A DRAM channel idle for 1 µs enters power-down. -/
  | powerDown (n : Nat)
  /-- PATROL_SCRUB (R242): Patrol scrub reads QDR and DRAM locations as bulk traffic, correcting or poisoning them. -/
  | patrolScrub (k line : Nat) (ecc : Ecc)
  /-- SRAM_SCRUB (R242): Tun and Cask are scrubbed completely once per second. -/
  | sramScrub (cask : Bool) (line : Nat) (ecc : Ecc)
  /-- RESPONSE_TIMEOUT (R241): A memory controller gives no response within its timeout and a Fatal record follows. -/
  | responseTimeout (k : Nat) (t : AccessTag) (addr : Nat)
  /-- SOFT_REPAIR (R254): Repeated or uncorrectable errors in a column map in a spare column and sweep the bank. -/
  | softRepair (cask : Bool) (bank column : Nat) (lines : List Nat)
  /-- SRAM_BANK_FENCE (R255): A column failure with no spare left fences the Tun or Cask bank and unmaps it. -/
  | sramBankFence (cask : Bool) (bank : Nat)
  /-- WIPE (R252): CASK.WIPE.GO writes zero over all of Cask SRAM and reads it back. -/
  | wipe (r : Requester)
  /-- TAMPER_EVENT (R253): A held TAMPER pin or mesh break wipes Cask and clears Kiln slots with a sealed record. -/
  | tamperEvent (cause : Nat)
  /-- SQ_TAIL_WRITE (R267): Software advances SQ_TAIL to submit entries, or causes a ring fault. -/
  | sqTailWrite (r : Requester) (q : Nat) (v : W32)
  /-- CQ_HEAD_WRITE (R267): Software advances CQ_HEAD, returning records and moving ENDED slots to REPORTED. -/
  | cqHeadWrite (r : Requester) (q : Nat) (v : W32)
  /-- SQ_ENTRY_READ (R269): The CSS reads an SQ entry when a slot is FREE and a CQ entry is free, reserving both. -/
  | sqEntryRead
  /-- SC_ENABLE (R261): Reads and checks the subchannel record and makes the subchannel IDLE with a new GEN. -/
  | scEnable (r : Requester) (t : BitVec 12)
  /-- SC_DISABLE (R263): Sets the subchannel DISABLED. -/
  | scDisable (r : Requester) (t : BitVec 12)
  /-- SC_MIGRATE_DRAIN (R287): Moves to path index PIDX after the dispatched step's report or timeout. -/
  | scMigrateDrain (r : Requester) (t : BitVec 12) (pidx : BitVec 2)
  /-- SC_MIGRATE_FORCE (R287): Moves to path index PIDX at once and increments GEN. -/
  | scMigrateForce (r : Requester) (t : BitVec 12) (pidx : BitVec 2)
  /-- SC_ABORT (R290): Ends every held operation, withdrawing a handed-off step from the adapter. -/
  | scAbort (r : Requester) (t : BitVec 12)
  /-- RP_ENABLE (R265): Reads and checks the ring context record and resets the four counters. -/
  | rpEnable (r : Requester) (t : BitVec 12)
  /-- RP_DISABLE (R263): Stops reading the SQ and waits until every accepted operation has ended. -/
  | rpDisable (r : Requester) (t : BitVec 12)
  /-- RP_FLUSH (R263): Stops reading the SQ and ends every operation of the ring pair under the fence rule. -/
  | rpFlush (r : Requester) (t : BitVec 12)
  /-- BADOP (R263): A CSS.CMD write with an unassigned OP does nothing and reports BADOP. -/
  | badop (r : Requester) (op : BitVec 4) (t : BitVec 12)
  /-- NOP (R273): A CCD step with no action. -/
  | ccdNop (sc : Nat)
  /-- BRANCH (R273): Continues the channel program at ARG under its PARAM condition. -/
  | branch (sc : Nat)
  /-- WAIT (R273): Waits until an absolute or relative ETC value. -/
  | ccdWait (sc : Nat)
  /-- WAIT_EXPIRY (R273): The ETC reaches a WAIT step's time and the program continues. -/
  | waitExpiry (sc : Nat)
  /-- CHECK (R341): Computes a digest or MAC of the source and compares it with the value at ARG. -/
  | check (of : StepOf)
  /-- MASH (R339): Compresses the source into ARG in the format PARAM selects. -/
  | mash (of : StepOf)
  /-- UNMASH (R340): Decompresses the source into ARG. -/
  | unmash (of : StepOf)
  /-- SEAL (R342): Encrypts and authenticates the source with AES-GCM under a key slot, taking a fresh IV counter. -/
  | seal (of : StepOf)
  /-- UNSEAL (R343): Verifies the tag and decrypts the source, zeroing the output on failure. -/
  | unseal (of : StepOf)
  /-- READ (R317): A device step that takes a stored frame or device data into ADDR. -/
  | ccdRead (sc : Nat)
  /-- WRITE (R315): A device step that sends COUNT bytes from ADDR to the device. -/
  | ccdWrite (sc : Nat)
  /-- CONTROL (R273): A device step that sends an 8-byte order and COUNT bytes to the device. -/
  | control (sc : Nat)
  /-- SENSE (R332): A device step that writes device or adapter status into ADDR. -/
  | sense (sc : Nat)
  /-- ENGINE_STEP_END (R337): Mash or Kiln finishes a step and the channel program or job continues or ends. -/
  | engineStepEnd (kiln : Bool) (chk : EngCheck)
  /-- PATH_REPORT (R286): An adapter's report of a handed-off step is taken when its GEN and slot match, otherwise counted stale. -/
  | pathReport (path slot gen : Nat) (notSent : Bool)
  /-- STEP_TIMEOUT (R283): TIMEOUT µs pass without a report and the step becomes an interrupted dispatch. -/
  | stepTimeout (sc : Nat)
  /-- NOPATH_TIMEOUT (R289): No listed path becomes ONLINE within TIMEOUT of NOPATH and every held operation ends. -/
  | nopathTimeout (sc : Nat)
  /-- COALESCING_TIMEOUT (R270): COALUS µs after the first unsignalled record the ring's VEC is raised. -/
  | coalescingTimeout (q : Nat)
  /-- PATH_FENCE (R258): An adapter fault, link loss or protocol error fences the path and migrates its subchannels. -/
  | pathFence (p : Nat) (why : PathFault)
  /-- PATHCTL_FENCE (R258): Software writes PATHCTL.FENCE to fence an ONLINE or RECOVERING path. -/
  | pathctlFence (r : Requester) (p : Nat)
  /-- PATHCTL_EN (R303): A write of PATHCTL.EN takes a fenced path OFFLINE or starts its recovery. -/
  | pathctlEn (r : Requester) (p : Nat) (en : Bool)
  /-- PATH_ONLINE (R303): The adapter re-establishes its link and the path becomes ONLINE, migrating NOPATH subchannels. -/
  | pathOnline (p : Nat)
  /-- CSS_ENABLE (R305): The first write of CSS.CTL.EN = 1 after a reset runs format or recover before reading SQs. -/
  | cssEnable (r : Requester)
  /-- CSS_DISABLE (R305): A write of EN = 0 stops the reading of SQ entries and nothing else. -/
  | cssDisable (r : Requester)
  /-- RLOG_HEAD_WRITE (R300): Software advances RLOG_HEAD, letting waiting orphans be written. -/
  | rlogHeadWrite (r : Requester) (v : W32)
  /-- RLOGCFG_WRITE (R302): A write of RLOGCFG sets the log and resumes a log stopped by a write failure. -/
  | rlogcfgWrite (r : Requester) (v : W32)
  /-- LEDGER_SCRUB (R312): Scrub finds an uncorrectable slot and rewrites it from the internal copy. -/
  | ledgerScrub (slot : Nat)
  /-- MIRROR (R307): A peer's mirror update writes its slot state into PEER, and an ENDED update reports the step. -/
  | mirror (port : Nat)
  /-- MACK (R385): An acknowledgement of a MIRROR or answer to a CANCEL, carrying the peer slot state or NOSLOT. -/
  | mack (port : Nat)
  /-- MREF (R309): The submitting device refuses a peer's DISPATCHED request, and the peer ends the slot FLUSHED. -/
  | mref (port : Nat)
  /-- CANCEL (R309): A cancel ends an undispatched peer slot FLUSHED and is answered. -/
  | cancel (port : Nat)
  /-- MIRROR_RESEND (R386): Every 20 µs an unanswered MIRROR or CANCEL is sent again. -/
  | mirrorResend
  /-- PEERWAIT_EXPIRY (R311): PEERWAIT ms after a peer loss, waiting slots are resolved, freed or orphaned. -/
  | peerwaitExpiry (dev : Nat)
  /-- NOSLOT_KEY_EXPIRY (R387): 200 µs after a NOSLOT answer the peer stops refusing FWDs with that key. -/
  | noslotKeyExpiry (dev slot gen : Nat)
  /-- FRAME_RECEIVE (R316): An adapter receives a frame, matches it to a subchannel and stores or delivers it, or discards it. -/
  | frameReceive (path : Nat) (f : RxFrame) (ts : W64) (bad : BitVec 3)
  /-- FRAME_SENT (R315): A transmit step's frame or command completes on the medium and the step is reported sent. -/
  | frameSent (path : Nat) (errs : List (BitVec 3)) (sfd : W32)
  /-- READ_WAIT_EXPIRY (R317): A READ finds no frame by the end of its PARAM wait and reports 0 bytes. -/
  | readWaitExpiry (path slot : Nat)
  /-- LINK_LOSS (R333): Bus-off, lost beacon or PHY link down fences the adapter's path with CAUSE 3. -/
  | linkLoss (path : Nat)
  /-- ADAPTER_RESET (R333): ACTL.RST resets a fenced or offline adapter, discarding stored frames. -/
  | adapterReset (r : Requester) (path : Nat)
  /-- QBV_CYCLE_START (R324): A gate cycle starts when ETC mod QBVCYCLE equals QBVOFS, switching to NEXT when pending. -/
  | qbvCycleStart (path : Nat)
  /-- GCL_ENTRY_END (R324): A gate control list entry's INTERVAL ends and the next entry's gates take effect. -/
  | gclEntryEnd (path : Nat)
  /-- SD_RESPONSE (R330): A smart-driver response arrives and ends the step or triggers retransmission. -/
  | sdResponse (path : Nat) (bytes : List Byte)
  /-- SD_RETRANSMIT (R330): 10 µs after a bad response the identical command is sent again. -/
  | sdRetransmit (path : Nat)
  /-- KEEP_ALIVE (R331): After KAMS ms idle toward a chip select the adapter sends a NOP. -/
  | keepAlive (path : Nat) (cs : BitVec 2)
  /-- FAULTIN (R328): A fall of SDn_FAULT_N sets AEVT.FAULTIN. -/
  | faultin (path : Nat)
  /-- JOB_START (R356): JCTL.GO starts a direct job chain on a Mash or Kiln job channel. -/
  | jobStart (r : Requester) (kiln : Bool) (ch : BitVec 3) (v : W32)
  /-- VERIFY (R357): A direct-only job step that verifies an ECDSA or ML-DSA signature. -/
  | verify (ch : Nat)
  /-- CIPHER (R358): A direct-only job step that runs AES-CTR or XTS under a key slot. -/
  | cipher (ch : Nat)
  /-- DERIVE (R347): Fills a slot by SP 800-108 derivation bound to SVN and life-cycle. -/
  | derive (r : Requester) (dst src : BitVec 6) (root : Bool)
  /-- IMPORT (R348): Fills a slot by unwrapping a blob from Cask under a WRAP slot. -/
  | importKey (r : Requester) (dst src : BitVec 6)
  /-- LDR_INVALID_OP (R349): LDR_CTL.GO with an unassigned OP ends with BADSLOT. -/
  | ldrInvalidOp (r : Requester) (v : W32)
  /-- SLOT_CLEAR (R346): A write clearing KS_CFG.VALID zeroes the key and its counter. -/
  | slotClear (r : Requester) (slot : BitVec 6) (v : W32)
  /-- RNGDATA_READ (R352): A read of RNGDATA or RNGDATA_S returns the next DRBG word and counts toward reseed. -/
  | rngdataRead (r : Requester) (sealedReg : Bool)
  /-- HEALTH_TEST_FAILURE (R352): A failed entropy health test stops both DRBGs and sets RNGSTAT.FAIL. -/
  | healthTestFailure
  /-- RNG_RESTART (R352): RNGCTL.RESTART reruns the start-up test and resumes generation. -/
  | rngRestart (r : Requester)
  /-- FULL_TRAINING (R363): Signal on a DOWN port starts equalisation, deskew and width choice, resetting SEQ and batons. -/
  | fullTraining (port : Nat) (lanes : BitVec 4)
  /-- PARAM (R363): A PARAM control frame exchanges role, INDEX, port, INCARN and the expected SEQ. -/
  | param (port : Nat) (p : ParamMsg)
  /-- IDLE (R364): An IDLE control frame carries no link message. -/
  | idle (port : Nat) (ack : Option (BitVec 9))
  /-- NAK (R371): A NAK names the expected SEQ and the sender replays from it. -/
  | nak (port : Nat) (seq : BitVec 9) (ack : Option (BitVec 9))
  /-- BRET (R369): A BRET carries the receiver's FREED counts and returns batons. -/
  | bret (port : Nat) (freed : List (BitVec 16)) (ack : Option (BitVec 9))
  /-- RECON (R373): RECON carries ACCEPTED and FREED counts, checked at the end of a retrain. -/
  | recon (port : Nat) (accepted freed : List (BitVec 16))
  /-- DATA_FRAME_RECEIVE (R371): A data frame is accepted only with the expected SEQ and a correct CRC, then delivered or forwarded. -/
  | dataFrameReceive (port : Nat) (seq : BitVec 9) (crcOk : Bool) (ack : Option (BitVec 9)) (f : Flit) (injected : Bool)
  /-- REPLAY_TIMEOUT (R371): No ACK advances for 1 µs and the sender replays from the oldest frame. -/
  | replayTimeout (port : Nat) (ecc : ArrayCheck)
  /-- FAST_RETRAIN (R372): Lost block lock or 4 failed replays start a fast retrain keeping replay state. -/
  | fastRetrain (port : Nat) (lost : BitVec 4)
  /-- RETRAIN_LIMIT (R372): RTLIM µs pass without ACTIVE and the port is fenced with RTFAIL. -/
  | retrainLimit (port : Nat)
  /-- PORT_ENABLE (R362): A write of PORTCTL.EN enables or disables a Relay port, leaving FENCED for DISABLED. -/
  | portEnable (r : Requester) (port : Nat) (v : W32)
  /-- PORT_FENCE (R370): Software writes PORTCTL.FENCE to fence the port. -/
  | portFence (r : Requester) (port : Nat)
  /-- RD (R379): A remote-window read is matched against the inbound map and performed or answered ERROR. -/
  | rd (port : Nat)
  /-- WR (R379): A remote-window write command, followed by its WRD line image. -/
  | wr (port : Nat)
  /-- WRD (R366): The 64-byte line image of a WR or BWR, performed at the target. -/
  | wrd (port : Nat)
  /-- FWD (R382): A forwarded device step is placed in the peer's Relay ring pair or answered ERROR. -/
  | fwd (port : Nat)
  /-- BRD (R384): A peer back-read of a submitter buffer, performed only for a matching dispatched slot. -/
  | brd (port : Nat)
  /-- BWR (R384): A peer back-write of a submitter buffer, followed by a WRD. -/
  | bwr (port : Nat)
  /-- RDR (R380): Read data response whose status becomes the requester's outcome. -/
  | rdr (port : Nat)
  /-- CMP (R380): Completion of a WR, BWR or FWD with its status. -/
  | relayCmp (port : Nat)
  /-- REQUEST_TIMEOUT (R380): A VL0 request without response in 200 µs ends as an error response. -/
  | requestTimeout (tag : BitVec 8)
  /-- ASSIGN (R375): The manager assigns a worker's index on the named port. -/
  | assign (port : Nat)
  /-- ROUTESET (R375): The manager writes the worker's HROUTE table. -/
  | routeset (port : Nat)
  /-- READY (R375): The worker's answer that sets its HPRESENT bit on the manager. -/
  | ready (port : Nat)
  /-- ASSIGN_REPEAT (R389): Every 100 µs without READY the manager repeats ASSIGN or ROUTESET. -/
  | assignRepeat (dev : Nat)
  /-- SYNC (R390): A parent's SYNC carrying its ETC is stamped on arrival by the worker. -/
  | sync (port : Nat) (t2 t3 : W64)
  /-- SYNC_PERIOD (R390): Every 10 µs the parent sends SYNC to its workers. -/
  | syncPeriod
  /-- DREQ (R390): The worker's delay request, stamped on arrival by the parent. -/
  | dreq (port : Nat) (t4 : W64)
  /-- DRESP (R390): The parent's response, from which the worker steps or slews its ETC. -/
  | dresp (port : Nat)
  /-- LOSS (R388): A loss notice for a device, forwarded by the manager and acknowledged. -/
  | loss (port : Nat)
  /-- LOSS_REPEAT (R389): Every 20 µs an unacknowledged LOSS notice is repeated. -/
  | lossRepeat
  /-- LEAVE (R388): A departing device's notice; neighbours take their ports DOWN without a fence. -/
  | leave (port : Nat)
  /-- CONFIGURATION_REQUEST (R395): A PCIe configuration request is answered, with CRS until the image is applied or during FLR. -/
  | configurationRequest (fn : BitVec 8) (off : BitVec 12) (wr : Option (W32 × BitVec 4))
  /-- BAR0_REQUEST (R401): A host request to a register BAR, with Completer Abort for a wrong size. -/
  | bar0Request (fn : BitVec 8) (off len : Nat) (wr : Option W32) (ep : Bool)
  /-- BAR2_REQUEST (R402): A host request to a window BAR is mapped into Gnouc memory or refused. -/
  | bar2Request (fn : BitVec 8) (off len : Nat) (wr : Option (List Byte)) (ep : Bool) (chk : EpCheck)
  /-- RPCMD_ENABLE (R404): RPCMD.OP = 1 writes the ring context record and performs RP_ENABLE. -/
  | rpcmdEnable (q : BitVec 10)
  /-- RPCMD_DISABLE (R404): RPCMD.OP = 2 performs RP_DISABLE. -/
  | rpcmdDisable (q : BitVec 10)
  /-- RPCMD_FLUSH (R404): RPCMD.OP = 3 performs RP_FLUSH. -/
  | rpcmdFlush (q : BitVec 10)
  /-- INTPEND_CLEAR (R407): A W1C write to INTPEND may end the INTA condition and send Deassert_INTA. -/
  | intpendClear (v : W32)
  /-- BME_CHANGE (R411): A change of Bus Master Enable holds or releases the function's requests and records. -/
  | bmeChange (fn : BitVec 8) (en : Bool)
  /-- FLR (R412): Initiate FLR squashes the function's reads, ends its operations and resets its configuration. -/
  | flr (fn : BitVec 8)
  /-- VF_ENABLE_CLEAR (R413): Clearing VF Enable makes every VF take the FLR steps. -/
  | vfEnableClear
  /-- D3HOT_TO_D0 (R414): A transition from D3hot to D0 performs the FLR steps for the function. -/
  | d3hotToD0 (fn : BitVec 8)
  /-- LINK_RESET (R415): Link down, Hot Reset, Link Disable or PERST_N low resets every function of the endpoint. -/
  | linkReset (perst : Bool)
  /-- HOST_COMPLETION (R409): A completion from the host ends an outbound read with data, an error response or poison. -/
  | hostCompletion (tag : Nat) (res : HostCpl) (chk : EpCheck)
  /-- COMPLETION_TIMEOUT (R408): An outbound read's completion timeout expires and it ends as an error response. -/
  | completionTimeout (tag : Nat)
  /-- MBDB_SEND (R417): The host's MBDB.SEND delivers MB_H2G to the hypervisor and sets EVT.MBIN. -/
  | mbdbSend
  /-- MBSEND (R417): HOSTEP.MBSEND copies MB_G2H to PF0, sets MBSTAT.G2H and raises its vector. -/
  | mbsend (r : Requester)
  /-- EDGE_EVENT (R422): An edge sets a source's PEND, or MERGED when already pending. -/
  | edgeEvent (c snum : Nat)
  /-- LEVEL_LINE (R421): A change of a level line sets or follows PEND as TRIG selects. -/
  | levelLine (src : LineIn) (high : Bool) (chk : ArrayCheck)
  /-- SETP (R422): A write of SSTAT or PSTAT SETP sets PEND as an edge. -/
  | setp (r : Requester) (addr : Nat) (v : W32)
  /-- CSIG (R420): A write of INTD.CSIG raises core signal SIG on TARGET as an edge. -/
  | csig (r : Requester) (v : W32)
  /-- IEOI (R426): An MTS to IEOI completes the top interrupt or reports an out-of-order completion. -/
  | ieoi (c : Nat) (rs : RegNo)
  /-- ISTKCLR (R427): An MTS to ISTKCLR at H or M completes every stack entry above the base it may. -/
  | istkclr (c : Nat) (rs : RegNo)
  /-- SEALED_RESTART (R439): SRCTL.REQ abandons level M, reloads and verifies the sealed image and restarts it on every core. -/
  | sealedRestart (r : Option Requester) (set : BootSet)
  /-- BLKGATE_WRITE (R495): A write of PACER.BLKGATE stops a block's clock or power unless owned or in use. -/
  | blkgateWrite (r : Requester) (b : Nat) (v : W32)
  /-- CHAL (R444): UNLOCK.CHAL draws a new 32-byte nonce from the sealed DRBG. -/
  | chal (r : Requester)
  /-- UNLOCK (R445): UNLOCK.GO checks the debug token and sets the enables it names. -/
  | unlock (r : Requester)
  /-- RELOCK (R443): UNLOCK.RELOCK clears the token enables. -/
  | relock (r : Requester)
  /-- HALT (R448): CORECTL.HALT requests a halt taken when the world's invasive enable is set. -/
  | halt (r : Requester) (c : Nat)
  /-- RESUME (R448): CORECTL.RESUME continues the halted core at its first uncommitted instruction. -/
  | resume (r : Requester) (c : Nat)
  /-- STEP (R448): CORECTL.STEP executes one instruction and halts again. -/
  | step (r : Requester) (c : Nat)
  /-- ITR (R449): A write of ITR executes the instruction once on the halted core or refuses it. -/
  | itr (r : Option Requester) (c : Nat) (v : W32)
  /-- EXTEST (R450): JTAG boundary-scan EXTEST, acting as BYPASS in PRODUCTION. -/
  | extest (bits : List Bool)
  /-- IDCODE (R450): JTAG IDCODE returns the device identification. -/
  | idcode
  /-- SAMPLE_PRELOAD (R450): JTAG SAMPLE/PRELOAD of the boundary register. -/
  | samplePreload (bits : List Bool)
  /-- CLAMP (R450): JTAG CLAMP, acting as BYPASS in PRODUCTION. -/
  | clamp
  /-- HIGHZ (R450): JTAG HIGHZ, acting as BYPASS in PRODUCTION. -/
  | highz
  /-- BYPASS (R450): JTAG BYPASS, also taken by every unassigned code. -/
  | bypass (code : BitVec 8) (tdi : Bool)
  /-- DAP (R451): A DAP Update-DR performs a register access in the Device registers region or reports DENIED. -/
  | dap (v : W64)
  /-- FULL_BOOT (R452): The boot ROM tries sources, verifies a boot set, applies its CFG and hands over to the SWI. -/
  | fullBoot (env : BootEnv)
  /-- BOOT_SOURCE_TIMEOUT (R455): No ASSIGN within 50 ms or no MANIFEST within 2 s and the source is absent. -/
  | bootSourceTimeout
  /-- MANIFEST (R473): A recovery-download frame or mailbox message delivering the manifest. -/
  | manifest (m : BootMsg)
  /-- BLOCK_DATA (R473): A recovery-download frame or message delivering block data, answered OK or RESEND. -/
  | blockData (m : BootMsg)
  /-- END (R473): A recovery-download frame or message ending the set, which is then verified and booted. -/
  | endDownload (m : BootMsg)
  /-- RELEASE (R470): A BOOT.RELEASE bit releases a core at its entry with the boot registers set. -/
  | release (r : Requester) (j : BitVec 1) (v : W32)
  /-- LCADV (R469): A write of BOOT.LCADV with KEY 0xC5 programs the life-cycle fuses and performs a WARM reset. -/
  | lcadv (r : Requester) (target : BitVec 3)
  /-- RAISE_SVN (R468): FUSEPROG OP 0 burns SVN thermometer bits up to ARG or is refused. -/
  | raiseSvn (r : Requester) (arg : BitVec 6) (verified : Bool)
  /-- REVOKE_ROOT_KEY_SLOT (R468): FUSEPROG OP 1 revokes a root-key slot unless none would remain. -/
  | revokeRootKeySlot (r : Requester) (arg : BitVec 6) (verified : Bool)
  /-- REVOKE_DEBUG_KEY_SLOT (R468): FUSEPROG OP 2 revokes a debug-key slot. -/
  | revokeDebugKeySlot (r : Requester) (arg : BitVec 6) (verified : Bool)
  /-- FUSEPROG_INVALID_OP (R468): FUSEPROG OP 3 sets ERR. -/
  | fuseprogInvalidOp (r : Requester) (arg : BitVec 6)
  /-- PARK_RESUME (R474): On PARK wake the ROM checks the Cask digest and resumes at RESUME or does a full boot. -/
  | parkResume (env : BootEnv)
  /-- EPOCH (R493): At each 1 ms ETC boundary the Pacer resets E and chooses a target OP for each group.
  chk: what its state arrays show (R496 UNIT 0x05). -/
  | epoch (ms : List GroupMeas) (soc : Nat) (chk : ArrayCheck)
  /-- VOLTAGE_CONFIRMED (R479): The regulator reports the requested voltage and the OP change completes.
  repeated: the transfer failed and was repeated (R496 UNIT 0x01). -/
  | voltageConfirmed (g : Nat) (repeated : Bool)
  /-- VOLTAGE_TIMEOUT (R480): The voltage is not confirmed within VTMO and VFAIL is set. -/
  | voltageTimeout (g : Nat)
  /-- MEASUREMENT (R490): Every 50 µs rail telemetry and temperatures are read, entering or leaving the thermal emergency. -/
  | measurement (energies : List Nat) (temps : List (BitVec 16)) (other : BitVec 16)
  /-- QPUSH (R488): A QPUSH_HI write pushes a task word to a queue and latches the result. -/
  | qpush (r : Requester) (q : Nat) (v : W32)
  /-- DEVSLEEP (R485): A sealed-world DEVSLEEP.REQ starts entry to PARK or OFF. -/
  | devsleep (r : Requester) (v : W32)
  /-- DRAIN_TIMEOUT (R485): The CSS does not drain within DRAINMS and the sleep entry is aborted. -/
  | drainTimeout
  /-- ENTRY_WINDOW_END (R484): The 8-ACLK entry window ends and AON takes over in PARK or OFF. -/
  | entryWindowEnd
  /-- WAKE_PIN (R483): An enabled WAKEn_N edge or level wakes the device from PARK or OFF. -/
  | wakePin (n : BitVec 2) (low : Bool)
  /-- I2C0_ADDRESS_MATCH (R483): The clockless matcher ACKs I2CWADDR and wakes the device. -/
  | i2c0AddressMatch (addr : BitVec 7)
  /-- ETC_ALARM (R483): The ETC reaches WAKEETC and wakes the device from PARK. -/
  | etcAlarm
  /-- WAKE (R487): A wake from PARK or OFF powers up, restores the regulators and starts the ROM.
  qdrKept: the board has kept the QDR devices powered in PARK (R256). item, chk: what the check code of an item that AON retains shows (R526). -/
  | wake (qdrKept : Bool) (item : AonItem) (chk : ArrayCheck)
  /-- IDLE_ENTRY (R481): A core waiting 32 CCLK cycles enters IDLE, NAP or DOZE as SLPCTL.DEPTH selects. -/
  | idleEntry (c : Nat)
  /-- SWMSG (R504): A write of TRACE.SWMSG emits a MSG packet on the channel. -/
  | swmsg (r : Requester) (ch : Nat) (v : W32)
  /-- TRACE_SOURCE_ENABLE (R503): A write of SRCCFG.EN moves the source sequencer from or to IDLE. -/
  | traceSourceEnable (r : Requester) (n : Nat) (v : W32)
  /-- CHUNK_TIMEOUT (R505): 1 µs after its first byte a partial chunk leaves.
  chk: what the check code of the source's FIFO shows (R510). -/
  | chunkTimeout (n : Nat) (chk : ArrayCheck)
  /-- SYNC_PERIODIC (R499): A source emits a periodic SYNC every 2^(SYNCPER + 8) bytes. -/
  | syncPeriodic (n : Nat)
  /-- SINK_WRITE (R506): A sink writes a line to its ring buffer, wrapping, stopping or failing. -/
  | sinkWrite (k : Nat) (flush : Bool) (resp : Resp)
  /-- FROZEN_CLEAR (R508): Writing 1 to SINKSTAT.FROZEN clears it and re-arms the sink. -/
  | frozenClear (r : Requester) (k : Nat)
  /-- REF_LOST (R513): REF deviating or stopping for 8 ACLK cycles is Fatal. -/
  | refLost
  /-- PLL_LOCK_LOST (R513): A PLL losing lock is Fatal. -/
  | pllLockLost (pll : BitVec 4)
  /-- ACLK_LOST (R513): ACLK stopping writes a Deferred record and limits wake. -/
  | aclkLost
  /-- ETC_INCREMENT (R514): The ETC advances per REF or ACLK cycle and its two copies are compared. -/
  | etcIncrement (copyOk : Bool)
  /-- ETC_COMPARATOR (R519): ETC reaches ETCCMP with EN set, raising private source 0 and clearing EN. -/
  | etcComparator (c : Nat)
  /-- PIN_RESET (R520): RESET_N low for 2 ACLK cycles resets the whole device except AON. -/
  | pinReset (qdrKept : Bool)
  /-- WARM_RESET (R521): RSTCTL.WARM drains, writes back and resets the device outside AON, then boots. -/
  | warmReset (r : Option Requester)
  /-- CLUSTER_RESET (R522): RSTCTL.CLUSTER resets a cluster's cores, cleans L2 and returns offline cores. -/
  | clusterReset (r : Option Requester) (n : BitVec 3)
  /-- CORE_RESET (R522): RSTCTL.CORE stops, drains and resets one logical core, requeuing its task. -/
  | coreReset (r : Option Requester) (c : BitVec 6)
  /-- SOC_RAIL_TIMEOUT (R551): VDD_SOC not reaching 0.70 V in 5 ms turns it off and retries after 100 ms. -/
  | socRailTimeout
  /-- BINJ_ARM (R542): A write of BINJ_CTL.ARM arms a bit injector or sets ERR. -/
  | binjArm (r : Requester) (i : Nat) (v : W32)
  /-- RSVTEST (R545): CLUSTERn.RSVTEST.GO runs the logic self-test of an idle reserve core. -/
  | rsvtest (r : Requester) (n : Nat) (pass : Bool)
  /-- L1I_FILL (R218): A line requested by an L1I miss arrives whole from L2 into the line buffer and fetch resumes.
  The operands are those of L1D_FILL. -/
  | l1iFill (c : Nat) (va : W64) (victim : Option Nat) (mem : Ecc) (parity : Nat)
  /-- LINK_UP (R415): The PCIe data link trains up after PERST_N rises, LINKSTAT.UP and EVT.LINK are set and the endpoint answers configuration requests from 20 ms later. -/
  | linkUp (speed : BitVec 4) (width : BitVec 5)
  /-- BRET_INTERVAL (R369): At least every 1 µs a Relay receiver sends a BRET carrying its FREED counts. -/
  | bretInterval (port : Nat)
  /-- ACK_INTERVAL (R371): After 32 frames or 100 ns a Relay receiver sends an ACK of the last in-order SEQ. -/
  | ackInterval (port : Nat)
deriving DecidableEq, Repr

end Sys2Proof
end

