-- ==== Sys2Proof/Machine/Bits.lean ====
section
/-! DEFINITION. Bit fields, byte order and sign extension (R5): the helpers that every other operation uses. -/
namespace Sys2Proof.Machine

/-- The field [hi:lo] of a word, as a number. -/
def fld {w : Nat} (v : BitVec w) (hi lo : Nat) : Nat := (v.toNat >>> lo) % 2 ^ (hi - lo + 1)

/-- Bit i of a word. -/
def bit {w : Nat} (v : BitVec w) (i : Nat) : Bool := v.getLsbD i

/-- The field [hi:lo] of a number. -/
def nfld (n : Nat) (hi lo : Nat) : Nat := (n >>> lo) % 2 ^ (hi - lo + 1)

/-- The mask with ones in [hi:lo]. -/
def maskOf (w hi lo : Nat) : BitVec w := BitVec.ofNat w ((2 ^ (hi - lo + 1) - 1) <<< lo)

/-- v with its field [hi:lo] replaced by n. -/
def setFld {w : Nat} (v : BitVec w) (hi lo n : Nat) : BitVec w :=
  (v &&& ~~~ (maskOf w hi lo)) ||| (BitVec.ofNat w (n % 2 ^ (hi - lo + 1)) <<< lo)

/-- The number of a truth value. -/
def b2n (b : Bool) : Nat := if b then 1 else 0

/-- Sign-extension of the low n bits of a doubleword. -/
def sextN (n : Nat) (v : W64) : W64 := (BitVec.truncate n v).signExtend 64

/-- Zero-extension of the low n bits of a doubleword. -/
def zextN (n : Nat) (v : W64) : W64 := (BitVec.truncate n v).zeroExtend 64

/-- sext32 of the manual's notation: the low word, sign-extended. -/
def sext32 (v : W64) : W64 := sextN 32 v

/-- n bytes of a number, least significant first (R5: memory is little-endian). -/
def leBytes : Nat → Nat → List Byte
  | 0, _ => []
  | n + 1, v => BitVec.ofNat 8 v :: leBytes n (v / 256)

/-- The number that bytes stand for, least significant first (R5). -/
def leNat : List Byte → Nat
  | [] => 0
  | b :: bs => b.toNat + 256 * leNat bs

/-- How many bits of the first n bits of v are set. -/
def popCount : Nat → Nat → Nat
  | 0, _ => 0
  | n + 1, v => v % 2 + popCount n (v / 2)

/-- The position of the lowest set bit among the first n bits of v, if any. -/
def lowestSet : Nat → Nat → Nat → Option Nat
  | 0, _, _ => none
  | n + 1, i, v => if v % 2 == 1 then some i else lowestSet n (i + 1) (v / 2)

/-- v with only its k lowest-numbered set bits kept (R225), over n bits from position i. -/
def keepLowest : Nat → Nat → Nat → Nat → Nat
  | 0, _, _, _ => 0
  | n + 1, i, k, v =>
    if v % 2 == 1 then
      (if k == 0 then 0 else 2 ^ i + keepLowest n (i + 1) (k - 1) (v / 2))
    else keepLowest n (i + 1) k (v / 2)

/-- A saturating count of the given width. -/
def satAdd (w n k : Nat) : Nat := min (n + k) (2 ^ w - 1)

/-- CRC-32C of a byte into the running value (R95). -/
def crc32cByte (acc : Nat) (b : Byte) : Nat :=
  (List.range 8).foldl (fun a _ => if a % 2 = 1 then (a / 2) ^^^ 0x82F63B78 else a / 2) (acc ^^^ b.toNat)

/-- CRC-32C of bytes with initial value 0xFFFFFFFF and final inversion. -/
def crc32c (bs : List Byte) : Nat := (bs.foldl crc32cByte 0xFFFFFFFF) ^^^ 0xFFFFFFFF

end Sys2Proof.Machine
end

