-- ==== Sys2Proof/Machine/RegTable.lean ====
section
/-! DEFINITION. The register tables of the manual (R10-R23): one definition per documented MMIO register, with its
absolute address (R27, R33), its replication (R23) and its fields: position, access code (R12), SW mark (R13), reset
value (R17), lock bit (R14) and whether its reset notation is C (img). Reset notations C, F, S and x stand as 0 here: C by R18 (zero until the image is
applied), the other three by assumption log entry 2. Reserved fields have no entry: they read as zero (R11). -/
namespace Sys2Proof.Machine

/-- The access codes of R12 (SW is a mark beside them). -/
inductive Acc where
  | rw | ro | wo | w1c | w1s | rwl | rwh
deriving DecidableEq, Repr

/-- How a register takes part in a 64-bit pair (R19, R21). -/
inductive PairPart where
  | single | lo | hi
deriving DecidableEq, Repr

/-- A field of an MMIO register. lock: the bit that locks it, as a distance from the register's own address and a
bit number (R14). img: reset notation C. -/
structure FieldDef where
  hi : Nat
  lo : Nat
  acc : Acc
  sw : Bool
  reset : Nat
  lock : Option (Int × Nat)
  img : Bool
deriving DecidableEq, Repr

/-- A documented register with up to three dimensions of replication (R23). -/
structure RegDef where
  base : Nat
  n1 : Nat
  s1 : Nat
  n2 : Nat
  s2 : Nat
  n3 : Nat
  s3 : Nat
  pair : PairPart
  fields : List FieldDef
deriving DecidableEq, Repr

/-- The address of instance (i, j, k) (R23). -/
def RegDef.at (r : RegDef) (i : Nat := 0) (j : Nat := 0) (k : Nat := 0) : Nat :=
  r.base + i * r.s1 + j * r.s2 + k * r.s3

/-- Does an offset fall on one of n instances at a stride, and which, with what is left over? -/
def dimSplit (off n s : Nat) : Option (Nat × Nat) :=
  if s = 0 then some (0, off)
  else if off / s < n then some (off / s, off % s) else none

/-- Is this the address of an instance of the register? -/
def RegDef.holds (r : RegDef) (a : Nat) : Bool :=
  if a < r.base then false else
  match dimSplit (a - r.base) r.n1 r.s1 with
  | none => false
  | some (_, o1) =>
    match dimSplit o1 r.n2 r.s2 with
    | none => false
    | some (_, o2) =>
      match dimSplit o2 r.n3 r.s3 with
      | none => false
      | some (_, o3) => o3 == 0

/-- An unlocked field, written shortly. -/
def fd (hi lo : Nat) (acc : Acc) (sw : Bool) (reset : Nat) (lock : Option (Int × Nat) := none) : FieldDef :=
  { hi := hi, lo := lo, acc := acc, sw := sw, reset := reset, lock := lock, img := false }

/-- A field with reset notation C (R18). -/
def fc (hi lo : Nat) (acc : Acc) (sw : Bool) (reset : Nat) (lock : Option (Int × Nat) := none) : FieldDef :=
  { fd hi lo acc sw reset lock with img := true }

/-- The instance spans of R33. -/
inductive Block where
  | SYSCTL | PACER | AON | INTD | CLUSTER | CSS | ADPT | MASH | KILN | RELAY | HOSTEP | MEMC | TRACE | DEBUG | BOOT
  | ERRREC | PERI
deriving DecidableEq, Repr

/-- The block table of R33: block, base, instances, stride, span of an instance. -/
def blockTable : List (Block × Nat × Nat × Nat × Nat) :=
  [
(.SYSCTL, 0x10000000, 1, 0x0, 0x100000),
   (.PACER, 0x10100000, 1, 0x0, 0x100000),
   (.AON, 0x10200000, 1, 0x0, 0x100000),
   (.INTD, 0x10300000, 1, 0x0, 0x100000),
   (.CLUSTER, 0x10400000, 8, 0x20000, 0x20000),
   (.CSS, 0x11000000, 1, 0x0, 0x1000000),
   (.ADPT, 0x12000000, 96, 0x10000, 0x10000),
   (.MASH, 0x13000000, 1, 0x0, 0x100000),
   (.KILN, 0x13100000, 1, 0x0, 0x100000),
   (.RELAY, 0x14000000, 6, 0x10000, 0x10000),
   (.HOSTEP, 0x15000000, 1, 0x0, 0x1000000),
   (.MEMC, 0x16000000, 1, 0x0, 0x1000000),
   (.TRACE, 0x17000000, 1, 0x0, 0x1000000),
   (.DEBUG, 0x18000000, 1, 0x0, 0x1000000),
   (.BOOT, 0x19000000, 1, 0x0, 0x1000000),
   (.ERRREC, 0x1A000000, 1, 0x0, 0x1000000),
   (.PERI, 0x1B000000, 1, 0x0, 0x1000000)]

/-- The block instance whose span holds an address (R33): block, instance, offset in the instance. -/
def blockOf (a : Nat) : Option (Block × Nat × Nat) :=
  go blockTable
where
  go : List (Block × Nat × Nat × Nat × Nat) → Option (Block × Nat × Nat)
    | [] => none
    | (b, base, n, s, sp) :: t =>
      if base ≤ a ∧ a < base + (if n = 1 then sp else n * s) then
        some (b, (if n = 1 then 0 else (a - base) / s), (if n = 1 then a - base else (a - base) % s))
      else go t

namespace Reg

/-- SYSCTL.ID — offset 0x0000, one instance (spec/00_scope.md). -/
def SYSCTL_ID : RegDef := ⟨0x10000000, 1, 0x0, 1, 0x0, 1, 0x0, .single,
  [fd 31 24 .ro false 0xa, fd 23 16 .ro false 0x8, fd 15 12 .ro false 0x1, fd 11 8 .ro false 0x1, fd 0 0 .ro false 0x0]⟩
/-- SYSCTL.CLBASE_LO — offset 0x0200, one instance (CLBASE_HI at 0x0204, R21 applies) (spec/07_retry_sparing.md). -/
def SYSCTL_CLBASE_LO : RegDef := ⟨0x10000200, 1, 0x0, 1, 0x0, 1, 0x0, .lo,
  [fc 31 16 .rw false 0x0]⟩
/-- SYSCTL.CLBASE_HI — offset 0x0204, one instance (spec/07_retry_sparing.md). -/
def SYSCTL_CLBASE_HI : RegDef := ⟨0x10000204, 1, 0x0, 1, 0x0, 1, 0x0, .hi,
  [fc 11 0 .rw false 0x0]⟩
/-- SYSCTL.CLSBASE — offset 0x0208, one instance (spec/07_retry_sparing.md). -/
def SYSCTL_CLSBASE : RegDef := ⟨0x10000208, 1, 0x0, 1, 0x0, 1, 0x0, .single,
  [fc 31 16 .rw true 0x0]⟩
/-- SYSCTL.CELLOCK — offset 0x4_0000, one instance (spec/09_translation_caches.md). -/
def SYSCTL_CELLOCK : RegDef := ⟨0x10040000, 1, 0x0, 1, 0x0, 1, 0x0, .single,
  [fc 15 0 .rw false 0x0]⟩
/-- SYSCTL.CELALLOC — offset 0x4_0100, 64 instances, stride 0x4 (spec/09_translation_caches.md). -/
def SYSCTL_CELALLOC : RegDef := ⟨0x10040100, 64, 0x4, 1, 0x0, 1, 0x0, .single,
  [fc 15 0 .rw false 0x0]⟩
/-- SYSCTL.OWNER — offset 0x0300, one instance (spec/18_worlds_debug.md). -/
def SYSCTL_OWNER : RegDef := ⟨0x10000300, 1, 0x0, 1, 0x0, 1, 0x0, .single,
  [fd 19 16 .ro false 0xf, fc 9 9 .rw true 0x0, fc 8 8 .rw true 0x0, fc 7 0 .rw true 0x0]⟩
/-- SYSCTL.PDLOG — offset 0x0304, one instance (spec/18_worlds_debug.md). -/
def SYSCTL_PDLOG : RegDef := ⟨0x10000304, 1, 0x0, 1, 0x0, 1, 0x0, .single,
  [fd 31 31 .w1c true 0x0, fd 21 16 .ro true 0x0, fd 15 11 .ro true 0x0, fd 10 8 .ro true 0x0, fd 7 0 .ro true 0x0]⟩
/-- SYSCTL.PDCNT — offset 0x0308, one instance (spec/18_worlds_debug.md). -/
def SYSCTL_PDCNT : RegDef := ⟨0x10000308, 1, 0x0, 1, 0x0, 1, 0x0, .single,
  [fd 31 16 .rwh true 0x0, fd 15 0 .rwh true 0x0]⟩
/-- SYSCTL.SRCTL — offset 0x0310, one instance (spec/18_worlds_debug.md). -/
def SYSCTL_SRCTL : RegDef := ⟨0x10000310, 1, 0x0, 1, 0x0, 1, 0x0, .single,
  [fc 1 1 .rwl true 0x0 (some (0, 1)), fd 0 0 .w1s false 0x0]⟩
/-- SYSCTL.SRSTAT — offset 0x0314, one instance (spec/18_worlds_debug.md). -/
def SYSCTL_SRSTAT : RegDef := ⟨0x10000314, 1, 0x0, 1, 0x0, 1, 0x0, .single,
  [fd 31 31 .ro false 0x0, fd 30 30 .w1c false 0x0, fd 23 16 .ro false 0x0, fd 0 0 .ro false 0x0]⟩
/-- SYSCTL.SMEAS — offset 0x0320, 12 instances, stride 0x4 (spec/18_worlds_debug.md). -/
def SYSCTL_SMEAS : RegDef := ⟨0x10000320, 12, 0x4, 1, 0x0, 1, 0x0, .single,
  [fd 31 0 .ro false 0x0]⟩
/-- SYSCTL.RSTCTL — offset 0x0400, one instance (spec/22_clocks_time_resets.md). -/
def SYSCTL_RSTCTL : RegDef := ⟨0x10000400, 1, 0x0, 1, 0x0, 1, 0x0, .single,
  [fd 31 31 .w1s true 0x0, fd 23 16 .w1s false 0x0, fd 8 8 .w1s false 0x0, fd 5 0 .rw false 0x0]⟩
/-- SYSCTL.IOBW — offset 0x0500, one instance (spec/23_configuration_image.md). -/
def SYSCTL_IOBW : RegDef := ⟨0x10000500, 1, 0x0, 1, 0x0, 1, 0x0, .single,
  [fc 23 16 .rw false 0x0, fc 15 8 .rw false 0x0, fc 7 0 .rw false 0x0]⟩
/-- ERRREC.SUMMARY_LO — offset 0x0000, one instance (SUMMARY_HI at 0x0004) (spec/02_guarantees.md). -/
def ERRREC_SUMMARY_LO : RegDef := ⟨0x1A000000, 1, 0x0, 1, 0x0, 1, 0x0, .lo,
  [fd 31 0 .ro false 0x0]⟩
/-- ERRREC.SUMMARY_HI — offset 0x0004, one instance (spec/02_guarantees.md). -/
def ERRREC_SUMMARY_HI : RegDef := ⟨0x1A000004, 1, 0x0, 1, 0x0, 1, 0x0, .hi,
  [fd 15 0 .ro false 0x0]⟩
/-- ERRREC.ROUTE — offset 0x0010, one instance (spec/02_guarantees.md). -/
def ERRREC_ROUTE : RegDef := ⟨0x1A000010, 1, 0x0, 1, 0x0, 1, 0x0, .single,
  [fc 21 16 .rw true 0x0, fc 13 8 .rw false 0x0, fc 5 0 .rw false 0x0]⟩
/-- ERRREC.FATALCTL — offset 0x0014, one instance (spec/02_guarantees.md). -/
def ERRREC_FATALCTL : RegDef := ⟨0x1A000014, 1, 0x0, 1, 0x0, 1, 0x0, .single,
  [fd 31 31 .rwl false 0x0 (some (0, 31)), fd 16 16 .rwl false 0x0 (some (0, 31)), fd 15 0 .rwl false 0x64 (some (0, 31))]⟩
/-- ERRREC.PFENCE_LO — offset 0x0020, one instance (PFENCE_HI at 0x0024, R21 applies) (spec/02_guarantees.md). -/
def ERRREC_PFENCE_LO : RegDef := ⟨0x1A000020, 1, 0x0, 1, 0x0, 1, 0x0, .lo,
  [fd 31 1 .rw false 0x0]⟩
/-- ERRREC.PFENCE_HI — offset 0x0024, one instance (spec/02_guarantees.md). -/
def ERRREC_PFENCE_HI : RegDef := ⟨0x1A000024, 1, 0x0, 1, 0x0, 1, 0x0, .hi,
  [fd 31 31 .rw true 0x0, fd 30 0 .rw false 0x0]⟩
/-- ERRREC.BANK_CTL — offset 0x1_0000, 48 instances, stride 0x1000 (spec/02_guarantees.md). -/
def ERRREC_BANK_CTL : RegDef := ⟨0x1A010000, 48, 0x1000, 1, 0x0, 1, 0x0, .single,
  [fd 7 0 .rw false 0x0]⟩
/-- ERRREC.BANK_STATUS — offset 0x1_0004, 48 instances, stride 0x1000 (spec/02_guarantees.md). -/
def ERRREC_BANK_STATUS : RegDef := ⟨0x1A010004, 48, 0x1000, 1, 0x0, 1, 0x0, .single,
  [fd 8 8 .w1c false 0x0, fd 4 0 .ro false 0x0]⟩
/-- ERRREC.BANK_OVFCNT — offset 0x1_0008, 48 instances, stride 0x1000 (spec/02_guarantees.md). -/
def ERRREC_BANK_OVFCNT : RegDef := ⟨0x1A010008, 48, 0x1000, 1, 0x0, 1, 0x0, .single,
  [fd 15 0 .rwh false 0x0]⟩
/-- ERRREC.REC_STATUS — offset 0x1_0100, 48 × 16 instances; bank stride 0x1000, slot stride 0x40 (spec/02_guarantees.md). -/
def ERRREC_REC_STATUS : RegDef := ⟨0x1A010100, 48, 0x1000, 16, 0x40, 1, 0x0, .single,
  [fd 23 16 .ro false 0x0, fd 15 8 .ro false 0x0, fd 5 5 .ro false 0x0, fd 4 4 .ro false 0x0, fd 3 3 .ro false 0x0, fd 2 1 .ro false 0x0, fd 0 0 .w1c false 0x0]⟩
/-- ERRREC.REC_TAG — offset 0x1_0104, same replication (spec/02_guarantees.md). -/
def ERRREC_REC_TAG : RegDef := ⟨0x1A010104, 48, 0x1000, 16, 0x40, 1, 0x0, .single,
  [fd 31 31 .ro false 0x0, fd 24 24 .ro false 0x0, fd 21 16 .ro false 0x0, fd 10 8 .ro false 0x0, fd 7 0 .ro false 0x0]⟩
/-- ERRREC.REC_ADDR_LO — offset 0x1_0108, same replication (REC_ADDR_HI at 0x1_010C) (spec/02_guarantees.md). -/
def ERRREC_REC_ADDR_LO : RegDef := ⟨0x1A010108, 48, 0x1000, 16, 0x40, 1, 0x0, .lo,
  [fd 31 0 .ro false 0x0]⟩
/-- ERRREC.REC_ADDR_HI — offset 0x1_010C, same replication (spec/02_guarantees.md). -/
def ERRREC_REC_ADDR_HI : RegDef := ⟨0x1A01010C, 48, 0x1000, 16, 0x40, 1, 0x0, .hi,
  [fd 31 31 .ro false 0x0, fd 11 0 .ro false 0x0]⟩
/-- ERRREC.REC_ETC_LO — offset 0x1_0110, same replication (REC_ETC_HI at 0x1_0114) (spec/02_guarantees.md). -/
def ERRREC_REC_ETC_LO : RegDef := ⟨0x1A010110, 48, 0x1000, 16, 0x40, 1, 0x0, .lo,
  [fd 31 0 .ro false 0x0]⟩
/-- ERRREC.REC_ETC_HI — offset 0x1_0114, same replication (spec/02_guarantees.md). -/
def ERRREC_REC_ETC_HI : RegDef := ⟨0x1A010114, 48, 0x1000, 16, 0x40, 1, 0x0, .hi,
  [fd 31 0 .ro false 0x0]⟩
/-- ERRREC.REC_MISC — offset 0x1_0118, same replication, 4 words at stride 0x4 (MISC0–MISC3) (spec/02_guarantees.md). -/
def ERRREC_REC_MISC : RegDef := ⟨0x1A010118, 48, 0x1000, 16, 0x40, 4, 0x4, .single,
  [fd 31 0 .ro false 0x0]⟩
/-- CLUSTERn.SPARECTL — offset 0x0100, one per CLUSTERn instance (spec/07_retry_sparing.md). -/
def CLUSTER_SPARECTL : RegDef := ⟨0x10400100, 8, 0x20000, 1, 0x0, 1, 0x0, .single,
  [fd 31 31 .rwl false 0x0 (some (0, 31)), fd 23 16 .rwl false 0x0 (some (0, 31)), fd 10 8 .rwl false 0x3 (some (0, 31)), fd 0 0 .rwl false 0x1 (some (0, 31))]⟩
/-- CLUSTERn.SPAREREQ — offset 0x0104, one per CLUSTERn instance (spec/07_retry_sparing.md). -/
def CLUSTER_SPAREREQ : RegDef := ⟨0x10400104, 8, 0x20000, 1, 0x0, 1, 0x0, .single,
  [fd 31 31 .w1s false 0x0, fd 2 0 .rw false 0x0]⟩
/-- CLUSTERn.SPARESTAT — offset 0x0108, one per CLUSTERn instance (spec/07_retry_sparing.md). -/
def CLUSTER_SPARESTAT : RegDef := ⟨0x10400108, 8, 0x20000, 1, 0x0, 1, 0x0, .single,
  [fd 31 31 .ro false 0x0, fd 19 19 .w1c false 0x0, fd 18 18 .w1c false 0x0, fd 17 17 .w1c false 0x0, fd 16 16 .w1c false 0x0, fd 10 8 .ro false 0x0, fd 1 0 .ro false 0x0]⟩
/-- CLUSTERn.SLOTMAP — offset 0x010C, one per CLUSTERn instance (spec/07_retry_sparing.md). -/
def CLUSTER_SLOTMAP : RegDef := ⟨0x1040010C, 8, 0x20000, 1, 0x0, 1, 0x0, .single,
  [fd 30 24 .ro false 0x0, fd 22 0 .ro false 0x543210]⟩
/-- CLUSTERn.RETRYCNT — offset 0x0120, 6 instances per CLUSTERn instance, stride 0x4 (spec/07_retry_sparing.md). -/
def CLUSTER_RETRYCNT : RegDef := ⟨0x10400120, 8, 0x20000, 6, 0x4, 1, 0x0, .single,
  [fd 31 0 .rwh false 0x0]⟩
/-- CLUSTERn.L2LOCK — offset 0x0200, one per CLUSTERn instance (spec/09_translation_caches.md). -/
def CLUSTER_L2LOCK : RegDef := ⟨0x10400200, 8, 0x20000, 1, 0x0, 1, 0x0, .single,
  [fd 31 16 .rw false 0x0, fd 15 0 .rw false 0x0]⟩
/-- CLUSTERn.L2OP — offset 0x0204, one per CLUSTERn instance (spec/09_translation_caches.md). -/
def CLUSTER_L2OP : RegDef := ⟨0x10400204, 8, 0x20000, 1, 0x0, 1, 0x0, .single,
  [fd 31 31 .ro false 0x0, fd 1 1 .wo false 0x0, fd 0 0 .wo false 0x0]⟩
/-- CLUSTERn.RSVTEST — offset 0x0110, one per CLUSTERn instance (spec/24_fault_injection.md). -/
def CLUSTER_RSVTEST : RegDef := ⟨0x10400110, 8, 0x20000, 1, 0x0, 1, 0x0, .single,
  [fd 31 31 .w1s false 0x0, fd 1 0 .ro false 0x0]⟩
/-- MEMC.QTIER — offset 0x32_0000, one instance (spec/10_memory_tiers.md). -/
def MEMC_QTIER : RegDef := ⟨0x16320000, 1, 0x0, 1, 0x0, 1, 0x0, .single,
  [fd 31 31 .rwl false 0x0 (some (0, 31)), fc 24 24 .rwl false 0x0 (some (0, 31)), fc 21 16 .rwl false 0x0 (some (0, 31)), fc 15 8 .rwl false 0x0 (some (0, 31))]⟩
/-- MEMC.DTIER — offset 0x32_0004, one instance (spec/10_memory_tiers.md). -/
def MEMC_DTIER : RegDef := ⟨0x16320004, 1, 0x0, 1, 0x0, 1, 0x0, .single,
  [fd 31 31 .rwl false 0x0 (some (0, 31)), fc 23 8 .rwl false 0x0 (some (0, 31)), fc 7 0 .rwl false 0x0 (some (0, 31))]⟩
/-- MEMC.CTL — offset 0x0000 in QDRn, DDRn, TUN and CASK; 24 instances (spec/10_memory_tiers.md). -/
def MEMC_QDR_CTL : RegDef := ⟨0x16000000, 6, 0x10000, 1, 0x0, 1, 0x0, .single,
  [fd 31 31 .rwl false 0x0 (some (0, 31)), fc 16 16 .rwl false 0x0 (some (0, 31)), fc 15 8 .rwl false 0x0 (some (0, 31))]⟩
/-- MEMC.CTL — offset 0x0000 in QDRn, DDRn, TUN and CASK; 24 instances (spec/10_memory_tiers.md). -/
def MEMC_DDR_CTL : RegDef := ⟨0x16100000, 16, 0x10000, 1, 0x0, 1, 0x0, .single,
  [fd 31 31 .rwl false 0x0 (some (0, 31)), fc 16 16 .rwl false 0x0 (some (0, 31)), fc 15 8 .rwl false 0x0 (some (0, 31))]⟩
/-- MEMC.CTL — offset 0x0000 in QDRn, DDRn, TUN and CASK; 24 instances (spec/10_memory_tiers.md). -/
def MEMC_TUN_CTL : RegDef := ⟨0x16300000, 1, 0x0, 1, 0x0, 1, 0x0, .single,
  [fd 31 31 .rwl false 0x0 (some (0, 31)), fc 16 16 .rwl false 0x0 (some (0, 31))]⟩
/-- MEMC.CTL — offset 0x0000 in QDRn, DDRn, TUN and CASK; 24 instances (spec/10_memory_tiers.md). -/
def MEMC_CASK_CTL : RegDef := ⟨0x16310000, 1, 0x0, 1, 0x0, 1, 0x0, .single,
  [fd 31 31 .rwl true 0x0 (some (0, 31)), fc 16 16 .rwl true 0x0 (some (0, 31))]⟩
/-- MEMC.STAT — offset 0x0004, same instances (spec/10_memory_tiers.md). -/
def MEMC_QDR_STAT : RegDef := ⟨0x16000004, 6, 0x10000, 1, 0x0, 1, 0x0, .single,
  [fd 1 1 .ro false 0x0, fd 0 0 .ro false 0x0]⟩
/-- MEMC.STAT — offset 0x0004, same instances (spec/10_memory_tiers.md). -/
def MEMC_DDR_STAT : RegDef := ⟨0x16100004, 16, 0x10000, 1, 0x0, 1, 0x0, .single,
  [fd 2 2 .ro false 0x0, fd 1 1 .ro false 0x0, fd 0 0 .ro false 0x0]⟩
/-- MEMC.STAT — offset 0x0004, same instances (spec/10_memory_tiers.md). -/
def MEMC_TUN_STAT : RegDef := ⟨0x16300004, 1, 0x0, 1, 0x0, 1, 0x0, .single,
  [fd 0 0 .ro false 0x0]⟩
/-- MEMC.STAT — offset 0x0004, same instances (spec/10_memory_tiers.md). -/
def MEMC_CASK_STAT : RegDef := ⟨0x16310004, 1, 0x0, 1, 0x0, 1, 0x0, .single,
  [fd 0 0 .ro true 0x0]⟩
/-- MEMC.REFUSECNT — offset 0x0008; MEMC.CORRCNT — offset 0x000C; same instances (spec/10_memory_tiers.md). -/
def MEMC_QDR_REFUSECNT : RegDef := ⟨0x16000008, 6, 0x10000, 1, 0x0, 1, 0x0, .single,
  [fd 31 0 .rwh false 0x0]⟩
/-- MEMC.REFUSECNT — offset 0x0008; MEMC.CORRCNT — offset 0x000C; same instances (spec/10_memory_tiers.md). -/
def MEMC_DDR_REFUSECNT : RegDef := ⟨0x16100008, 16, 0x10000, 1, 0x0, 1, 0x0, .single,
  [fd 31 0 .rwh false 0x0]⟩
/-- MEMC.REFUSECNT — offset 0x0008; MEMC.CORRCNT — offset 0x000C; same instances (spec/10_memory_tiers.md). -/
def MEMC_TUN_REFUSECNT : RegDef := ⟨0x16300008, 1, 0x0, 1, 0x0, 1, 0x0, .single,
  [fd 31 0 .rwh false 0x0]⟩
/-- MEMC.REFUSECNT — offset 0x0008; MEMC.CORRCNT — offset 0x000C; same instances (spec/10_memory_tiers.md). -/
def MEMC_CASK_REFUSECNT : RegDef := ⟨0x16310008, 1, 0x0, 1, 0x0, 1, 0x0, .single,
  [fd 31 0 .rwh true 0x0]⟩
/-- MEMC.REFUSECNT — offset 0x0008; MEMC.CORRCNT — offset 0x000C; same instances (spec/10_memory_tiers.md). -/
def MEMC_QDR_CORRCNT : RegDef := ⟨0x1600000C, 6, 0x10000, 1, 0x0, 1, 0x0, .single,
  [fd 31 0 .rwh false 0x0]⟩
/-- MEMC.REFUSECNT — offset 0x0008; MEMC.CORRCNT — offset 0x000C; same instances (spec/10_memory_tiers.md). -/
def MEMC_DDR_CORRCNT : RegDef := ⟨0x1610000C, 16, 0x10000, 1, 0x0, 1, 0x0, .single,
  [fd 31 0 .rwh false 0x0]⟩
/-- MEMC.REFUSECNT — offset 0x0008; MEMC.CORRCNT — offset 0x000C; same instances (spec/10_memory_tiers.md). -/
def MEMC_TUN_CORRCNT : RegDef := ⟨0x1630000C, 1, 0x0, 1, 0x0, 1, 0x0, .single,
  [fd 31 0 .rwh false 0x0]⟩
/-- MEMC.REFUSECNT — offset 0x0008; MEMC.CORRCNT — offset 0x000C; same instances (spec/10_memory_tiers.md). -/
def MEMC_CASK_CORRCNT : RegDef := ⟨0x1631000C, 1, 0x0, 1, 0x0, 1, 0x0, .single,
  [fd 31 0 .rwh true 0x0]⟩
/-- MEMC.TRAIN — offset 0x0010 in QDRn and DDRn; 22 instances (spec/10_memory_tiers.md). -/
def MEMC_QDR_TRAIN : RegDef := ⟨0x16000010, 6, 0x10000, 1, 0x0, 1, 0x0, .single,
  [fd 31 31 .w1s false 0x0, fd 29 29 .w1c false 0x0, fc 1 0 .rw false 0x0]⟩
/-- MEMC.TRAIN — offset 0x0010 in QDRn and DDRn; 22 instances (spec/10_memory_tiers.md). -/
def MEMC_DDR_TRAIN : RegDef := ⟨0x16100010, 16, 0x10000, 1, 0x0, 1, 0x0, .single,
  [fd 31 31 .w1s false 0x0, fd 29 29 .w1c false 0x0, fc 1 0 .rw false 0x0]⟩
/-- MEMC.TRAINDATA — offset 0x0400 in QDRn and DDRn, 256 instances each, stride 0x4 (spec/10_memory_tiers.md). -/
def MEMC_QDR_TRAINDATA : RegDef := ⟨0x16000400, 6, 0x10000, 256, 0x4, 1, 0x0, .single,
  [fd 31 0 .rwh false 0x0]⟩
/-- MEMC.TRAINDATA — offset 0x0400 in QDRn and DDRn, 256 instances each, stride 0x4 (spec/10_memory_tiers.md). -/
def MEMC_DDR_TRAINDATA : RegDef := ⟨0x16100400, 16, 0x10000, 256, 0x4, 1, 0x0, .single,
  [fd 31 0 .rwh false 0x0]⟩
/-- MEMC.GBASE_LO — offset 0x8000 in every controller and broadcast instance, 32 instances, stride 0x20 (GBASE_HI at 0x8004) (spec/10_memory_tiers.md). -/
def MEMC_QDR_OPEN_GBASE_LO : RegDef := ⟨0x16008000, 6, 0x10000, 24, 0x20, 1, 0x0, .lo,
  [fc 31 12 .rwl false 0x0 (some (0, 1)), fd 1 1 .rwl false 0x0 (some (0, 1)), fc 0 0 .rwl false 0x0 (some (0, 1))]⟩
/-- MEMC.GBASE_LO — offset 0x8000 in every controller and broadcast instance, 32 instances, stride 0x20 (GBASE_HI at 0x8004) (spec/10_memory_tiers.md). -/
def MEMC_QDR_SEALED_GBASE_LO : RegDef := ⟨0x16008300, 6, 0x10000, 8, 0x20, 1, 0x0, .lo,
  [fc 31 12 .rwl true 0x0 (some (0, 1)), fc 5 5 .rwl true 0x0 (some (0, 1)), fc 4 4 .rwl true 0x0 (some (0, 1)), fc 3 3 .rwl true 0x0 (some (0, 1)), fd 1 1 .rwl true 0x0 (some (0, 1)), fc 0 0 .rwl true 0x0 (some (0, 1))]⟩
/-- MEMC.GBASE_LO — offset 0x8000 in every controller and broadcast instance, 32 instances, stride 0x20 (GBASE_HI at 0x8004) (spec/10_memory_tiers.md). -/
def MEMC_DDR_OPEN_GBASE_LO : RegDef := ⟨0x16108000, 16, 0x10000, 24, 0x20, 1, 0x0, .lo,
  [fc 31 12 .rwl false 0x0 (some (0, 1)), fd 1 1 .rwl false 0x0 (some (0, 1)), fc 0 0 .rwl false 0x0 (some (0, 1))]⟩
/-- MEMC.GBASE_LO — offset 0x8000 in every controller and broadcast instance, 32 instances, stride 0x20 (GBASE_HI at 0x8004) (spec/10_memory_tiers.md). -/
def MEMC_DDR_SEALED_GBASE_LO : RegDef := ⟨0x16108300, 16, 0x10000, 8, 0x20, 1, 0x0, .lo,
  [fc 31 12 .rwl true 0x0 (some (0, 1)), fc 5 5 .rwl true 0x0 (some (0, 1)), fc 4 4 .rwl true 0x0 (some (0, 1)), fc 3 3 .rwl true 0x0 (some (0, 1)), fd 1 1 .rwl true 0x0 (some (0, 1)), fc 0 0 .rwl true 0x0 (some (0, 1))]⟩
/-- MEMC.GBASE_LO — offset 0x8000 in every controller and broadcast instance, 32 instances, stride 0x20 (GBASE_HI at 0x8004) (spec/10_memory_tiers.md). -/
def MEMC_TUN_OPEN_GBASE_LO : RegDef := ⟨0x16308000, 24, 0x20, 1, 0x0, 1, 0x0, .lo,
  [fc 31 12 .rwl false 0x0 (some (0, 1)), fd 1 1 .rwl false 0x0 (some (0, 1)), fc 0 0 .rwl false 0x0 (some (0, 1))]⟩
/-- MEMC.GBASE_LO — offset 0x8000 in every controller and broadcast instance, 32 instances, stride 0x20 (GBASE_HI at 0x8004) (spec/10_memory_tiers.md). -/
def MEMC_TUN_SEALED_GBASE_LO : RegDef := ⟨0x16308300, 8, 0x20, 1, 0x0, 1, 0x0, .lo,
  [fc 31 12 .rwl true 0x0 (some (0, 1)), fc 5 5 .rwl true 0x0 (some (0, 1)), fc 4 4 .rwl true 0x0 (some (0, 1)), fc 3 3 .rwl true 0x0 (some (0, 1)), fd 1 1 .rwl true 0x0 (some (0, 1)), fc 0 0 .rwl true 0x0 (some (0, 1))]⟩
/-- MEMC.GBASE_LO — offset 0x8000 in every controller and broadcast instance, 32 instances, stride 0x20 (GBASE_HI at 0x8004) (spec/10_memory_tiers.md). -/
def MEMC_CASK_OPEN_GBASE_LO : RegDef := ⟨0x16318000, 24, 0x20, 1, 0x0, 1, 0x0, .lo,
  [fc 31 12 .rwl true 0x0 (some (0, 1)), fd 1 1 .rwl true 0x0 (some (0, 1)), fc 0 0 .rwl true 0x0 (some (0, 1))]⟩
/-- MEMC.GBASE_LO — offset 0x8000 in every controller and broadcast instance, 32 instances, stride 0x20 (GBASE_HI at 0x8004) (spec/10_memory_tiers.md). -/
def MEMC_CASK_SEALED_GBASE_LO : RegDef := ⟨0x16318300, 8, 0x20, 1, 0x0, 1, 0x0, .lo,
  [fc 31 12 .rwl true 0x0 (some (0, 1)), fc 5 5 .rwl true 0x0 (some (0, 1)), fc 4 4 .rwl true 0x0 (some (0, 1)), fc 3 3 .rwl true 0x0 (some (0, 1)), fd 1 1 .rwl true 0x0 (some (0, 1)), fc 0 0 .rwl true 0x0 (some (0, 1))]⟩
/-- MEMC.GBASE_LO — offset 0x8000 in every controller and broadcast instance, 32 instances, stride 0x20 (GBASE_HI at 0x8004) (spec/10_memory_tiers.md). -/
def MEMC_QDRB_OPEN_GBASE_LO : RegDef := ⟨0x160F8000, 24, 0x20, 1, 0x0, 1, 0x0, .lo,
  [fc 31 12 .rwl false 0x0 (some (0, 1)), fd 1 1 .rwl false 0x0 (some (0, 1)), fc 0 0 .rwl false 0x0 (some (0, 1))]⟩
/-- MEMC.GBASE_LO — offset 0x8000 in every controller and broadcast instance, 32 instances, stride 0x20 (GBASE_HI at 0x8004) (spec/10_memory_tiers.md). -/
def MEMC_QDRB_SEALED_GBASE_LO : RegDef := ⟨0x160F8300, 8, 0x20, 1, 0x0, 1, 0x0, .lo,
  [fc 31 12 .rwl true 0x0 (some (0, 1)), fc 5 5 .rwl true 0x0 (some (0, 1)), fc 4 4 .rwl true 0x0 (some (0, 1)), fc 3 3 .rwl true 0x0 (some (0, 1)), fd 1 1 .rwl true 0x0 (some (0, 1)), fc 0 0 .rwl true 0x0 (some (0, 1))]⟩
/-- MEMC.GBASE_LO — offset 0x8000 in every controller and broadcast instance, 32 instances, stride 0x20 (GBASE_HI at 0x8004) (spec/10_memory_tiers.md). -/
def MEMC_DDRB_OPEN_GBASE_LO : RegDef := ⟨0x16208000, 24, 0x20, 1, 0x0, 1, 0x0, .lo,
  [fc 31 12 .rwl false 0x0 (some (0, 1)), fd 1 1 .rwl false 0x0 (some (0, 1)), fc 0 0 .rwl false 0x0 (some (0, 1))]⟩
/-- MEMC.GBASE_LO — offset 0x8000 in every controller and broadcast instance, 32 instances, stride 0x20 (GBASE_HI at 0x8004) (spec/10_memory_tiers.md). -/
def MEMC_DDRB_SEALED_GBASE_LO : RegDef := ⟨0x16208300, 8, 0x20, 1, 0x0, 1, 0x0, .lo,
  [fc 31 12 .rwl true 0x0 (some (0, 1)), fc 5 5 .rwl true 0x0 (some (0, 1)), fc 4 4 .rwl true 0x0 (some (0, 1)), fc 3 3 .rwl true 0x0 (some (0, 1)), fd 1 1 .rwl true 0x0 (some (0, 1)), fc 0 0 .rwl true 0x0 (some (0, 1))]⟩
/-- MEMC.GBASE_HI — offset 0x8004; MEMC.GLIM_HI — offset 0x800C; same replication (spec/10_memory_tiers.md). -/
def MEMC_QDR_OPEN_GBASE_HI : RegDef := ⟨0x16008004, 6, 0x10000, 24, 0x20, 1, 0x0, .hi,
  [fc 11 0 .rwl false 0x0 (some (-4, 1))]⟩
/-- MEMC.GBASE_HI — offset 0x8004; MEMC.GLIM_HI — offset 0x800C; same replication (spec/10_memory_tiers.md). -/
def MEMC_QDR_SEALED_GBASE_HI : RegDef := ⟨0x16008304, 6, 0x10000, 8, 0x20, 1, 0x0, .hi,
  [fc 11 0 .rwl true 0x0 (some (-4, 1))]⟩
/-- MEMC.GBASE_HI — offset 0x8004; MEMC.GLIM_HI — offset 0x800C; same replication (spec/10_memory_tiers.md). -/
def MEMC_DDR_OPEN_GBASE_HI : RegDef := ⟨0x16108004, 16, 0x10000, 24, 0x20, 1, 0x0, .hi,
  [fc 11 0 .rwl false 0x0 (some (-4, 1))]⟩
/-- MEMC.GBASE_HI — offset 0x8004; MEMC.GLIM_HI — offset 0x800C; same replication (spec/10_memory_tiers.md). -/
def MEMC_DDR_SEALED_GBASE_HI : RegDef := ⟨0x16108304, 16, 0x10000, 8, 0x20, 1, 0x0, .hi,
  [fc 11 0 .rwl true 0x0 (some (-4, 1))]⟩
/-- MEMC.GBASE_HI — offset 0x8004; MEMC.GLIM_HI — offset 0x800C; same replication (spec/10_memory_tiers.md). -/
def MEMC_TUN_OPEN_GBASE_HI : RegDef := ⟨0x16308004, 24, 0x20, 1, 0x0, 1, 0x0, .hi,
  [fc 11 0 .rwl false 0x0 (some (-4, 1))]⟩
/-- MEMC.GBASE_HI — offset 0x8004; MEMC.GLIM_HI — offset 0x800C; same replication (spec/10_memory_tiers.md). -/
def MEMC_TUN_SEALED_GBASE_HI : RegDef := ⟨0x16308304, 8, 0x20, 1, 0x0, 1, 0x0, .hi,
  [fc 11 0 .rwl true 0x0 (some (-4, 1))]⟩
/-- MEMC.GBASE_HI — offset 0x8004; MEMC.GLIM_HI — offset 0x800C; same replication (spec/10_memory_tiers.md). -/
def MEMC_CASK_OPEN_GBASE_HI : RegDef := ⟨0x16318004, 24, 0x20, 1, 0x0, 1, 0x0, .hi,
  [fc 11 0 .rwl true 0x0 (some (-4, 1))]⟩
/-- MEMC.GBASE_HI — offset 0x8004; MEMC.GLIM_HI — offset 0x800C; same replication (spec/10_memory_tiers.md). -/
def MEMC_CASK_SEALED_GBASE_HI : RegDef := ⟨0x16318304, 8, 0x20, 1, 0x0, 1, 0x0, .hi,
  [fc 11 0 .rwl true 0x0 (some (-4, 1))]⟩
/-- MEMC.GBASE_HI — offset 0x8004; MEMC.GLIM_HI — offset 0x800C; same replication (spec/10_memory_tiers.md). -/
def MEMC_QDRB_OPEN_GBASE_HI : RegDef := ⟨0x160F8004, 24, 0x20, 1, 0x0, 1, 0x0, .hi,
  [fc 11 0 .rwl false 0x0 (some (-4, 1))]⟩
/-- MEMC.GBASE_HI — offset 0x8004; MEMC.GLIM_HI — offset 0x800C; same replication (spec/10_memory_tiers.md). -/
def MEMC_QDRB_SEALED_GBASE_HI : RegDef := ⟨0x160F8304, 8, 0x20, 1, 0x0, 1, 0x0, .hi,
  [fc 11 0 .rwl true 0x0 (some (-4, 1))]⟩
/-- MEMC.GBASE_HI — offset 0x8004; MEMC.GLIM_HI — offset 0x800C; same replication (spec/10_memory_tiers.md). -/
def MEMC_DDRB_OPEN_GBASE_HI : RegDef := ⟨0x16208004, 24, 0x20, 1, 0x0, 1, 0x0, .hi,
  [fc 11 0 .rwl false 0x0 (some (-4, 1))]⟩
/-- MEMC.GBASE_HI — offset 0x8004; MEMC.GLIM_HI — offset 0x800C; same replication (spec/10_memory_tiers.md). -/
def MEMC_DDRB_SEALED_GBASE_HI : RegDef := ⟨0x16208304, 8, 0x20, 1, 0x0, 1, 0x0, .hi,
  [fc 11 0 .rwl true 0x0 (some (-4, 1))]⟩
/-- MEMC.GBASE_HI — offset 0x8004; MEMC.GLIM_HI — offset 0x800C; same replication (spec/10_memory_tiers.md). -/
def MEMC_QDR_OPEN_GLIM_HI : RegDef := ⟨0x1600800C, 6, 0x10000, 24, 0x20, 1, 0x0, .hi,
  [fc 11 0 .rwl false 0x0 (some (-12, 1))]⟩
/-- MEMC.GBASE_HI — offset 0x8004; MEMC.GLIM_HI — offset 0x800C; same replication (spec/10_memory_tiers.md). -/
def MEMC_QDR_SEALED_GLIM_HI : RegDef := ⟨0x1600830C, 6, 0x10000, 8, 0x20, 1, 0x0, .hi,
  [fc 11 0 .rwl true 0x0 (some (-12, 1))]⟩
/-- MEMC.GBASE_HI — offset 0x8004; MEMC.GLIM_HI — offset 0x800C; same replication (spec/10_memory_tiers.md). -/
def MEMC_DDR_OPEN_GLIM_HI : RegDef := ⟨0x1610800C, 16, 0x10000, 24, 0x20, 1, 0x0, .hi,
  [fc 11 0 .rwl false 0x0 (some (-12, 1))]⟩
/-- MEMC.GBASE_HI — offset 0x8004; MEMC.GLIM_HI — offset 0x800C; same replication (spec/10_memory_tiers.md). -/
def MEMC_DDR_SEALED_GLIM_HI : RegDef := ⟨0x1610830C, 16, 0x10000, 8, 0x20, 1, 0x0, .hi,
  [fc 11 0 .rwl true 0x0 (some (-12, 1))]⟩
/-- MEMC.GBASE_HI — offset 0x8004; MEMC.GLIM_HI — offset 0x800C; same replication (spec/10_memory_tiers.md). -/
def MEMC_TUN_OPEN_GLIM_HI : RegDef := ⟨0x1630800C, 24, 0x20, 1, 0x0, 1, 0x0, .hi,
  [fc 11 0 .rwl false 0x0 (some (-12, 1))]⟩
/-- MEMC.GBASE_HI — offset 0x8004; MEMC.GLIM_HI — offset 0x800C; same replication (spec/10_memory_tiers.md). -/
def MEMC_TUN_SEALED_GLIM_HI : RegDef := ⟨0x1630830C, 8, 0x20, 1, 0x0, 1, 0x0, .hi,
  [fc 11 0 .rwl true 0x0 (some (-12, 1))]⟩
/-- MEMC.GBASE_HI — offset 0x8004; MEMC.GLIM_HI — offset 0x800C; same replication (spec/10_memory_tiers.md). -/
def MEMC_CASK_OPEN_GLIM_HI : RegDef := ⟨0x1631800C, 24, 0x20, 1, 0x0, 1, 0x0, .hi,
  [fc 11 0 .rwl true 0x0 (some (-12, 1))]⟩
/-- MEMC.GBASE_HI — offset 0x8004; MEMC.GLIM_HI — offset 0x800C; same replication (spec/10_memory_tiers.md). -/
def MEMC_CASK_SEALED_GLIM_HI : RegDef := ⟨0x1631830C, 8, 0x20, 1, 0x0, 1, 0x0, .hi,
  [fc 11 0 .rwl true 0x0 (some (-12, 1))]⟩
/-- MEMC.GBASE_HI — offset 0x8004; MEMC.GLIM_HI — offset 0x800C; same replication (spec/10_memory_tiers.md). -/
def MEMC_QDRB_OPEN_GLIM_HI : RegDef := ⟨0x160F800C, 24, 0x20, 1, 0x0, 1, 0x0, .hi,
  [fc 11 0 .rwl false 0x0 (some (-12, 1))]⟩
/-- MEMC.GBASE_HI — offset 0x8004; MEMC.GLIM_HI — offset 0x800C; same replication (spec/10_memory_tiers.md). -/
def MEMC_QDRB_SEALED_GLIM_HI : RegDef := ⟨0x160F830C, 8, 0x20, 1, 0x0, 1, 0x0, .hi,
  [fc 11 0 .rwl true 0x0 (some (-12, 1))]⟩
/-- MEMC.GBASE_HI — offset 0x8004; MEMC.GLIM_HI — offset 0x800C; same replication (spec/10_memory_tiers.md). -/
def MEMC_DDRB_OPEN_GLIM_HI : RegDef := ⟨0x1620800C, 24, 0x20, 1, 0x0, 1, 0x0, .hi,
  [fc 11 0 .rwl false 0x0 (some (-12, 1))]⟩
/-- MEMC.GBASE_HI — offset 0x8004; MEMC.GLIM_HI — offset 0x800C; same replication (spec/10_memory_tiers.md). -/
def MEMC_DDRB_SEALED_GLIM_HI : RegDef := ⟨0x1620830C, 8, 0x20, 1, 0x0, 1, 0x0, .hi,
  [fc 11 0 .rwl true 0x0 (some (-12, 1))]⟩
/-- MEMC.GLIM_LO — offset 0x8008, same replication (spec/10_memory_tiers.md). -/
def MEMC_QDR_OPEN_GLIM_LO : RegDef := ⟨0x16008008, 6, 0x10000, 24, 0x20, 1, 0x0, .lo,
  [fc 31 12 .rwl false 0x0 (some (-8, 1))]⟩
/-- MEMC.GLIM_LO — offset 0x8008, same replication (spec/10_memory_tiers.md). -/
def MEMC_QDR_SEALED_GLIM_LO : RegDef := ⟨0x16008308, 6, 0x10000, 8, 0x20, 1, 0x0, .lo,
  [fc 31 12 .rwl true 0x0 (some (-8, 1))]⟩
/-- MEMC.GLIM_LO — offset 0x8008, same replication (spec/10_memory_tiers.md). -/
def MEMC_DDR_OPEN_GLIM_LO : RegDef := ⟨0x16108008, 16, 0x10000, 24, 0x20, 1, 0x0, .lo,
  [fc 31 12 .rwl false 0x0 (some (-8, 1))]⟩
/-- MEMC.GLIM_LO — offset 0x8008, same replication (spec/10_memory_tiers.md). -/
def MEMC_DDR_SEALED_GLIM_LO : RegDef := ⟨0x16108308, 16, 0x10000, 8, 0x20, 1, 0x0, .lo,
  [fc 31 12 .rwl true 0x0 (some (-8, 1))]⟩
/-- MEMC.GLIM_LO — offset 0x8008, same replication (spec/10_memory_tiers.md). -/
def MEMC_TUN_OPEN_GLIM_LO : RegDef := ⟨0x16308008, 24, 0x20, 1, 0x0, 1, 0x0, .lo,
  [fc 31 12 .rwl false 0x0 (some (-8, 1))]⟩
/-- MEMC.GLIM_LO — offset 0x8008, same replication (spec/10_memory_tiers.md). -/
def MEMC_TUN_SEALED_GLIM_LO : RegDef := ⟨0x16308308, 8, 0x20, 1, 0x0, 1, 0x0, .lo,
  [fc 31 12 .rwl true 0x0 (some (-8, 1))]⟩
/-- MEMC.GLIM_LO — offset 0x8008, same replication (spec/10_memory_tiers.md). -/
def MEMC_CASK_OPEN_GLIM_LO : RegDef := ⟨0x16318008, 24, 0x20, 1, 0x0, 1, 0x0, .lo,
  [fc 31 12 .rwl true 0x0 (some (-8, 1))]⟩
/-- MEMC.GLIM_LO — offset 0x8008, same replication (spec/10_memory_tiers.md). -/
def MEMC_CASK_SEALED_GLIM_LO : RegDef := ⟨0x16318308, 8, 0x20, 1, 0x0, 1, 0x0, .lo,
  [fc 31 12 .rwl true 0x0 (some (-8, 1))]⟩
/-- MEMC.GLIM_LO — offset 0x8008, same replication (spec/10_memory_tiers.md). -/
def MEMC_QDRB_OPEN_GLIM_LO : RegDef := ⟨0x160F8008, 24, 0x20, 1, 0x0, 1, 0x0, .lo,
  [fc 31 12 .rwl false 0x0 (some (-8, 1))]⟩
/-- MEMC.GLIM_LO — offset 0x8008, same replication (spec/10_memory_tiers.md). -/
def MEMC_QDRB_SEALED_GLIM_LO : RegDef := ⟨0x160F8308, 8, 0x20, 1, 0x0, 1, 0x0, .lo,
  [fc 31 12 .rwl true 0x0 (some (-8, 1))]⟩
/-- MEMC.GLIM_LO — offset 0x8008, same replication (spec/10_memory_tiers.md). -/
def MEMC_DDRB_OPEN_GLIM_LO : RegDef := ⟨0x16208008, 24, 0x20, 1, 0x0, 1, 0x0, .lo,
  [fc 31 12 .rwl false 0x0 (some (-8, 1))]⟩
/-- MEMC.GLIM_LO — offset 0x8008, same replication (spec/10_memory_tiers.md). -/
def MEMC_DDRB_SEALED_GLIM_LO : RegDef := ⟨0x16208308, 8, 0x20, 1, 0x0, 1, 0x0, .lo,
  [fc 31 12 .rwl true 0x0 (some (-8, 1))]⟩
/-- MEMC.GRD_LO — 0x8010; MEMC.GWR_LO — 0x8018; same replication (GRD_HI at 0x8014, GWR_HI at 0x801C) (spec/10_memory_tiers.md). -/
def MEMC_QDR_OPEN_GRD_LO : RegDef := ⟨0x16008010, 6, 0x10000, 24, 0x20, 1, 0x0, .lo,
  [fc 31 0 .rwl false 0x0 (some (-16, 1))]⟩
/-- MEMC.GRD_LO — 0x8010; MEMC.GWR_LO — 0x8018; same replication (GRD_HI at 0x8014, GWR_HI at 0x801C) (spec/10_memory_tiers.md). -/
def MEMC_DDR_OPEN_GRD_LO : RegDef := ⟨0x16108010, 16, 0x10000, 24, 0x20, 1, 0x0, .lo,
  [fc 31 0 .rwl false 0x0 (some (-16, 1))]⟩
/-- MEMC.GRD_LO — 0x8010; MEMC.GWR_LO — 0x8018; same replication (GRD_HI at 0x8014, GWR_HI at 0x801C) (spec/10_memory_tiers.md). -/
def MEMC_TUN_OPEN_GRD_LO : RegDef := ⟨0x16308010, 24, 0x20, 1, 0x0, 1, 0x0, .lo,
  [fc 31 0 .rwl false 0x0 (some (-16, 1))]⟩
/-- MEMC.GRD_LO — 0x8010; MEMC.GWR_LO — 0x8018; same replication (GRD_HI at 0x8014, GWR_HI at 0x801C) (spec/10_memory_tiers.md). -/
def MEMC_CASK_OPEN_GRD_LO : RegDef := ⟨0x16318010, 24, 0x20, 1, 0x0, 1, 0x0, .lo,
  [fc 31 0 .rwl true 0x0 (some (-16, 1))]⟩
/-- MEMC.GRD_LO — 0x8010; MEMC.GWR_LO — 0x8018; same replication (GRD_HI at 0x8014, GWR_HI at 0x801C) (spec/10_memory_tiers.md). -/
def MEMC_QDRB_OPEN_GRD_LO : RegDef := ⟨0x160F8010, 24, 0x20, 1, 0x0, 1, 0x0, .lo,
  [fc 31 0 .rwl false 0x0 (some (-16, 1))]⟩
/-- MEMC.GRD_LO — 0x8010; MEMC.GWR_LO — 0x8018; same replication (GRD_HI at 0x8014, GWR_HI at 0x801C) (spec/10_memory_tiers.md). -/
def MEMC_DDRB_OPEN_GRD_LO : RegDef := ⟨0x16208010, 24, 0x20, 1, 0x0, 1, 0x0, .lo,
  [fc 31 0 .rwl false 0x0 (some (-16, 1))]⟩
/-- MEMC.GRD_LO — 0x8010; MEMC.GWR_LO — 0x8018; same replication (GRD_HI at 0x8014, GWR_HI at 0x801C) (spec/10_memory_tiers.md). -/
def MEMC_QDR_OPEN_GWR_LO : RegDef := ⟨0x16008018, 6, 0x10000, 24, 0x20, 1, 0x0, .lo,
  [fc 31 0 .rwl false 0x0 (some (-24, 1))]⟩
/-- MEMC.GRD_LO — 0x8010; MEMC.GWR_LO — 0x8018; same replication (GRD_HI at 0x8014, GWR_HI at 0x801C) (spec/10_memory_tiers.md). -/
def MEMC_DDR_OPEN_GWR_LO : RegDef := ⟨0x16108018, 16, 0x10000, 24, 0x20, 1, 0x0, .lo,
  [fc 31 0 .rwl false 0x0 (some (-24, 1))]⟩
/-- MEMC.GRD_LO — 0x8010; MEMC.GWR_LO — 0x8018; same replication (GRD_HI at 0x8014, GWR_HI at 0x801C) (spec/10_memory_tiers.md). -/
def MEMC_TUN_OPEN_GWR_LO : RegDef := ⟨0x16308018, 24, 0x20, 1, 0x0, 1, 0x0, .lo,
  [fc 31 0 .rwl false 0x0 (some (-24, 1))]⟩
/-- MEMC.GRD_LO — 0x8010; MEMC.GWR_LO — 0x8018; same replication (GRD_HI at 0x8014, GWR_HI at 0x801C) (spec/10_memory_tiers.md). -/
def MEMC_CASK_OPEN_GWR_LO : RegDef := ⟨0x16318018, 24, 0x20, 1, 0x0, 1, 0x0, .lo,
  [fc 31 0 .rwl true 0x0 (some (-24, 1))]⟩
/-- MEMC.GRD_LO — 0x8010; MEMC.GWR_LO — 0x8018; same replication (GRD_HI at 0x8014, GWR_HI at 0x801C) (spec/10_memory_tiers.md). -/
def MEMC_QDRB_OPEN_GWR_LO : RegDef := ⟨0x160F8018, 24, 0x20, 1, 0x0, 1, 0x0, .lo,
  [fc 31 0 .rwl false 0x0 (some (-24, 1))]⟩
/-- MEMC.GRD_LO — 0x8010; MEMC.GWR_LO — 0x8018; same replication (GRD_HI at 0x8014, GWR_HI at 0x801C) (spec/10_memory_tiers.md). -/
def MEMC_DDRB_OPEN_GWR_LO : RegDef := ⟨0x16208018, 24, 0x20, 1, 0x0, 1, 0x0, .lo,
  [fc 31 0 .rwl false 0x0 (some (-24, 1))]⟩
/-- MEMC.GRD_HI — 0x8014; MEMC.GWR_HI — 0x801C; same replication (spec/10_memory_tiers.md). -/
def MEMC_QDR_OPEN_GRD_HI : RegDef := ⟨0x16008014, 6, 0x10000, 24, 0x20, 1, 0x0, .hi,
  [fc 30 0 .rwl false 0x0 (some (-20, 1))]⟩
/-- MEMC.GRD_HI — 0x8014; MEMC.GWR_HI — 0x801C; same replication (spec/10_memory_tiers.md). -/
def MEMC_DDR_OPEN_GRD_HI : RegDef := ⟨0x16108014, 16, 0x10000, 24, 0x20, 1, 0x0, .hi,
  [fc 30 0 .rwl false 0x0 (some (-20, 1))]⟩
/-- MEMC.GRD_HI — 0x8014; MEMC.GWR_HI — 0x801C; same replication (spec/10_memory_tiers.md). -/
def MEMC_TUN_OPEN_GRD_HI : RegDef := ⟨0x16308014, 24, 0x20, 1, 0x0, 1, 0x0, .hi,
  [fc 30 0 .rwl false 0x0 (some (-20, 1))]⟩
/-- MEMC.GRD_HI — 0x8014; MEMC.GWR_HI — 0x801C; same replication (spec/10_memory_tiers.md). -/
def MEMC_CASK_OPEN_GRD_HI : RegDef := ⟨0x16318014, 24, 0x20, 1, 0x0, 1, 0x0, .hi,
  [fc 30 0 .rwl true 0x0 (some (-20, 1))]⟩
/-- MEMC.GRD_HI — 0x8014; MEMC.GWR_HI — 0x801C; same replication (spec/10_memory_tiers.md). -/
def MEMC_QDRB_OPEN_GRD_HI : RegDef := ⟨0x160F8014, 24, 0x20, 1, 0x0, 1, 0x0, .hi,
  [fc 30 0 .rwl false 0x0 (some (-20, 1))]⟩
/-- MEMC.GRD_HI — 0x8014; MEMC.GWR_HI — 0x801C; same replication (spec/10_memory_tiers.md). -/
def MEMC_DDRB_OPEN_GRD_HI : RegDef := ⟨0x16208014, 24, 0x20, 1, 0x0, 1, 0x0, .hi,
  [fc 30 0 .rwl false 0x0 (some (-20, 1))]⟩
/-- MEMC.GRD_HI — 0x8014; MEMC.GWR_HI — 0x801C; same replication (spec/10_memory_tiers.md). -/
def MEMC_QDR_OPEN_GWR_HI : RegDef := ⟨0x1600801C, 6, 0x10000, 24, 0x20, 1, 0x0, .hi,
  [fc 30 0 .rwl false 0x0 (some (-28, 1))]⟩
/-- MEMC.GRD_HI — 0x8014; MEMC.GWR_HI — 0x801C; same replication (spec/10_memory_tiers.md). -/
def MEMC_DDR_OPEN_GWR_HI : RegDef := ⟨0x1610801C, 16, 0x10000, 24, 0x20, 1, 0x0, .hi,
  [fc 30 0 .rwl false 0x0 (some (-28, 1))]⟩
/-- MEMC.GRD_HI — 0x8014; MEMC.GWR_HI — 0x801C; same replication (spec/10_memory_tiers.md). -/
def MEMC_TUN_OPEN_GWR_HI : RegDef := ⟨0x1630801C, 24, 0x20, 1, 0x0, 1, 0x0, .hi,
  [fc 30 0 .rwl false 0x0 (some (-28, 1))]⟩
/-- MEMC.GRD_HI — 0x8014; MEMC.GWR_HI — 0x801C; same replication (spec/10_memory_tiers.md). -/
def MEMC_CASK_OPEN_GWR_HI : RegDef := ⟨0x1631801C, 24, 0x20, 1, 0x0, 1, 0x0, .hi,
  [fc 30 0 .rwl true 0x0 (some (-28, 1))]⟩
/-- MEMC.GRD_HI — 0x8014; MEMC.GWR_HI — 0x801C; same replication (spec/10_memory_tiers.md). -/
def MEMC_QDRB_OPEN_GWR_HI : RegDef := ⟨0x160F801C, 24, 0x20, 1, 0x0, 1, 0x0, .hi,
  [fc 30 0 .rwl false 0x0 (some (-28, 1))]⟩
/-- MEMC.GRD_HI — 0x8014; MEMC.GWR_HI — 0x801C; same replication (spec/10_memory_tiers.md). -/
def MEMC_DDRB_OPEN_GWR_HI : RegDef := ⟨0x1620801C, 24, 0x20, 1, 0x0, 1, 0x0, .hi,
  [fc 30 0 .rwl false 0x0 (some (-28, 1))]⟩
/-- MEMC.BANKSTAT — offset 0x0100 in TUN (32 instances) and CASK (4 instances), stride 0x4 (spec/10_memory_tiers.md). -/
def MEMC_TUN_BANKSTAT : RegDef := ⟨0x16300100, 32, 0x4, 1, 0x0, 1, 0x0, .single,
  [fd 31 31 .ro false 0x0, fd 15 12 .ro false 0x8, fd 11 8 .ro false 0x0, fd 3 0 .ro false 0x0]⟩
/-- MEMC.BANKSTAT — offset 0x0100 in TUN (32 instances) and CASK (4 instances), stride 0x4 (spec/10_memory_tiers.md). -/
def MEMC_CASK_BANKSTAT : RegDef := ⟨0x16310100, 4, 0x4, 1, 0x0, 1, 0x0, .single,
  [fd 31 31 .ro true 0x0, fd 15 12 .ro true 0x8, fd 11 8 .ro true 0x0, fd 3 0 .ro true 0x0]⟩
/-- MEMC.WIPE — offset 0x0200 in CASK, one instance (spec/10_memory_tiers.md). -/
def MEMC_CASK_WIPE : RegDef := ⟨0x16310200, 1, 0x0, 1, 0x0, 1, 0x0, .single,
  [fd 31 31 .rwl true 0x0 (some (0, 31)), fd 16 16 .rwl true 0x0 (some (0, 31)), fd 8 8 .ro true 0x0, fd 7 4 .ro true 0x0, fd 1 1 .w1c true 0x0, fd 0 0 .w1s true 0x0]⟩
/-- CSS.CTL — offset 0x00_0000, one instance (spec/11_channel_subsystem.md). -/
def CSS_CTL : RegDef := ⟨0x11000000, 1, 0x0, 1, 0x0, 1, 0x0, .single,
  [fd 31 31 .rwl false 0x0 (some (0, 31)), fc 0 0 .rw false 0x0]⟩
/-- CSS.STAT — offset 0x00_0004, one instance (spec/11_channel_subsystem.md). -/
def CSS_STAT : RegDef := ⟨0x11000004, 1, 0x0, 1, 0x0, 1, 0x0, .single,
  [fd 29 16 .ro false 0x0, fd 1 1 .ro false 0x0, fd 0 0 .ro false 0x0]⟩
/-- CSS.SCBASE_LO — offset 0x00_0010; CSS.RCBASE_LO — offset 0x00_0018; one instance each (_HI at +4, R21 applies) (spec/11_channel_subsystem.md). -/
def CSS_SCBASE_LO : RegDef := ⟨0x11000010, 1, 0x0, 1, 0x0, 1, 0x0, .lo,
  [fc 31 18 .rwl false 0x0 (some (-16, 31))]⟩
/-- CSS.SCBASE_LO — offset 0x00_0010; CSS.RCBASE_LO — offset 0x00_0018; one instance each (_HI at +4, R21 applies) (spec/11_channel_subsystem.md). -/
def CSS_RCBASE_LO : RegDef := ⟨0x11000018, 1, 0x0, 1, 0x0, 1, 0x0, .lo,
  [fc 31 18 .rwl false 0x0 (some (-24, 31))]⟩
/-- CSS.SCBASE_HI — offset 0x00_0014; CSS.RCBASE_HI — offset 0x00_001C; one instance each (spec/11_channel_subsystem.md). -/
def CSS_SCBASE_HI : RegDef := ⟨0x11000014, 1, 0x0, 1, 0x0, 1, 0x0, .hi,
  [fc 11 0 .rwl false 0x0 (some (-20, 31))]⟩
/-- CSS.SCBASE_HI — offset 0x00_0014; CSS.RCBASE_HI — offset 0x00_001C; one instance each (spec/11_channel_subsystem.md). -/
def CSS_RCBASE_HI : RegDef := ⟨0x1100001C, 1, 0x0, 1, 0x0, 1, 0x0, .hi,
  [fc 11 0 .rwl false 0x0 (some (-28, 31))]⟩
/-- CSS.CMD — offset 0x00_0020, one instance (spec/11_channel_subsystem.md). -/
def CSS_CMD : RegDef := ⟨0x11000020, 1, 0x0, 1, 0x0, 1, 0x0, .single,
  [fd 31 31 .w1s false 0x0, fd 30 28 .ro false 0x0, fd 23 20 .rw false 0x0, fd 17 16 .rw false 0x0, fd 11 0 .rw false 0x0]⟩
/-- CSS.STALECNT — offset 0x00_0030, one instance (spec/11_channel_subsystem.md). -/
def CSS_STALECNT : RegDef := ⟨0x11000030, 1, 0x0, 1, 0x0, 1, 0x0, .single,
  [fd 31 0 .rwh false 0x0]⟩
/-- CSS.SQ_TAIL — offset 0x80_0000, 256 instances for ring pairs 0x400–0x4FF, stride 0x1000 (spec/11_channel_subsystem.md). -/
def CSS_SQ_TAIL : RegDef := ⟨0x11800000, 256, 0x1000, 1, 0x0, 1, 0x0, .single,
  [fd 15 0 .rw false 0x0]⟩
/-- CSS.CQ_HEAD — offset 0x80_0004, same replication (spec/11_channel_subsystem.md). -/
def CSS_CQ_HEAD : RegDef := ⟨0x11800004, 256, 0x1000, 1, 0x0, 1, 0x0, .single,
  [fd 15 0 .rw false 0x0]⟩
/-- CSS.SQ_HEAD — offset 0x80_0008; CSS.CQ_TAIL — offset 0x80_000C; same replication (spec/11_channel_subsystem.md). -/
def CSS_SQ_HEAD : RegDef := ⟨0x11800008, 256, 0x1000, 1, 0x0, 1, 0x0, .single,
  [fd 15 0 .ro false 0x0]⟩
/-- CSS.SQ_HEAD — offset 0x80_0008; CSS.CQ_TAIL — offset 0x80_000C; same replication (spec/11_channel_subsystem.md). -/
def CSS_CQ_TAIL : RegDef := ⟨0x1180000C, 256, 0x1000, 1, 0x0, 1, 0x0, .single,
  [fd 15 0 .ro false 0x0]⟩
/-- CSS.LBASE_LO — offset 0x01_0000, one instance (LBASE_HI at 0x01_0004, R21 applies) (spec/12_ledger.md). -/
def CSS_LBASE_LO : RegDef := ⟨0x11010000, 1, 0x0, 1, 0x0, 1, 0x0, .lo,
  [fc 31 19 .rwl false 0x0 (some (8, 31))]⟩
/-- CSS.LBASE_HI — offset 0x01_0004, one instance (spec/12_ledger.md). -/
def CSS_LBASE_HI : RegDef := ⟨0x11010004, 1, 0x0, 1, 0x0, 1, 0x0, .hi,
  [fc 11 0 .rwl false 0x0 (some (4, 31))]⟩
/-- CSS.LCTL — offset 0x01_0008, one instance (spec/12_ledger.md). -/
def CSS_LCTL : RegDef := ⟨0x11010008, 1, 0x0, 1, 0x0, 1, 0x0, .single,
  [fd 31 31 .rwl false 0x0 (some (0, 31)), fc 17 16 .rwl false 0x0 (some (0, 31)), fc 15 8 .rw false 0x0]⟩
/-- CSS.LSTAT — offset 0x01_000C, one instance (spec/12_ledger.md). -/
def CSS_LSTAT : RegDef := ⟨0x1101000C, 1, 0x0, 1, 0x0, 1, 0x0, .single,
  [fd 31 31 .ro false 0x0, fd 30 30 .ro false 0x0, fd 13 0 .ro false 0x0]⟩
/-- CSS.LALLOC_LO — 0x01_0010; CSS.LFREED_LO — 0x01_0018; one instance each (_HI at +4, R19 applies) (spec/12_ledger.md). -/
def CSS_LALLOC_LO : RegDef := ⟨0x11010010, 1, 0x0, 1, 0x0, 1, 0x0, .lo,
  [fd 31 0 .ro false 0x0]⟩
/-- CSS.LALLOC_LO — 0x01_0010; CSS.LFREED_LO — 0x01_0018; one instance each (_HI at +4, R19 applies) (spec/12_ledger.md). -/
def CSS_LALLOC_HI : RegDef := ⟨0x11010014, 1, 0x0, 1, 0x0, 1, 0x0, .hi,
  [fd 31 0 .ro false 0x0]⟩
/-- CSS.LALLOC_LO — 0x01_0010; CSS.LFREED_LO — 0x01_0018; one instance each (_HI at +4, R19 applies) (spec/12_ledger.md). -/
def CSS_LFREED_LO : RegDef := ⟨0x11010018, 1, 0x0, 1, 0x0, 1, 0x0, .lo,
  [fd 31 0 .ro false 0x0]⟩
/-- CSS.LALLOC_LO — 0x01_0010; CSS.LFREED_LO — 0x01_0018; one instance each (_HI at +4, R19 applies) (spec/12_ledger.md). -/
def CSS_LFREED_HI : RegDef := ⟨0x1101001C, 1, 0x0, 1, 0x0, 1, 0x0, .hi,
  [fd 31 0 .ro false 0x0]⟩
/-- CSS.LBAL — offset 0x01_0020, one instance (spec/12_ledger.md). -/
def CSS_LBAL : RegDef := ⟨0x11010020, 1, 0x0, 1, 0x0, 1, 0x0, .single,
  [fd 3 0 .w1c false 0x0]⟩
/-- CSS.LCNT — offset 0x01_0100, 6 instances (s = STATE code), stride 0x4 (spec/12_ledger.md). -/
def CSS_LCNT : RegDef := ⟨0x11010100, 6, 0x4, 1, 0x0, 1, 0x0, .single,
  [fd 13 0 .ro false 0x0]⟩
/-- CSS.RLOGBASE_LO — offset 0x01_0030, one instance (RLOGBASE_HI at 0x01_0034, R21 applies) (spec/12_ledger.md). -/
def CSS_RLOGBASE_LO : RegDef := ⟨0x11010030, 1, 0x0, 1, 0x0, 1, 0x0, .lo,
  [fc 31 18 .rw false 0x0]⟩
/-- CSS.RLOGBASE_HI — offset 0x01_0034, one instance (spec/12_ledger.md). -/
def CSS_RLOGBASE_HI : RegDef := ⟨0x11010034, 1, 0x0, 1, 0x0, 1, 0x0, .hi,
  [fc 11 0 .rw false 0x0]⟩
/-- CSS.RLOGCFG — offset 0x01_0038, one instance (spec/12_ledger.md). -/
def CSS_RLOGCFG : RegDef := ⟨0x11010038, 1, 0x0, 1, 0x0, 1, 0x0, .single,
  [fc 25 16 .rw false 0x0, fc 15 15 .rw false 0x0, fc 3 0 .rw false 0x0]⟩
/-- CSS.RLOG_TAIL — offset 0x01_003C; CSS.RLOG_HEAD — offset 0x01_0040; one instance each (spec/12_ledger.md). -/
def CSS_RLOG_TAIL : RegDef := ⟨0x1101003C, 1, 0x0, 1, 0x0, 1, 0x0, .single,
  [fd 15 0 .ro false 0x0]⟩
/-- CSS.RLOG_TAIL — offset 0x01_003C; CSS.RLOG_HEAD — offset 0x01_0040; one instance each (spec/12_ledger.md). -/
def CSS_RLOG_HEAD : RegDef := ⟨0x11010040, 1, 0x0, 1, 0x0, 1, 0x0, .single,
  [fd 15 0 .rw false 0x0]⟩
/-- CSS.LSCAN_END — offset 0x01_0044; CSS.LSCAN_LOST — offset 0x01_0048; one instance each (spec/12_ledger.md). -/
def CSS_LSCAN_END : RegDef := ⟨0x11010044, 1, 0x0, 1, 0x0, 1, 0x0, .single,
  [fd 29 16 .ro false 0x0, fd 13 0 .ro false 0x0]⟩
/-- CSS.LSCAN_END — offset 0x01_0044; CSS.LSCAN_LOST — offset 0x01_0048; one instance each (spec/12_ledger.md). -/
def CSS_LSCAN_LOST : RegDef := ⟨0x11010048, 1, 0x0, 1, 0x0, 1, 0x0, .single,
  [fd 29 16 .ro false 0x0, fd 13 0 .ro false 0x0]⟩
/-- ADPTn.PATHCTL — offset 0x0000, 96 instances (ADPT stride 0x1_0000) (spec/11_channel_subsystem.md). -/
def ADPT_PATHCTL : RegDef := ⟨0x12000000, 96, 0x10000, 1, 0x0, 1, 0x0, .single,
  [fd 8 8 .w1s false 0x0, fc 0 0 .rw false 0x0]⟩
/-- ADPTn.PATHSTAT — offset 0x0004, same replication (spec/11_channel_subsystem.md). -/
def ADPT_PATHSTAT : RegDef := ⟨0x12000004, 96, 0x10000, 1, 0x0, 1, 0x0, .single,
  [fd 31 16 .ro false 0x0, fd 15 8 .ro false 0x0, fd 1 0 .ro false 0x0]⟩
/-- ADPTn.PAUTH_LO — offset 0x0008, same replication (PAUTH_HI at 0x000C, R21 applies) (spec/11_channel_subsystem.md). -/
def ADPT_PAUTH_LO : RegDef := ⟨0x12000008, 96, 0x10000, 1, 0x0, 1, 0x0, .lo,
  [fc 31 0 .rw false 0x0]⟩
/-- ADPTn.PAUTH_HI — offset 0x000C, same replication (spec/11_channel_subsystem.md). -/
def ADPT_PAUTH_HI : RegDef := ⟨0x1200000C, 96, 0x10000, 1, 0x0, 1, 0x0, .hi,
  [fc 31 31 .rw true 0x0, fc 30 0 .rw false 0x0]⟩
/-- ADPTn.ACTL — offset 0x0100, 76 instances (paths 0x00–0x4B) (spec/13_vehicle_adapters.md). -/
def ADPT_ACTL : RegDef := ⟨0x12000100, 76, 0x10000, 1, 0x0, 1, 0x0, .single,
  [fd 31 31 .rwl false 0x0 (some (0, 31)), fc 25 16 .rw false 0x0, fc 15 8 .rw false 0x0, fc 4 4 .rw false 0x0, fc 1 1 .rwl false 0x0 (some (0, 31)), fd 0 0 .w1s false 0x0]⟩
/-- ADPTn.AEVT — offset 0x0104, same replication (spec/13_vehicle_adapters.md). -/
def ADPT_AEVT : RegDef := ⟨0x12000104, 76, 0x10000, 1, 0x0, 1, 0x0, .single,
  [fd 5 5 .w1c false 0x0, fd 4 4 .w1c false 0x0, fd 3 3 .w1c false 0x0, fd 2 2 .w1c false 0x0, fd 0 0 .w1c false 0x0]⟩
/-- ADPTn.RXDROP — 0x0108; RXUNCL — 0x010C; RXBAD — 0x0110; RXPOL — 0x0114; INJCNT — 0x011C; same replication (spec/13_vehicle_adapters.md). -/
def ADPT_RXDROP : RegDef := ⟨0x12000108, 76, 0x10000, 1, 0x0, 1, 0x0, .single,
  [fd 31 0 .rwh false 0x0]⟩
/-- ADPTn.RXDROP — 0x0108; RXUNCL — 0x010C; RXBAD — 0x0110; RXPOL — 0x0114; INJCNT — 0x011C; same replication (spec/13_vehicle_adapters.md). -/
def ADPT_RXUNCL : RegDef := ⟨0x1200010C, 76, 0x10000, 1, 0x0, 1, 0x0, .single,
  [fd 31 0 .rwh false 0x0]⟩
/-- ADPTn.RXDROP — 0x0108; RXUNCL — 0x010C; RXBAD — 0x0110; RXPOL — 0x0114; INJCNT — 0x011C; same replication (spec/13_vehicle_adapters.md). -/
def ADPT_RXBAD : RegDef := ⟨0x12000110, 76, 0x10000, 1, 0x0, 1, 0x0, .single,
  [fd 31 0 .rwh false 0x0]⟩
/-- ADPTn.RXDROP — 0x0108; RXUNCL — 0x010C; RXBAD — 0x0110; RXPOL — 0x0114; INJCNT — 0x011C; same replication (spec/13_vehicle_adapters.md). -/
def ADPT_RXPOL : RegDef := ⟨0x12000114, 76, 0x10000, 1, 0x0, 1, 0x0, .single,
  [fd 31 0 .rwh false 0x0]⟩
/-- ADPTn.RXDROP — 0x0108; RXUNCL — 0x010C; RXBAD — 0x0110; RXPOL — 0x0114; INJCNT — 0x011C; same replication (spec/13_vehicle_adapters.md). -/
def ADPT_INJCNT : RegDef := ⟨0x1200011C, 76, 0x10000, 1, 0x0, 1, 0x0, .single,
  [fd 31 0 .rwh false 0x0]⟩
/-- ADPTn.FINJ — offset 0x0118, same replication (spec/13_vehicle_adapters.md). -/
def ADPT_FINJ : RegDef := ⟨0x12000118, 76, 0x10000, 1, 0x0, 1, 0x0, .single,
  [fd 31 31 .rw false 0x0, fd 30 30 .rw false 0x0, fd 23 16 .rwh false 0x0, fd 15 0 .rw false 0x0]⟩
/-- ADPTn.CANNBT — 0x0200; ADPTn.CANDBT — 0x0204; paths 0x00–0x17 (spec/13_vehicle_adapters.md). -/
def ADPT_CANNBT : RegDef := ⟨0x12000200, 24, 0x10000, 1, 0x0, 1, 0x0, .single,
  [fc 30 24 .rw false 0x0, fc 22 16 .rw false 0x0, fc 15 8 .rw false 0x0, fc 7 0 .rw false 0x0]⟩
/-- ADPTn.CANNBT — 0x0200; ADPTn.CANDBT — 0x0204; paths 0x00–0x17 (spec/13_vehicle_adapters.md). -/
def ADPT_CANDBT : RegDef := ⟨0x12000204, 24, 0x10000, 1, 0x0, 1, 0x0, .single,
  [fc 30 24 .rw false 0x0, fc 22 16 .rw false 0x0, fc 15 8 .rw false 0x0, fc 7 0 .rw false 0x0]⟩
/-- ADPTn.CANCFG — offset 0x0208, paths 0x00–0x17 (spec/13_vehicle_adapters.md). -/
def ADPT_CANCFG : RegDef := ⟨0x12000208, 24, 0x10000, 1, 0x0, 1, 0x0, .single,
  [fc 31 26 .rw false 0x0, fc 25 20 .rw false 0x0, fc 19 14 .rw false 0x0, fc 13 8 .rw false 0x0, fc 2 2 .rw false 0x0, fc 1 1 .rw false 0x0, fc 0 0 .rw false 0x0]⟩
/-- ADPTn.CANSTAT — offset 0x020C, paths 0x00–0x17 (spec/13_vehicle_adapters.md). -/
def ADPT_CANSTAT : RegDef := ⟨0x1200020C, 24, 0x10000, 1, 0x0, 1, 0x0, .single,
  [fd 23 16 .ro false 0x0, fd 15 8 .ro false 0x0, fd 6 4 .ro false 0x0, fd 1 0 .ro false 0x0]⟩
/-- ADPTn.ETHMAC_LO — offset 0x0200, paths 0x18–0x3B (ETHMAC_HI at 0x0204, R21 applies) (spec/13_vehicle_adapters.md). -/
def ADPT_ETHMAC_LO : RegDef := ⟨0x12180200, 36, 0x10000, 1, 0x0, 1, 0x0, .lo,
  [fc 31 0 .rw false 0x0]⟩
/-- ADPTn.ETHMAC_HI — offset 0x0204, same replication (spec/13_vehicle_adapters.md). -/
def ADPT_ETHMAC_HI : RegDef := ⟨0x12180204, 36, 0x10000, 1, 0x0, 1, 0x0, .hi,
  [fc 15 0 .rw false 0x0]⟩
/-- ADPTn.PLCACFG — offset 0x0210, paths 0x18–0x27 (spec/13_vehicle_adapters.md). -/
def ADPT_PLCACFG : RegDef := ⟨0x12180210, 16, 0x10000, 1, 0x0, 1, 0x0, .single,
  [fc 31 31 .rw false 0x0, fc 27 24 .rw false 0x0, fc 23 16 .rw false 0x0, fc 15 8 .rw false 0x0, fc 7 0 .rw false 0x0]⟩
/-- ADPTn.QBVCTL — offset 0x0220, paths 0x28–0x3B (spec/13_vehicle_adapters.md). -/
def ADPT_QBVCTL : RegDef := ⟨0x12280220, 20, 0x10000, 1, 0x0, 1, 0x0, .single,
  [fc 31 31 .rw false 0x0, fd 30 30 .ro false 0x0, fc 29 29 .rw false 0x0, fd 28 28 .ro false 0x0, fc 24 16 .rw false 0x0, fc 8 0 .rw false 0x0]⟩
/-- ADPTn.QBVCYCLE — 0x0224; ADPTn.QBVOFS — 0x0228; paths 0x28–0x3B (spec/13_vehicle_adapters.md). -/
def ADPT_QBVCYCLE : RegDef := ⟨0x12280224, 20, 0x10000, 1, 0x0, 1, 0x0, .single,
  [fc 29 0 .rw false 0x0]⟩
/-- ADPTn.QBVCYCLE — 0x0224; ADPTn.QBVOFS — 0x0228; paths 0x28–0x3B (spec/13_vehicle_adapters.md). -/
def ADPT_QBVOFS : RegDef := ⟨0x12280228, 20, 0x10000, 1, 0x0, 1, 0x0, .single,
  [fc 29 0 .rw false 0x0]⟩
/-- ADPTn.GCL — offset 0x2000, paths 0x28–0x3B; 2 banks × 256 entries; bank stride 0x400, entry stride 0x4 (spec/13_vehicle_adapters.md). -/
def ADPT_GCL : RegDef := ⟨0x12282000, 20, 0x10000, 2, 0x400, 256, 0x4, .single,
  [fc 31 8 .rw false 0x0, fc 7 0 .rw false 0x0]⟩
/-- ADPTn.TPL_DA_LO — offset 0x1000, paths 0x18–0x3B; 64 instances, stride 0x10 (TPL_DA_HI at 0x1004, R21 applies) (spec/13_vehicle_adapters.md). -/
def ADPT_TPL_DA_LO : RegDef := ⟨0x12181000, 36, 0x10000, 64, 0x10, 1, 0x0, .lo,
  [fc 31 0 .rw false 0x0]⟩
/-- ADPTn.TPL_DA_HI — offset 0x1004, same replication (spec/13_vehicle_adapters.md). -/
def ADPT_TPL_DA_HI : RegDef := ⟨0x12181004, 36, 0x10000, 64, 0x10, 1, 0x0, .hi,
  [fc 31 31 .rw false 0x0, fc 30 28 .rw false 0x0, fc 27 16 .rw false 0x0, fc 15 0 .rw false 0x0]⟩
/-- ADPTn.TPL_CTL — offset 0x1008, same replication (spec/13_vehicle_adapters.md). -/
def ADPT_TPL_CTL : RegDef := ⟨0x12181008, 36, 0x10000, 64, 0x10, 1, 0x0, .single,
  [fc 27 24 .rw false 0x0, fc 18 18 .rw false 0x0, fc 17 17 .rw false 0x0, fc 16 16 .rw false 0x0, fc 15 0 .rw false 0x0]⟩
/-- ADPTn.TPL_POL — offset 0x100C, same replication (spec/13_vehicle_adapters.md). -/
def ADPT_TPL_POL : RegDef := ⟨0x1218100C, 36, 0x10000, 64, 0x10, 1, 0x0, .single,
  [fc 31 16 .rw false 0x0, fc 15 8 .rw false 0x0, fc 7 0 .rw false 0x0]⟩
/-- ADPTn.SDCFG — offset 0x0200, paths 0x3C–0x4B (spec/13_vehicle_adapters.md). -/
def ADPT_SDCFG : RegDef := ⟨0x123C0200, 16, 0x10000, 1, 0x0, 1, 0x0, .single,
  [fc 31 24 .rw false 0x0, fc 23 20 .rw false 0x0, fc 18 16 .rw false 0x0, fc 7 0 .rw false 0x0]⟩
/-- MASH.JADDR_LO — offset 0x0000, 8 instances, stride 0x20; KILN.JADDR_LO at the same offsets (JADDR_HI at +4, R21 applies) (spec/14_mash_kiln.md). -/
def MASH_JADDR_LO : RegDef := ⟨0x13000000, 8, 0x20, 1, 0x0, 1, 0x0, .lo,
  [fd 31 5 .rw false 0x0]⟩
/-- MASH.JADDR_HI, KILN.JADDR_HI — offset 0x0004, same replication (spec/14_mash_kiln.md). -/
def MASH_JADDR_HI : RegDef := ⟨0x13000004, 8, 0x20, 1, 0x0, 1, 0x0, .hi,
  [fd 11 0 .rw false 0x0]⟩
/-- MASH.JCTL, KILN.JCTL — offset 0x0008, same replication (spec/14_mash_kiln.md). -/
def MASH_JCTL : RegDef := ⟨0x13000008, 8, 0x20, 1, 0x0, 1, 0x0, .single,
  [fd 31 31 .w1s false 0x0, fd 25 16 .rw false 0x0, fd 0 0 .rw false 0x0]⟩
/-- MASH.JSTAT, KILN.JSTAT — offset 0x000C, same replication (spec/14_mash_kiln.md). -/
def MASH_JSTAT : RegDef := ⟨0x1300000C, 8, 0x20, 1, 0x0, 1, 0x0, .single,
  [fd 31 24 .ro false 0x0, fd 23 10 .ro false 0x0, fd 1 1 .w1c false 0x0, fd 0 0 .ro false 0x0]⟩
/-- MASH.JOUT, KILN.JOUT — offset 0x0010, same replication (spec/14_mash_kiln.md). -/
def MASH_JOUT : RegDef := ⟨0x13000010, 8, 0x20, 1, 0x0, 1, 0x0, .single,
  [fd 24 0 .ro false 0x0]⟩
/-- MASH.JADDR_LO — offset 0x0000, 8 instances, stride 0x20; KILN.JADDR_LO at the same offsets (JADDR_HI at +4, R21 applies) (spec/14_mash_kiln.md). -/
def KILN_JADDR_LO : RegDef := ⟨0x13100000, 8, 0x20, 1, 0x0, 1, 0x0, .lo,
  [fd 31 5 .rw false 0x0]⟩
/-- MASH.JADDR_HI, KILN.JADDR_HI — offset 0x0004, same replication (spec/14_mash_kiln.md). -/
def KILN_JADDR_HI : RegDef := ⟨0x13100004, 8, 0x20, 1, 0x0, 1, 0x0, .hi,
  [fd 11 0 .rw false 0x0]⟩
/-- MASH.JCTL, KILN.JCTL — offset 0x0008, same replication (spec/14_mash_kiln.md). -/
def KILN_JCTL : RegDef := ⟨0x13100008, 8, 0x20, 1, 0x0, 1, 0x0, .single,
  [fd 31 31 .w1s false 0x0, fd 25 16 .rw false 0x0, fd 0 0 .rw false 0x0]⟩
/-- MASH.JSTAT, KILN.JSTAT — offset 0x000C, same replication (spec/14_mash_kiln.md). -/
def KILN_JSTAT : RegDef := ⟨0x1310000C, 8, 0x20, 1, 0x0, 1, 0x0, .single,
  [fd 31 24 .ro false 0x0, fd 23 10 .ro false 0x0, fd 1 1 .w1c false 0x0, fd 0 0 .ro false 0x0]⟩
/-- MASH.JOUT, KILN.JOUT — offset 0x0010, same replication (spec/14_mash_kiln.md). -/
def KILN_JOUT : RegDef := ⟨0x13100010, 8, 0x20, 1, 0x0, 1, 0x0, .single,
  [fd 24 0 .ro false 0x0]⟩
/-- KILN.KS_CFG — offset 0x1000, 64 instances, stride 0x20 (spec/14_mash_kiln.md). -/
def KILN_KS_CFG : RegDef := ⟨0x13101000, 64, 0x20, 1, 0x0, 1, 0x0, .single,
  [fd 14 8 .rw true 0x0, fd 4 4 .rw true 0x0, fd 3 1 .rw true 0x0, fd 0 0 .rwh true 0x0]⟩
/-- KILN.KS_PID_LO — offset 0x1004; KILN.KS_PID_HI — offset 0x1008; same replication (R21 applies) (spec/14_mash_kiln.md). -/
def KILN_KS_PID_LO : RegDef := ⟨0x13101004, 64, 0x20, 1, 0x0, 1, 0x0, .lo,
  [fd 31 0 .rw true 0x0]⟩
/-- KILN.KS_PID_LO — offset 0x1004; KILN.KS_PID_HI — offset 0x1008; same replication (R21 applies) (spec/14_mash_kiln.md). -/
def KILN_KS_PID_HI : RegDef := ⟨0x13101008, 64, 0x20, 1, 0x0, 1, 0x0, .hi,
  [fd 30 0 .rw true 0x0]⟩
/-- KILN.KS_IVF — offset 0x100C, same replication (spec/14_mash_kiln.md). -/
def KILN_KS_IVF : RegDef := ⟨0x1310100C, 64, 0x20, 1, 0x0, 1, 0x0, .single,
  [fd 31 0 .rw true 0x0]⟩
/-- KILN.KS_CTR_LO — offset 0x1010; KILN.KS_CTR_HI — offset 0x1014; same replication (R19 applies) (spec/14_mash_kiln.md). -/
def KILN_KS_CTR_LO : RegDef := ⟨0x13101010, 64, 0x20, 1, 0x0, 1, 0x0, .lo,
  [fd 31 0 .ro true 0x0]⟩
/-- KILN.KS_CTR_LO — offset 0x1010; KILN.KS_CTR_HI — offset 0x1014; same replication (R19 applies) (spec/14_mash_kiln.md). -/
def KILN_KS_CTR_HI : RegDef := ⟨0x13101014, 64, 0x20, 1, 0x0, 1, 0x0, .hi,
  [fd 31 0 .ro true 0x0]⟩
/-- KILN.LDR_CTL — offset 0x2000, one instance (spec/14_mash_kiln.md). -/
def KILN_LDR_CTL : RegDef := ⟨0x13102000, 1, 0x0, 1, 0x0, 1, 0x0, .single,
  [fd 31 31 .w1s true 0x0, fd 27 24 .rw true 0x0, fd 21 16 .rw true 0x0, fd 13 8 .rw true 0x0, fd 0 0 .rw true 0x0]⟩
/-- KILN.LDR_STAT — offset 0x2004, one instance (spec/14_mash_kiln.md). -/
def KILN_LDR_STAT : RegDef := ⟨0x13102004, 1, 0x0, 1, 0x0, 1, 0x0, .single,
  [fd 21 16 .ro true 0x0, fd 2 0 .ro true 0x0]⟩
/-- KILN.LDR_SRC — offset 0x2008, one instance (spec/14_mash_kiln.md). -/
def KILN_LDR_SRC : RegDef := ⟨0x13102008, 1, 0x0, 1, 0x0, 1, 0x0, .single,
  [fd 20 4 .rw true 0x0]⟩
/-- KILN.LDR_LABEL — offset 0x2020, 8 instances, stride 0x4 (spec/14_mash_kiln.md). -/
def KILN_LDR_LABEL : RegDef := ⟨0x13102020, 8, 0x4, 1, 0x0, 1, 0x0, .single,
  [fd 31 0 .rw true 0x0]⟩
/-- KILN.RNGDATA — offset 0x3000; KILN.RNGDATA_S — offset 0x3004; one instance each (spec/14_mash_kiln.md). -/
def KILN_RNGDATA : RegDef := ⟨0x13103000, 1, 0x0, 1, 0x0, 1, 0x0, .single,
  [fd 31 0 .ro false 0x0]⟩
/-- KILN.RNGDATA — offset 0x3000; KILN.RNGDATA_S — offset 0x3004; one instance each (spec/14_mash_kiln.md). -/
def KILN_RNGDATA_S : RegDef := ⟨0x13103004, 1, 0x0, 1, 0x0, 1, 0x0, .single,
  [fd 31 0 .ro true 0x0]⟩
/-- KILN.RNGSTAT — offset 0x3008; KILN.RNGCTL — offset 0x300C; one instance each (spec/14_mash_kiln.md). -/
def KILN_RNGSTAT : RegDef := ⟨0x13103008, 1, 0x0, 1, 0x0, 1, 0x0, .single,
  [fd 1 1 .ro false 0x0, fd 0 0 .ro false 0x0]⟩
/-- KILN.RNGSTAT — offset 0x3008; KILN.RNGCTL — offset 0x300C; one instance each (spec/14_mash_kiln.md). -/
def KILN_RNGCTL : RegDef := ⟨0x1310300C, 1, 0x0, 1, 0x0, 1, 0x0, .single,
  [fd 0 0 .w1s true 0x0]⟩
/-- KILN.SECY_CTL — offset 0x4000, 16 instances (instance 0 reserved), stride 0x20 (spec/14_mash_kiln.md). -/
def KILN_SECY_CTL : RegDef := ⟨0x13104000, 16, 0x20, 1, 0x0, 1, 0x0, .single,
  [fd 31 31 .rw true 0x0, fd 30 30 .rw true 0x0, fd 29 28 .rw true 0x0, fd 27 22 .rw true 0x0, fd 15 0 .rw true 0x0]⟩
/-- KILN.SECY_RX — offset 0x4004; KILN.SECY_TXPN — offset 0x4008; same replication (spec/14_mash_kiln.md). -/
def KILN_SECY_RX : RegDef := ⟨0x13104004, 16, 0x20, 1, 0x0, 1, 0x0, .single,
  [fd 29 24 .rw true 0x0, fd 21 16 .rw true 0x0, fd 13 8 .rw true 0x0, fd 5 0 .rw true 0x0]⟩
/-- KILN.SECY_RX — offset 0x4004; KILN.SECY_TXPN — offset 0x4008; same replication (spec/14_mash_kiln.md). -/
def KILN_SECY_TXPN : RegDef := ⟨0x13104008, 16, 0x20, 1, 0x0, 1, 0x0, .single,
  [fd 31 0 .rwh true 0x0]⟩
/-- RELAYn.PORTCTL — offset 0x0000, 6 instances (RELAY stride 0x1_0000) (spec/15_relay.md). -/
def RELAY_PORTCTL : RegDef := ⟨0x14000000, 6, 0x10000, 1, 0x0, 1, 0x0, .single,
  [fd 16 16 .w1s false 0x0, fc 14 8 .rw false 0x0, fc 0 0 .rw false 0x0]⟩
/-- RELAYn.PORTSTAT — offset 0x0004, same replication (spec/15_relay.md). -/
def RELAY_PORTSTAT : RegDef := ⟨0x14000004, 6, 0x10000, 1, 0x0, 1, 0x0, .single,
  [fd 31 28 .ro false 0x0, fd 23 21 .ro false 0x0, fd 20 16 .ro false 0x1f, fd 9 8 .ro false 0x0, fd 2 0 .ro false 0x0]⟩
/-- RELAYn.NBRINC — offset 0x0008, same replication (spec/15_relay.md). -/
def RELAY_NBRINC : RegDef := ⟨0x14000008, 6, 0x10000, 1, 0x0, 1, 0x0, .single,
  [fd 31 31 .ro false 0x0, fd 15 0 .ro false 0x0]⟩
/-- RELAYn.BATON — offset 0x0010, 4 instances per port (v = VL), stride 0x4 (spec/15_relay.md). -/
def RELAY_BATON : RegDef := ⟨0x14000010, 6, 0x10000, 4, 0x4, 1, 0x0, .single,
  [fd 15 8 .ro false 0x0, fd 7 0 .ro false 0x0]⟩
/-- RELAYn.REPLAYCNT — 0x0020; RETRAINCNT — 0x0024; DROPCNT — 0x0028; INJCNT — 0x0034; same replication (spec/15_relay.md). -/
def RELAY_REPLAYCNT : RegDef := ⟨0x14000020, 6, 0x10000, 1, 0x0, 1, 0x0, .single,
  [fd 31 0 .rwh false 0x0]⟩
/-- RELAYn.REPLAYCNT — 0x0020; RETRAINCNT — 0x0024; DROPCNT — 0x0028; INJCNT — 0x0034; same replication (spec/15_relay.md). -/
def RELAY_RETRAINCNT : RegDef := ⟨0x14000024, 6, 0x10000, 1, 0x0, 1, 0x0, .single,
  [fd 31 0 .rwh false 0x0]⟩
/-- RELAYn.REPLAYCNT — 0x0020; RETRAINCNT — 0x0024; DROPCNT — 0x0028; INJCNT — 0x0034; same replication (spec/15_relay.md). -/
def RELAY_DROPCNT : RegDef := ⟨0x14000028, 6, 0x10000, 1, 0x0, 1, 0x0, .single,
  [fd 31 0 .rwh false 0x0]⟩
/-- RELAYn.REPLAYCNT — 0x0020; RETRAINCNT — 0x0024; DROPCNT — 0x0028; INJCNT — 0x0034; same replication (spec/15_relay.md). -/
def RELAY_INJCNT : RegDef := ⟨0x14000034, 6, 0x10000, 1, 0x0, 1, 0x0, .single,
  [fd 31 0 .rwh false 0x0]⟩
/-- RELAYn.FINJ — offset 0x0030, same replication (spec/15_relay.md). -/
def RELAY_FINJ : RegDef := ⟨0x14000030, 6, 0x10000, 1, 0x0, 1, 0x0, .single,
  [fd 31 31 .rw false 0x0, fd 30 29 .rw false 0x0, fd 23 16 .rwh false 0x0, fd 15 0 .rw false 0x0]⟩
/-- RELAYn.IMAP_OFS — offset 0x1000; RELAYn.IMAP_LIM — offset 0x1004; 16 instances per port, stride 0x20 (spec/15_relay.md). -/
def RELAY_IMAP_OFS : RegDef := ⟨0x14001000, 6, 0x10000, 16, 0x20, 1, 0x0, .single,
  [fc 31 31 .rw false 0x0, fc 23 0 .rw false 0x0]⟩
/-- RELAYn.IMAP_OFS — offset 0x1000; RELAYn.IMAP_LIM — offset 0x1004; 16 instances per port, stride 0x20 (spec/15_relay.md). -/
def RELAY_IMAP_LIM : RegDef := ⟨0x14001004, 6, 0x10000, 16, 0x20, 1, 0x0, .single,
  [fc 23 0 .rw false 0x0]⟩
/-- RELAYn.IMAP_PA_LO — offset 0x1008, same replication (IMAP_PA_HI at 0x100C, R21 applies) (spec/15_relay.md). -/
def RELAY_IMAP_PA_LO : RegDef := ⟨0x14001008, 6, 0x10000, 16, 0x20, 1, 0x0, .lo,
  [fc 31 12 .rw false 0x0]⟩
/-- RELAYn.IMAP_PA_HI — offset 0x100C, same replication (spec/15_relay.md). -/
def RELAY_IMAP_PA_HI : RegDef := ⟨0x1400100C, 6, 0x10000, 16, 0x20, 1, 0x0, .hi,
  [fc 11 0 .rw false 0x0]⟩
/-- RELAYn.IMAP_ATTR — offset 0x1010, same replication (spec/15_relay.md). -/
def RELAY_IMAP_ATTR : RegDef := ⟨0x14001010, 6, 0x10000, 16, 0x20, 1, 0x0, .single,
  [fc 10 10 .rw false 0x0, fc 9 9 .rw false 0x0, fc 8 8 .rw true 0x0, fc 5 0 .rw false 0x0]⟩
/-- RELAYn.IMAP_SEND — offset 0x1014, same replication (spec/15_relay.md). -/
def RELAY_IMAP_SEND : RegDef := ⟨0x14001014, 6, 0x10000, 16, 0x20, 1, 0x0, .single,
  [fc 30 0 .rw false 0x0]⟩
/-- RELAY0.HID — offset 0x8000, one instance (spec/15_relay.md). -/
def RELAY_HID : RegDef := ⟨0x14008000, 1, 0x0, 1, 0x0, 1, 0x0, .single,
  [fd 31 16 .ro false 0x0, fd 9 8 .ro false 0x0, fd 5 5 .ro false 0x0, fd 4 0 .ro false 0x1f]⟩
/-- RELAY0.HPRESENT — offset 0x8004, one instance (spec/15_relay.md). -/
def RELAY_HPRESENT : RegDef := ⟨0x14008004, 1, 0x0, 1, 0x0, 1, 0x0, .single,
  [fd 30 0 .ro false 0x0]⟩
/-- RELAY0.HROUTE — offset 0x8100, 31 instances (d = 0–30), stride 0x4 (spec/15_relay.md). -/
def RELAY_HROUTE : RegDef := ⟨0x14008100, 31, 0x4, 1, 0x0, 1, 0x0, .single,
  [fc 5 0 .rwh false 0x0]⟩
/-- RELAY0.HTOPO — offset 0x8200, 31 instances (worker index i; instance 0 reserved), stride 0x4 (spec/15_relay.md). -/
def RELAY_HTOPO : RegDef := ⟨0x14008200, 31, 0x4, 1, 0x0, 1, 0x0, .single,
  [fc 31 31 .rw false 0x0, fc 14 12 .rw false 0x0, fc 10 8 .rw false 0x0, fc 4 0 .rw false 0x0]⟩
/-- RELAY0.PEERPATH — offset 0x8300, 20 instances (path 0x4C + k), stride 0x4 (spec/15_relay.md). -/
def RELAY_PEERPATH : RegDef := ⟨0x14008300, 20, 0x4, 1, 0x0, 1, 0x0, .single,
  [fc 31 31 .rw false 0x0, fc 23 16 .rw false 0x0, fc 10 8 .rw false 0x0, fc 4 0 .rw false 0x0]⟩
/-- RELAY0.TSTAT — offset 0x8400, one instance (spec/15_relay.md). -/
def RELAY_TSTAT : RegDef := ⟨0x14008400, 1, 0x0, 1, 0x0, 1, 0x0, .single,
  [fd 31 31 .ro false 0x0, fd 23 16 .rwh false 0x0, fd 15 0 .ro false 0x0]⟩
/-- RELAY0.IMGOFS — offset 0x8410; RELAY0.IMGLEN — offset 0x8414; one instance each (spec/15_relay.md). -/
def RELAY_IMGOFS : RegDef := ⟨0x14008410, 1, 0x0, 1, 0x0, 1, 0x0, .single,
  [fc 23 0 .rw false 0x0]⟩
/-- RELAY0.IMGOFS — offset 0x8410; RELAY0.IMGLEN — offset 0x8414; one instance each (spec/15_relay.md). -/
def RELAY_IMGLEN : RegDef := ⟨0x14008414, 1, 0x0, 1, 0x0, 1, 0x0, .single,
  [fc 23 0 .rw false 0x0]⟩
/-- HOSTEP.LINKSTAT — offset 0x00_0000, one instance (spec/16_host_endpoint.md). -/
def HOSTEP_LINKSTAT : RegDef := ⟨0x15000000, 1, 0x0, 1, 0x0, 1, 0x0, .single,
  [fd 20 16 .ro false 0x0, fd 11 8 .ro false 0x0, fd 1 1 .ro false 0x0, fd 0 0 .ro false 0x0]⟩
/-- HOSTEP.EVT — offset 0x00_0004, one instance (spec/16_host_endpoint.md). -/
def HOSTEP_EVT : RegDef := ⟨0x15000004, 1, 0x0, 1, 0x0, 1, 0x0, .single,
  [fd 4 4 .w1c false 0x0, fd 3 3 .w1c false 0x0, fd 2 2 .w1c false 0x0, fd 1 1 .w1c false 0x0, fd 0 0 .w1c false 0x0]⟩
/-- HOSTEP.EVTCTL — offset 0x00_0008, one instance (spec/16_host_endpoint.md). -/
def HOSTEP_EVTCTL : RegDef := ⟨0x15000008, 1, 0x0, 1, 0x0, 1, 0x0, .single,
  [fc 25 16 .rw false 0x0, fc 0 0 .rw false 0x0]⟩
/-- HOSTEP.SQUASHCNT — 0x00_0010; HOSTEP.CPLTOCNT — 0x00_0014; one instance each (spec/16_host_endpoint.md). -/
def HOSTEP_SQUASHCNT : RegDef := ⟨0x15000010, 1, 0x0, 1, 0x0, 1, 0x0, .single,
  [fd 31 0 .rwh false 0x0]⟩
/-- HOSTEP.SQUASHCNT — 0x00_0010; HOSTEP.CPLTOCNT — 0x00_0014; one instance each (spec/16_host_endpoint.md). -/
def HOSTEP_CPLTOCNT : RegDef := ⟨0x15000014, 1, 0x0, 1, 0x0, 1, 0x0, .single,
  [fd 31 0 .rwh false 0x0]⟩
/-- HOSTEP.MB_H2G — offset 0x00_0100; HOSTEP.MB_G2H — offset 0x00_0110; 4 instances each, stride 0x4 (spec/16_host_endpoint.md). -/
def HOSTEP_MB_H2G : RegDef := ⟨0x15000100, 4, 0x4, 1, 0x0, 1, 0x0, .single,
  [fd 31 0 .ro false 0x0]⟩
/-- HOSTEP.MB_H2G — offset 0x00_0100; HOSTEP.MB_G2H — offset 0x00_0110; 4 instances each, stride 0x4 (spec/16_host_endpoint.md). -/
def HOSTEP_MB_G2H : RegDef := ⟨0x15000110, 4, 0x4, 1, 0x0, 1, 0x0, .single,
  [fd 31 0 .rw false 0x0]⟩
/-- HOSTEP.MBSEND — offset 0x00_0120, one instance (spec/16_host_endpoint.md). -/
def HOSTEP_MBSEND : RegDef := ⟨0x15000120, 1, 0x0, 1, 0x0, 1, 0x0, .single,
  [fd 0 0 .w1s false 0x0]⟩
/-- HOSTEP.FBIND — offset 0x00_1000, 256 instances (f), stride 0x4 (spec/16_host_endpoint.md). -/
def HOSTEP_FBIND : RegDef := ⟨0x15001000, 256, 0x4, 1, 0x0, 1, 0x0, .single,
  [fc 31 31 .rwl false 0x0 (some (0, 30)), fd 30 30 .rwl false 0x0 (some (0, 30)), fc 5 0 .rwl false 0x0 (some (0, 30))]⟩
/-- HOSTEP.FSTATD — offset 0x00_2000, 256 instances (f), stride 0x4 (spec/16_host_endpoint.md). -/
def HOSTEP_FSTATD : RegDef := ⟨0x15002000, 256, 0x4, 1, 0x0, 1, 0x0, .single,
  [fd 6 6 .ro false 0x0, fd 5 5 .ro false 0x0, fd 4 4 .ro false 0x0, fd 3 3 .ro false 0x0, fd 2 2 .ro false 0x0, fd 1 1 .ro false 0x0, fd 0 0 .ro false 0x0]⟩
/-- HOSTEP.WIN_OFS — offset 0x00_4000; HOSTEP.WIN_LIM — offset 0x00_4004; 16 instances, stride 0x20 (spec/16_host_endpoint.md). -/
def HOSTEP_WIN_OFS : RegDef := ⟨0x15004000, 16, 0x20, 1, 0x0, 1, 0x0, .single,
  [fc 31 31 .rw false 0x0, fc 30 30 .rw false 0x0, fc 29 29 .rw false 0x0, fc 15 0 .rw false 0x0]⟩
/-- HOSTEP.WIN_OFS — offset 0x00_4000; HOSTEP.WIN_LIM — offset 0x00_4004; 16 instances, stride 0x20 (spec/16_host_endpoint.md). -/
def HOSTEP_WIN_LIM : RegDef := ⟨0x15004004, 16, 0x20, 1, 0x0, 1, 0x0, .single,
  [fc 15 0 .rw false 0x0]⟩
/-- HOSTEP.WIN_PA_LO — offset 0x00_4008, same replication (WIN_PA_HI at 0x00_400C, R21 applies) (spec/16_host_endpoint.md). -/
def HOSTEP_WIN_PA_LO : RegDef := ⟨0x15004008, 16, 0x20, 1, 0x0, 1, 0x0, .lo,
  [fc 31 12 .rw false 0x0]⟩
/-- HOSTEP.WIN_PA_HI — offset 0x00_400C, same replication (spec/16_host_endpoint.md). -/
def HOSTEP_WIN_PA_HI : RegDef := ⟨0x1500400C, 16, 0x20, 1, 0x0, 1, 0x0, .hi,
  [fc 11 0 .rw false 0x0]⟩
/-- HOSTEP.VWIN_LO — offset 0x01_0000, 256 instances (f; instance 0 reserved), stride 0x10 (VWIN_HI at 0x01_0004, R21 applies) (spec/16_host_endpoint.md). -/
def HOSTEP_VWIN_LO : RegDef := ⟨0x15010000, 256, 0x10, 1, 0x0, 1, 0x0, .lo,
  [fc 31 21 .rw false 0x0, fc 2 2 .rw false 0x0, fc 1 1 .rw false 0x0, fc 0 0 .rw false 0x0]⟩
/-- HOSTEP.VWIN_HI — offset 0x01_0004, same replication (spec/16_host_endpoint.md). -/
def HOSTEP_VWIN_HI : RegDef := ⟨0x15010004, 256, 0x10, 1, 0x0, 1, 0x0, .hi,
  [fc 11 0 .rw false 0x0]⟩
/-- INTD.CTL — offset 0x0000, one instance (spec/17_interrupts.md). -/
def INTD_CTL : RegDef := ⟨0x10300000, 1, 0x0, 1, 0x0, 1, 0x0, .single,
  [fd 31 31 .rwl false 0x0 (some (0, 31)), fc 0 0 .rwl false 0x0 (some (0, 31))]⟩
/-- INTD.CSIG — offset 0x0010, one instance (spec/17_interrupts.md). -/
def INTD_CSIG : RegDef := ⟨0x10300010, 1, 0x0, 1, 0x0, 1, 0x0, .single,
  [fd 21 16 .wo false 0x0, fd 3 0 .wo false 0x0]⟩
/-- INTD.SCFG — offset 0x1_0000, 1,024 instances, stride 0x4 (spec/17_interrupts.md). -/
def INTD_SCFG : RegDef := ⟨0x10310000, 1024, 0x4, 1, 0x0, 1, 0x0, .single,
  [fc 31 31 .rw true 0x0, fc 25 24 .rw false 0x0, fc 21 16 .rw false 0x0, fc 8 8 .rw false 0x0, fc 3 0 .rw false 0x0]⟩
/-- INTD.SSTAT — offset 0x2_0000, 1,024 instances, stride 0x4; INTD.PSTAT — offset 0x5_0000, 48 × 32 instances, core stride 0x80, source stride 0x4 (spec/17_interrupts.md). -/
def INTD_SSTAT : RegDef := ⟨0x10320000, 1024, 0x4, 1, 0x0, 1, 0x0, .single,
  [fd 8 8 .w1s false 0x0, fd 4 4 .ro false 0x0, fd 2 2 .w1c false 0x0, fd 1 1 .ro false 0x0, fd 0 0 .w1c false 0x0]⟩
/-- INTD.SSTAT — offset 0x2_0000, 1,024 instances, stride 0x4; INTD.PSTAT — offset 0x5_0000, 48 × 32 instances, core stride 0x80, source stride 0x4 (spec/17_interrupts.md). -/
def INTD_PSTAT : RegDef := ⟨0x10350000, 48, 0x80, 32, 0x4, 1, 0x0, .single,
  [fd 8 8 .w1s false 0x0, fd 2 2 .w1c false 0x0, fd 1 1 .ro false 0x0, fd 0 0 .w1c false 0x0]⟩
/-- INTD.PCFG — offset 0x4_0000, 48 × 32 instances, core stride 0x80, source stride 0x4 (spec/17_interrupts.md). -/
def INTD_PCFG : RegDef := ⟨0x10340000, 48, 0x80, 32, 0x4, 1, 0x0, .single,
  [fc 31 31 .rw true 0x0, fc 25 24 .rw false 0x0, fc 3 0 .rw false 0x0]⟩
/-- INTD.RPS — offset 0x6_0000, 48 × 16 instances, core stride 0x40, entry stride 0x4 (spec/17_interrupts.md). -/
def INTD_RPS : RegDef := ⟨0x10360000, 48, 0x40, 16, 0x4, 1, 0x0, .single,
  [fd 31 31 .ro false 0x0, fd 25 24 .ro false 0x0, fd 19 16 .ro false 0x0, fd 10 0 .ro false 0x7ff]⟩
/-- DEBUG.AUTH — offset 0x0000, one instance (spec/18_worlds_debug.md). -/
def DEBUG_AUTH : RegDef := ⟨0x18000000, 1, 0x0, 1, 0x0, 1, 0x0, .single,
  [fd 16 16 .rwl true 0x0 (some (0, 16)), fd 9 9 .rw true 0x0, fd 8 8 .rw true 0x0, fd 3 0 .ro false 0xf]⟩
/-- DEBUG.UNLOCK — offset 0x0010, one instance (spec/18_worlds_debug.md). -/
def DEBUG_UNLOCK : RegDef := ⟨0x18000010, 1, 0x0, 1, 0x0, 1, 0x0, .single,
  [fd 31 31 .w1s false 0x0, fd 30 30 .w1s false 0x0, fd 29 29 .ro false 0x0, fd 28 28 .w1s false 0x0, fd 27 24 .ro false 0x0, fd 19 16 .ro false 0x0, fd 0 0 .ro false 0x0]⟩
/-- DEBUG.NONCE — offset 0x0020, 8 instances, stride 0x4; DEBUG.TOKBUF — offset 0x1000, 1,536 instances, stride 0x4 (spec/18_worlds_debug.md). -/
def DEBUG_NONCE : RegDef := ⟨0x18000020, 8, 0x4, 1, 0x0, 1, 0x0, .single,
  [fd 31 0 .ro false 0x0]⟩
/-- DEBUG.NONCE — offset 0x0020, 8 instances, stride 0x4; DEBUG.TOKBUF — offset 0x1000, 1,536 instances, stride 0x4 (spec/18_worlds_debug.md). -/
def DEBUG_TOKBUF : RegDef := ⟨0x18001000, 1536, 0x4, 1, 0x0, 1, 0x0, .single,
  [fd 31 0 .wo false 0x0]⟩
/-- DEBUG.CORECTL — offset 0x1_0000, 48 instances, stride 0x100 (spec/18_worlds_debug.md). -/
def DEBUG_CORECTL : RegDef := ⟨0x18010000, 48, 0x100, 1, 0x0, 1, 0x0, .single,
  [fd 31 31 .ro false 0x0, fd 30 30 .ro false 0x0, fd 29 29 .w1c false 0x0, fd 28 23 .ro false 0x0, fd 17 16 .ro false 0x0, fd 2 2 .w1s false 0x0, fd 1 1 .w1s false 0x0, fd 0 0 .w1s false 0x0]⟩
/-- DEBUG.ITR — offset 0x1_0008; DEBUG.DTR_LO — offset 0x1_0010 (DTR_HI at 0x1_0014); same replication (spec/18_worlds_debug.md). -/
def DEBUG_ITR : RegDef := ⟨0x18010008, 48, 0x100, 1, 0x0, 1, 0x0, .single,
  [fd 31 0 .wo false 0x0]⟩
/-- DEBUG.ITR — offset 0x1_0008; DEBUG.DTR_LO — offset 0x1_0010 (DTR_HI at 0x1_0014); same replication (spec/18_worlds_debug.md). -/
def DEBUG_DTR_LO : RegDef := ⟨0x18010010, 48, 0x100, 1, 0x0, 1, 0x0, .lo,
  [fd 31 0 .rw false 0x0]⟩
/-- DEBUG.ITR — offset 0x1_0008; DEBUG.DTR_LO — offset 0x1_0010 (DTR_HI at 0x1_0014); same replication (spec/18_worlds_debug.md). -/
def DEBUG_DTR_HI : RegDef := ⟨0x18010014, 48, 0x100, 1, 0x0, 1, 0x0, .hi,
  [fd 31 0 .rw false 0x0]⟩
/-- DEBUG.DIAG — offset 0x2_0000, one instance (spec/24_fault_injection.md). -/
def DEBUG_DIAG : RegDef := ⟨0x18020000, 1, 0x0, 1, 0x0, 1, 0x0, .single,
  [fd 31 31 .rwl true 0x0 (some (0, 31)), fd 8 8 .ro false 0x0, fd 1 1 .rwl true 0x0 (some (0, 31)), fd 0 0 .rwl true 0x0 (some (0, 31))]⟩
/-- DEBUG.BINJ_CTL — offset 0x2_0100, 4 instances, stride 0x20 (spec/24_fault_injection.md). -/
def DEBUG_BINJ_CTL : RegDef := ⟨0x18020100, 4, 0x20, 1, 0x0, 1, 0x0, .single,
  [fd 31 31 .rwh false 0x0, fd 30 30 .w1c false 0x0, fd 29 24 .rw false 0x0, fd 23 16 .rw false 0x0, fd 15 10 .rw false 0x0, fd 9 8 .rw false 0x0, fd 7 0 .rwh false 0x0]⟩
/-- DEBUG.BINJ_ADDR_LO — offset 0x2_0104, same replication (BINJ_ADDR_HI at 0x2_0108, R21 applies) (spec/24_fault_injection.md). -/
def DEBUG_BINJ_ADDR_LO : RegDef := ⟨0x18020104, 4, 0x20, 1, 0x0, 1, 0x0, .lo,
  [fd 31 6 .rw false 0x0]⟩
/-- DEBUG.BINJ_ADDR_HI — offset 0x2_0108, same replication (spec/24_fault_injection.md). -/
def DEBUG_BINJ_ADDR_HI : RegDef := ⟨0x18020108, 4, 0x20, 1, 0x0, 1, 0x0, .hi,
  [fd 11 0 .rw false 0x0]⟩
/-- DEBUG.BINJ_STAT — offset 0x2_010C, same replication (spec/24_fault_injection.md). -/
def DEBUG_BINJ_STAT : RegDef := ⟨0x1802010C, 4, 0x20, 1, 0x0, 1, 0x0, .single,
  [fd 15 0 .rwh false 0x0]⟩
/-- BOOT.BSTAT — offset 0x0000, one instance (spec/19_boot_update.md). -/
def BOOT_BSTAT : RegDef := ⟨0x19000000, 1, 0x0, 1, 0x0, 1, 0x0, .single,
  [fd 31 31 .ro false 0x0, fd 30 28 .ro false 0x0, fd 27 27 .ro false 0x0, fd 26 26 .ro false 0x0, fd 25 25 .ro false 0x0, fd 21 16 .ro false 0x0, fd 15 0 .ro false 0x0]⟩
/-- BOOT.SRCRES — offset 0x0010, 5 instances (order position), stride 0x4 (spec/19_boot_update.md). -/
def BOOT_SRCRES : RegDef := ⟨0x19000010, 5, 0x4, 1, 0x0, 1, 0x0, .single,
  [fd 31 28 .ro false 0x0, fd 15 8 .ro false 0x0, fd 3 0 .ro false 0x0]⟩
/-- BOOT.SEQCFG — offset 0x0030, one instance (spec/19_boot_update.md). -/
def BOOT_SEQCFG : RegDef := ⟨0x19000030, 1, 0x0, 1, 0x0, 1, 0x0, .single,
  [fd 11 11 .ro false 0x0, fd 10 8 .ro false 0x0, fd 2 0 .ro false 0x0]⟩
/-- BOOT.RELEASE — offset 0x0100, 2 instances, stride 0x4 (spec/19_boot_update.md). -/
def BOOT_RELEASE : RegDef := ⟨0x19000100, 2, 0x4, 1, 0x0, 1, 0x0, .single,
  [fd 31 0 .w1s true 0x0]⟩
/-- BOOT.LCS — offset 0x0200, one instance (spec/19_boot_update.md). -/
def BOOT_LCS : RegDef := ⟨0x19000200, 1, 0x0, 1, 0x0, 1, 0x0, .single,
  [fd 31 31 .ro false 0x0, fd 2 0 .ro false 0x0]⟩
/-- BOOT.LCADV — offset 0x0204, one instance (spec/19_boot_update.md). -/
def BOOT_LCADV : RegDef := ⟨0x19000204, 1, 0x0, 1, 0x0, 1, 0x0, .single,
  [fd 31 24 .wo true 0x0, fd 2 0 .wo true 0x0]⟩
/-- BOOT.FSVN — offset 0x0210, one instance (spec/19_boot_update.md). -/
def BOOT_FSVN : RegDef := ⟨0x19000210, 1, 0x0, 1, 0x0, 1, 0x0, .single,
  [fd 5 0 .ro false 0x0]⟩
/-- BOOT.KEYSTAT — offset 0x0214, one instance (spec/19_boot_update.md). -/
def BOOT_KEYSTAT : RegDef := ⟨0x19000214, 1, 0x0, 1, 0x0, 1, 0x0, .single,
  [fd 11 10 .ro false 0x0, fd 9 8 .ro false 0x0, fd 7 4 .ro false 0x0, fd 3 0 .ro false 0x0]⟩
/-- BOOT.FUSEPROG — offset 0x0218, one instance (spec/19_boot_update.md). -/
def BOOT_FUSEPROG : RegDef := ⟨0x19000218, 1, 0x0, 1, 0x0, 1, 0x0, .single,
  [fd 31 31 .w1s true 0x0, fd 30 30 .ro false 0x0, fd 29 29 .w1c true 0x0, fd 25 24 .rw true 0x0, fd 5 0 .rw true 0x0]⟩
/-- BOOT.RESUME_LO — offset 0x0300, one instance (RESUME_HI at 0x0304, R21 applies) (spec/19_boot_update.md). -/
def BOOT_RESUME_LO : RegDef := ⟨0x19000300, 1, 0x0, 1, 0x0, 1, 0x0, .lo,
  [fd 31 2 .rw true 0x0]⟩
/-- BOOT.RESUME_HI — offset 0x0304, one instance (spec/19_boot_update.md). -/
def BOOT_RESUME_HI : RegDef := ⟨0x19000304, 1, 0x0, 1, 0x0, 1, 0x0, .hi,
  [fd 11 0 .rw true 0x0]⟩
/-- BOOT.RESCHK — offset 0x0308, one instance (spec/19_boot_update.md). -/
def BOOT_RESCHK : RegDef := ⟨0x19000308, 1, 0x0, 1, 0x0, 1, 0x0, .single,
  [fd 31 31 .rw true 0x0, fd 29 24 .rw true 0x0, fd 20 12 .rw true 0x0]⟩
/-- BOOT.RESDIG — offset 0x0320, 12 instances, stride 0x4 (spec/19_boot_update.md). -/
def BOOT_RESDIG : RegDef := ⟨0x19000320, 12, 0x4, 1, 0x0, 1, 0x0, .single,
  [fd 31 0 .ro true 0x0]⟩
/-- BOOT.CFGSTAT — offset 0x0040, one instance (spec/23_configuration_image.md). -/
def BOOT_CFGSTAT : RegDef := ⟨0x19000040, 1, 0x0, 1, 0x0, 1, 0x0, .single,
  [fd 31 31 .ro false 0x0, fd 23 20 .ro false 0x0, fd 19 16 .ro false 0x0, fd 15 0 .ro false 0xffff]⟩
/-- BOOT.CFGREC — offset 0x0044, one instance (spec/23_configuration_image.md). -/
def BOOT_CFGREC : RegDef := ⟨0x19000044, 1, 0x0, 1, 0x0, 1, 0x0, .single,
  [fd 31 0 .ro false 0xffffffff]⟩
/-- BOOT.CFGID_LO — offset 0x0048, one instance (CFGID_HI at 0x004C, R19 applies) (spec/23_configuration_image.md). -/
def BOOT_CFGID_LO : RegDef := ⟨0x19000048, 1, 0x0, 1, 0x0, 1, 0x0, .lo,
  [fd 31 0 .ro false 0x0]⟩
/-- BOOT.CFGID_LO — offset 0x0048, one instance (CFGID_HI at 0x004C, R19 applies) (spec/23_configuration_image.md). -/
def BOOT_CFGID_HI : RegDef := ⟨0x1900004C, 1, 0x0, 1, 0x0, 1, 0x0, .hi,
  [fd 31 0 .ro false 0x0]⟩
/-- PACER.CTL — offset 0x0000, one instance (spec/20_power_pacer.md). -/
def PACER_CTL : RegDef := ⟨0x10100000, 1, 0x0, 1, 0x0, 1, 0x0, .single,
  [fd 31 31 .rwl false 0x0 (some (0, 31)), fc 1 1 .rw false 0x0, fc 0 0 .rwl false 0x0 (some (0, 31))]⟩
/-- PACER.DEVBUD — offset 0x0010; PACER.DEVPWR — offset 0x0014; one instance each (spec/20_power_pacer.md). -/
def PACER_DEVBUD : RegDef := ⟨0x10100010, 1, 0x0, 1, 0x0, 1, 0x0, .single,
  [fc 17 0 .rw false 0x0]⟩
/-- PACER.DEVBUD — offset 0x0010; PACER.DEVPWR — offset 0x0014; one instance each (spec/20_power_pacer.md). -/
def PACER_DEVPWR : RegDef := ⟨0x10100014, 1, 0x0, 1, 0x0, 1, 0x0, .single,
  [fd 17 0 .ro false 0x0]⟩
/-- PACER.DEVSLEEP — offset 0x0020, one instance (spec/20_power_pacer.md). -/
def PACER_DEVSLEEP : RegDef := ⟨0x10100020, 1, 0x0, 1, 0x0, 1, 0x0, .single,
  [fd 31 31 .w1s true 0x0, fd 30 30 .rw true 0x0, fd 19 16 .ro false 0x0, fc 7 0 .rw true 0x0]⟩
/-- PACER.GRPCFG — offset 0x0100, 4 instances (g = A–D), stride 0x20 (spec/20_power_pacer.md). -/
def PACER_GRPCFG : RegDef := ⟨0x10100100, 4, 0x20, 1, 0x0, 1, 0x0, .single,
  [fc 15 12 .rw false 0x0, fc 10 8 .rw false 0x0, fc 6 4 .rw false 0x0, fc 3 1 .rw false 0x0, fc 0 0 .rw false 0x0]⟩
/-- PACER.GRPBUD — offset 0x0104, same replication (spec/20_power_pacer.md). -/
def PACER_GRPBUD : RegDef := ⟨0x10100104, 4, 0x20, 1, 0x0, 1, 0x0, .single,
  [fc 31 16 .rw false 0x0, fc 15 0 .rw false 0x0]⟩
/-- PACER.GRPLIM — offset 0x0108, same replication (spec/20_power_pacer.md). -/
def PACER_GRPLIM : RegDef := ⟨0x10100108, 4, 0x20, 1, 0x0, 1, 0x0, .single,
  [fc 31 24 .rw false 0x0, fc 23 16 .rw false 0x0, fc 15 8 .rw false 0x0, fc 7 0 .rw false 0x0]⟩
/-- PACER.GRPSTAT — offset 0x010C, same replication (spec/20_power_pacer.md). -/
def PACER_GRPSTAT : RegDef := ⟨0x1010010C, 4, 0x20, 1, 0x0, 1, 0x0, .single,
  [fd 31 31 .ro false 0x0, fd 30 30 .rwh false 0x0, fd 29 29 .ro false 0x0, fd 28 28 .ro false 0x0, fd 10 8 .ro false 0x5, fd 6 4 .ro false 0x5, fd 2 0 .ro false 0x5]⟩
/-- PACER.GRPPWR — offset 0x0110, same replication (spec/20_power_pacer.md). -/
def PACER_GRPPWR : RegDef := ⟨0x10100110, 4, 0x20, 1, 0x0, 1, 0x0, .single,
  [fd 31 16 .ro false 0x0, fd 15 0 .ro false 0x0]⟩
/-- PACER.GRPTEMP — offset 0x0114, same replication (spec/20_power_pacer.md). -/
def PACER_GRPTEMP : RegDef := ⟨0x10100114, 4, 0x20, 1, 0x0, 1, 0x0, .single,
  [fd 7 0 .ro false 0x0]⟩
/-- PACER.GEVT — offset 0x0118, same replication (spec/20_power_pacer.md). -/
def PACER_GEVT : RegDef := ⟨0x10100118, 4, 0x20, 1, 0x0, 1, 0x0, .single,
  [fd 3 3 .w1c false 0x0, fd 2 2 .w1c false 0x0, fd 1 1 .w1c false 0x0, fd 0 0 .w1c false 0x0]⟩
/-- PACER.VRCFG — offset 0x011C, same replication (spec/20_power_pacer.md). -/
def PACER_VRCFG : RegDef := ⟨0x1010011C, 4, 0x20, 1, 0x0, 1, 0x0, .single,
  [fc 23 16 .rw false 0x0, fc 11 8 .rw false 0x0, fc 6 0 .rw false 0x0]⟩
/-- PACER.RAILE_LO — offset 0x0200, 4 instances, stride 0x8 (RAILE_HI at +4, R19 applies) (spec/20_power_pacer.md). -/
def PACER_RAILE_LO : RegDef := ⟨0x10100200, 4, 0x8, 1, 0x0, 1, 0x0, .lo,
  [fd 31 0 .ro false 0x0]⟩
/-- PACER.RAILE_LO — offset 0x0200, 4 instances, stride 0x8 (RAILE_HI at +4, R19 applies) (spec/20_power_pacer.md). -/
def PACER_RAILE_HI : RegDef := ⟨0x10100204, 4, 0x8, 1, 0x0, 1, 0x0, .hi,
  [fd 31 0 .ro false 0x0]⟩
/-- PACER.QCFG — offset 0x1000, 64 instances (q), stride 0x20 (spec/20_power_pacer.md). -/
def PACER_QCFG : RegDef := ⟨0x10101000, 64, 0x20, 1, 0x0, 1, 0x0, .single,
  [fc 31 31 .rw false 0x0, fc 30 30 .rw true 0x0, fc 29 24 .rw false 0x0, fc 23 20 .rw false 0x0, fc 19 18 .rw false 0x0, fc 10 0 .rw false 0x0]⟩
/-- PACER.QSTAT — offset 0x1004, same replication (spec/20_power_pacer.md). -/
def PACER_QSTAT : RegDef := ⟨0x10101004, 64, 0x20, 1, 0x0, 1, 0x0, .single,
  [fd 31 31 .w1c false 0x0, fd 26 16 .ro false 0x0, fd 10 0 .ro false 0x0]⟩
/-- PACER.QPUSH_LO — offset 0x1008; PACER.QPUSH_HI — offset 0x100C; same replication (R21 applies) (spec/20_power_pacer.md). -/
def PACER_QPUSH_LO : RegDef := ⟨0x10101008, 64, 0x20, 1, 0x0, 1, 0x0, .lo,
  [fd 31 0 .wo false 0x0]⟩
/-- PACER.QPUSH_LO — offset 0x1008; PACER.QPUSH_HI — offset 0x100C; same replication (R21 applies) (spec/20_power_pacer.md). -/
def PACER_QPUSH_HI : RegDef := ⟨0x1010100C, 64, 0x20, 1, 0x0, 1, 0x0, .hi,
  [fd 31 0 .wo false 0x0]⟩
/-- PACER.QPUSHRES — offset 0x1010, same replication (spec/20_power_pacer.md). -/
def PACER_QPUSHRES : RegDef := ⟨0x10101010, 64, 0x20, 1, 0x0, 1, 0x0, .single,
  [fd 1 0 .ro false 0x0]⟩
/-- PACER.QEAVG — offset 0x1014, same replication (spec/20_power_pacer.md). -/
def PACER_QEAVG : RegDef := ⟨0x10101014, 64, 0x20, 1, 0x0, 1, 0x0, .single,
  [fd 31 0 .rwh false 0x0]⟩
/-- PACER.QENERGY_LO — offset 0x1018, same replication (QENERGY_HI at 0x101C, R19 applies) (spec/20_power_pacer.md). -/
def PACER_QENERGY_LO : RegDef := ⟨0x10101018, 64, 0x20, 1, 0x0, 1, 0x0, .lo,
  [fd 31 0 .ro false 0x0]⟩
/-- PACER.QENERGY_LO — offset 0x1018, same replication (QENERGY_HI at 0x101C, R19 applies) (spec/20_power_pacer.md). -/
def PACER_QENERGY_HI : RegDef := ⟨0x1010101C, 64, 0x20, 1, 0x0, 1, 0x0, .hi,
  [fd 31 0 .ro false 0x0]⟩
/-- PACER.BLKGATE — offset 0x2000, 20 instances (b = OWNER bit; 10–15 reserved), stride 0x4 (spec/20_power_pacer.md). -/
def PACER_BLKGATE : RegDef := ⟨0x10102000, 20, 0x4, 1, 0x0, 1, 0x0, .single,
  [fd 1 1 .rw false 0x0, fd 0 0 .rw false 0x0]⟩
/-- AON.WAKECFG — offset 0x0100; AON.WAKESTAT — offset 0x0104; one instance each (spec/20_power_pacer.md). -/
def AON_WAKECFG : RegDef := ⟨0x10200100, 1, 0x0, 1, 0x0, 1, 0x0, .single,
  [fc 11 8 .rw true 0x0, fc 6 6 .rw true 0x0, fc 5 5 .rw true 0x0, fc 3 0 .rw true 0x0]⟩
/-- AON.WAKECFG — offset 0x0100; AON.WAKESTAT — offset 0x0104; one instance each (spec/20_power_pacer.md). -/
def AON_WAKESTAT : RegDef := ⟨0x10200104, 1, 0x0, 1, 0x0, 1, 0x0, .single,
  [fd 6 6 .w1c false 0x0, fd 5 5 .w1c false 0x0, fd 3 0 .w1c false 0x0]⟩
/-- AON.I2CWADDR — offset 0x0108, one instance (spec/20_power_pacer.md). -/
def AON_I2CWADDR : RegDef := ⟨0x10200108, 1, 0x0, 1, 0x0, 1, 0x0, .single,
  [fc 6 0 .rw true 0x0]⟩
/-- AON.WAKEETC_LO — offset 0x0110, one instance (WAKEETC_HI at 0x0114, R21 applies) (spec/20_power_pacer.md). -/
def AON_WAKEETC_LO : RegDef := ⟨0x10200110, 1, 0x0, 1, 0x0, 1, 0x0, .lo,
  [fd 31 0 .rw true 0x0]⟩
/-- AON.WAKEETC_LO — offset 0x0110, one instance (WAKEETC_HI at 0x0114, R21 applies) (spec/20_power_pacer.md). -/
def AON_WAKEETC_HI : RegDef := ⟨0x10200114, 1, 0x0, 1, 0x0, 1, 0x0, .hi,
  [fd 31 0 .rw true 0x0]⟩
/-- AON.ETC_LO — offset 0x0000, one instance (ETC_HI at 0x0004, R19 applies) (spec/22_clocks_time_resets.md). -/
def AON_ETC_LO : RegDef := ⟨0x10200000, 1, 0x0, 1, 0x0, 1, 0x0, .lo,
  [fd 31 0 .ro false 0x0]⟩
/-- AON.ETC_LO — offset 0x0000, one instance (ETC_HI at 0x0004, R19 applies) (spec/22_clocks_time_resets.md). -/
def AON_ETC_HI : RegDef := ⟨0x10200004, 1, 0x0, 1, 0x0, 1, 0x0, .hi,
  [fd 31 0 .ro false 0x0]⟩
/-- AON.ETCSTAT — offset 0x0008, one instance (spec/22_clocks_time_resets.md). -/
def AON_ETCSTAT : RegDef := ⟨0x10200008, 1, 0x0, 1, 0x0, 1, 0x0, .single,
  [fd 2 2 .ro false 0x1, fd 1 1 .ro false 0x1, fd 0 0 .w1c false 0x0]⟩
/-- AON.RSTCAUSE — offset 0x0010, one instance (spec/22_clocks_time_resets.md). -/
def AON_RSTCAUSE : RegDef := ⟨0x10200010, 1, 0x0, 1, 0x0, 1, 0x0, .single,
  [fd 6 6 .w1c false 0x0, fd 5 5 .w1c false 0x0, fd 4 4 .w1c false 0x0, fd 3 3 .w1c false 0x0, fd 2 2 .w1c false 0x0, fd 1 1 .w1c false 0x0, fd 0 0 .w1c false 0x1]⟩
/-- TRACE.SWMSG — offset 0x0100, 16 instances (channel), stride 0x4 (spec/21_trace.md). -/
def TRACE_SWMSG : RegDef := ⟨0x17000100, 16, 0x4, 1, 0x0, 1, 0x0, .single,
  [fd 31 0 .wo false 0x0]⟩
/-- TRACE.SRCCFG — offset 0x1_0000, 98 instances (s), stride 0x40 (spec/21_trace.md). -/
def TRACE_SRCCFG : RegDef := ⟨0x17010000, 98, 0x40, 1, 0x0, 1, 0x0, .single,
  [fd 31 31 .rw false 0x0, fd 30 30 .rw false 0x0, fd 29 29 .rw false 0x0, fd 28 27 .rw false 0x2, fd 26 24 .rw false 0x0, fd 23 23 .rw true 0x0, fd 22 20 .rw false 0x0, fd 19 16 .rw false 0x0]⟩
/-- TRACE.SRCSTAT — offset 0x1_0004, same replication (spec/21_trace.md). -/
def TRACE_SRCSTAT : RegDef := ⟨0x17010004, 98, 0x40, 1, 0x0, 1, 0x0, .single,
  [fd 18 16 .ro false 0x0, fd 15 0 .rwh false 0x0]⟩
/-- TRACE.ADDRA_LO — 0x1_0008; TRACE.ADDRB_LO — 0x1_0010; same replication (_HI at +4, R21 applies) (spec/21_trace.md). -/
def TRACE_ADDRA_LO : RegDef := ⟨0x17010008, 98, 0x40, 1, 0x0, 1, 0x0, .lo,
  [fd 31 0 .rw false 0x0]⟩
/-- TRACE.ADDRA_LO — 0x1_0008; TRACE.ADDRB_LO — 0x1_0010; same replication (_HI at +4, R21 applies) (spec/21_trace.md). -/
def TRACE_ADDRB_LO : RegDef := ⟨0x17010010, 98, 0x40, 1, 0x0, 1, 0x0, .lo,
  [fd 31 0 .rw false 0x0]⟩
/-- TRACE.ADDRA_HI — 0x1_000C; TRACE.ADDRB_HI — 0x1_0014; same replication (spec/21_trace.md). -/
def TRACE_ADDRA_HI : RegDef := ⟨0x1701000C, 98, 0x40, 1, 0x0, 1, 0x0, .hi,
  [fd 31 0 .rw false 0x0]⟩
/-- TRACE.ADDRA_HI — 0x1_000C; TRACE.ADDRB_HI — 0x1_0014; same replication (spec/21_trace.md). -/
def TRACE_ADDRB_HI : RegDef := ⟨0x17010014, 98, 0x40, 1, 0x0, 1, 0x0, .hi,
  [fd 31 0 .rw false 0x0]⟩
/-- TRACE.SINKBASE_LO — offset 0x2_0000, 4 instances (k), stride 0x40 (SINKBASE_HI at 0x2_0004, R21 applies) (spec/21_trace.md). -/
def TRACE_SINKBASE_LO : RegDef := ⟨0x17020000, 4, 0x40, 1, 0x0, 1, 0x0, .lo,
  [fd 31 12 .rw false 0x0]⟩
/-- TRACE.SINKBASE_HI — offset 0x2_0004, same replication (spec/21_trace.md). -/
def TRACE_SINKBASE_HI : RegDef := ⟨0x17020004, 4, 0x40, 1, 0x0, 1, 0x0, .hi,
  [fd 11 0 .rw false 0x0]⟩
/-- TRACE.SINKCTL — offset 0x2_0008, 5 instances (k = 0–4), stride 0x40 (spec/21_trace.md). -/
def TRACE_SINKCTL : RegDef := ⟨0x17020008, 5, 0x40, 1, 0x0, 1, 0x0, .single,
  [fd 31 31 .rw false 0x0, fd 30 30 .rw false 0x0, fd 29 29 .rw true 0x0, fd 28 28 .rw false 0x0, fd 27 22 .rw false 0x0, fd 21 16 .rw false 0x0, fd 15 12 .rw false 0x0, fd 11 8 .rw false 0x0, fd 7 0 .rw false 0x0]⟩
/-- TRACE.SINKPOST — 0x2_000C; TRACE.SINKWP — 0x2_0010; same replication (spec/21_trace.md). -/
def TRACE_SINKPOST : RegDef := ⟨0x1702000C, 5, 0x40, 1, 0x0, 1, 0x0, .single,
  [fd 27 0 .rw false 0x0]⟩
/-- TRACE.SINKPOST — 0x2_000C; TRACE.SINKWP — 0x2_0010; same replication (spec/21_trace.md). -/
def TRACE_SINKWP : RegDef := ⟨0x17020010, 5, 0x40, 1, 0x0, 1, 0x0, .single,
  [fd 27 0 .rwh false 0x0]⟩
/-- TRACE.SINKSTAT — offset 0x2_0014, same replication (spec/21_trace.md). -/
def TRACE_SINKSTAT : RegDef := ⟨0x17020014, 5, 0x40, 1, 0x0, 1, 0x0, .single,
  [fd 31 16 .rwh false 0x0, fd 4 4 .w1c false 0x0, fd 3 3 .w1c false 0x0, fd 2 2 .w1c false 0x0, fd 1 1 .w1c false 0x0, fd 0 0 .ro false 0x0]⟩
/-- TRACE.TRIGCFG — offset 0x3_0000, 4 instances (t), stride 0x40 (spec/21_trace.md). -/
def TRACE_TRIGCFG : RegDef := ⟨0x17030000, 4, 0x40, 1, 0x0, 1, 0x0, .single,
  [fd 31 31 .rw false 0x0, fd 6 0 .rw false 0x0]⟩
/-- TRACE.TRIGVAL_LO — 0x3_0008; TRACE.TRIGMSK_LO — 0x3_0010; same replication (_HI at +4, R21 applies; the _HI words hold bits [63:32]) (spec/21_trace.md). -/
def TRACE_TRIGVAL_LO : RegDef := ⟨0x17030008, 4, 0x40, 1, 0x0, 1, 0x0, .lo,
  [fd 31 0 .rw false 0x0]⟩
/-- TRACE.TRIGVAL_LO — 0x3_0008; TRACE.TRIGMSK_LO — 0x3_0010; same replication (_HI at +4, R21 applies; the _HI words hold bits [63:32]) (spec/21_trace.md). -/
def TRACE_TRIGVAL_HI : RegDef := ⟨0x1703000C, 4, 0x40, 1, 0x0, 1, 0x0, .hi,
  [fd 31 0 .rw false 0x0]⟩
/-- TRACE.TRIGVAL_LO — 0x3_0008; TRACE.TRIGMSK_LO — 0x3_0010; same replication (_HI at +4, R21 applies; the _HI words hold bits [63:32]) (spec/21_trace.md). -/
def TRACE_TRIGMSK_LO : RegDef := ⟨0x17030010, 4, 0x40, 1, 0x0, 1, 0x0, .lo,
  [fd 31 0 .rw false 0x0]⟩
/-- TRACE.TRIGVAL_LO — 0x3_0008; TRACE.TRIGMSK_LO — 0x3_0010; same replication (_HI at +4, R21 applies; the _HI words hold bits [63:32]) (spec/21_trace.md). -/
def TRACE_TRIGMSK_HI : RegDef := ⟨0x17030014, 4, 0x40, 1, 0x0, 1, 0x0, .hi,
  [fd 31 0 .rw false 0x0]⟩
/-- PINMUX.PAD — offset 0x0000 in PINMUX, 96 instances (GPIO n), stride 0x4 (spec/25_signals_package.md). -/
def PINMUX_PAD : RegDef := ⟨0x1B000000, 96, 0x4, 1, 0x0, 1, 0x0, .single,
  [fc 31 31 .rw false 0x0, fc 30 30 .rw false 0x0, fc 25 16 .rw false 0x0, fc 9 8 .rw false 0x0, fd 5 4 .rw false 0x1, fc 0 0 .rw false 0x0]⟩
/-- GPIO.DIN — offset 0x0000; GPIO.DOUT — offset 0x0010; GPIO.DIR — offset 0x0020; 3 instances each (word w), stride 0x4 (spec/25_signals_package.md). -/
def GPIO_DIN : RegDef := ⟨0x1B010000, 3, 0x4, 1, 0x0, 1, 0x0, .single,
  [fd 31 0 .ro false 0x0]⟩
/-- GPIO.DIN — offset 0x0000; GPIO.DOUT — offset 0x0010; GPIO.DIR — offset 0x0020; 3 instances each (word w), stride 0x4 (spec/25_signals_package.md). -/
def GPIO_DOUT : RegDef := ⟨0x1B010010, 3, 0x4, 1, 0x0, 1, 0x0, .single,
  [fd 31 0 .rw false 0x0]⟩
/-- GPIO.DIN — offset 0x0000; GPIO.DOUT — offset 0x0010; GPIO.DIR — offset 0x0020; 3 instances each (word w), stride 0x4 (spec/25_signals_package.md). -/
def GPIO_DIR : RegDef := ⟨0x1B010020, 3, 0x4, 1, 0x0, 1, 0x0, .single,
  [fd 31 0 .rw false 0x0]⟩

end Reg

/-- The documented registers of SYSCTL. -/
def regsSYSCTL : List RegDef :=
  [Reg.SYSCTL_ID, Reg.SYSCTL_CLBASE_LO, Reg.SYSCTL_CLBASE_HI, Reg.SYSCTL_CLSBASE, Reg.SYSCTL_CELLOCK, Reg.SYSCTL_CELALLOC, Reg.SYSCTL_OWNER, Reg.SYSCTL_PDLOG, Reg.SYSCTL_PDCNT, Reg.SYSCTL_SRCTL, Reg.SYSCTL_SRSTAT, Reg.SYSCTL_SMEAS] ++
  [Reg.SYSCTL_RSTCTL, Reg.SYSCTL_IOBW]
/-- The documented registers of ERRREC. -/
def regsERRREC : List RegDef :=
  [Reg.ERRREC_SUMMARY_LO, Reg.ERRREC_SUMMARY_HI, Reg.ERRREC_ROUTE, Reg.ERRREC_FATALCTL, Reg.ERRREC_PFENCE_LO, Reg.ERRREC_PFENCE_HI, Reg.ERRREC_BANK_CTL, Reg.ERRREC_BANK_STATUS, Reg.ERRREC_BANK_OVFCNT, Reg.ERRREC_REC_STATUS, Reg.ERRREC_REC_TAG, Reg.ERRREC_REC_ADDR_LO] ++
  [Reg.ERRREC_REC_ADDR_HI, Reg.ERRREC_REC_ETC_LO, Reg.ERRREC_REC_ETC_HI, Reg.ERRREC_REC_MISC]
/-- The documented registers of CLUSTER. -/
def regsCLUSTER : List RegDef :=
  [Reg.CLUSTER_SPARECTL, Reg.CLUSTER_SPAREREQ, Reg.CLUSTER_SPARESTAT, Reg.CLUSTER_SLOTMAP, Reg.CLUSTER_RETRYCNT, Reg.CLUSTER_L2LOCK, Reg.CLUSTER_L2OP, Reg.CLUSTER_RSVTEST]
/-- The documented registers of MEMC. -/
def regsMEMC : List RegDef :=
  [Reg.MEMC_QTIER, Reg.MEMC_DTIER, Reg.MEMC_QDR_CTL, Reg.MEMC_DDR_CTL, Reg.MEMC_TUN_CTL, Reg.MEMC_CASK_CTL, Reg.MEMC_QDR_STAT, Reg.MEMC_DDR_STAT, Reg.MEMC_TUN_STAT, Reg.MEMC_CASK_STAT, Reg.MEMC_QDR_REFUSECNT, Reg.MEMC_DDR_REFUSECNT] ++
  [Reg.MEMC_TUN_REFUSECNT, Reg.MEMC_CASK_REFUSECNT, Reg.MEMC_QDR_CORRCNT, Reg.MEMC_DDR_CORRCNT, Reg.MEMC_TUN_CORRCNT, Reg.MEMC_CASK_CORRCNT, Reg.MEMC_QDR_TRAIN, Reg.MEMC_DDR_TRAIN, Reg.MEMC_QDR_TRAINDATA, Reg.MEMC_DDR_TRAINDATA, Reg.MEMC_QDR_OPEN_GBASE_LO, Reg.MEMC_QDR_SEALED_GBASE_LO] ++
  [Reg.MEMC_DDR_OPEN_GBASE_LO, Reg.MEMC_DDR_SEALED_GBASE_LO, Reg.MEMC_TUN_OPEN_GBASE_LO, Reg.MEMC_TUN_SEALED_GBASE_LO, Reg.MEMC_CASK_OPEN_GBASE_LO, Reg.MEMC_CASK_SEALED_GBASE_LO, Reg.MEMC_QDRB_OPEN_GBASE_LO, Reg.MEMC_QDRB_SEALED_GBASE_LO, Reg.MEMC_DDRB_OPEN_GBASE_LO, Reg.MEMC_DDRB_SEALED_GBASE_LO, Reg.MEMC_QDR_OPEN_GBASE_HI, Reg.MEMC_QDR_SEALED_GBASE_HI] ++
  [Reg.MEMC_DDR_OPEN_GBASE_HI, Reg.MEMC_DDR_SEALED_GBASE_HI, Reg.MEMC_TUN_OPEN_GBASE_HI, Reg.MEMC_TUN_SEALED_GBASE_HI, Reg.MEMC_CASK_OPEN_GBASE_HI, Reg.MEMC_CASK_SEALED_GBASE_HI, Reg.MEMC_QDRB_OPEN_GBASE_HI, Reg.MEMC_QDRB_SEALED_GBASE_HI, Reg.MEMC_DDRB_OPEN_GBASE_HI, Reg.MEMC_DDRB_SEALED_GBASE_HI, Reg.MEMC_QDR_OPEN_GLIM_HI, Reg.MEMC_QDR_SEALED_GLIM_HI] ++
  [Reg.MEMC_DDR_OPEN_GLIM_HI, Reg.MEMC_DDR_SEALED_GLIM_HI, Reg.MEMC_TUN_OPEN_GLIM_HI, Reg.MEMC_TUN_SEALED_GLIM_HI, Reg.MEMC_CASK_OPEN_GLIM_HI, Reg.MEMC_CASK_SEALED_GLIM_HI, Reg.MEMC_QDRB_OPEN_GLIM_HI, Reg.MEMC_QDRB_SEALED_GLIM_HI, Reg.MEMC_DDRB_OPEN_GLIM_HI, Reg.MEMC_DDRB_SEALED_GLIM_HI, Reg.MEMC_QDR_OPEN_GLIM_LO, Reg.MEMC_QDR_SEALED_GLIM_LO] ++
  [Reg.MEMC_DDR_OPEN_GLIM_LO, Reg.MEMC_DDR_SEALED_GLIM_LO, Reg.MEMC_TUN_OPEN_GLIM_LO, Reg.MEMC_TUN_SEALED_GLIM_LO, Reg.MEMC_CASK_OPEN_GLIM_LO, Reg.MEMC_CASK_SEALED_GLIM_LO, Reg.MEMC_QDRB_OPEN_GLIM_LO, Reg.MEMC_QDRB_SEALED_GLIM_LO, Reg.MEMC_DDRB_OPEN_GLIM_LO, Reg.MEMC_DDRB_SEALED_GLIM_LO, Reg.MEMC_QDR_OPEN_GRD_LO, Reg.MEMC_DDR_OPEN_GRD_LO] ++
  [Reg.MEMC_TUN_OPEN_GRD_LO, Reg.MEMC_CASK_OPEN_GRD_LO, Reg.MEMC_QDRB_OPEN_GRD_LO, Reg.MEMC_DDRB_OPEN_GRD_LO, Reg.MEMC_QDR_OPEN_GWR_LO, Reg.MEMC_DDR_OPEN_GWR_LO, Reg.MEMC_TUN_OPEN_GWR_LO, Reg.MEMC_CASK_OPEN_GWR_LO, Reg.MEMC_QDRB_OPEN_GWR_LO, Reg.MEMC_DDRB_OPEN_GWR_LO, Reg.MEMC_QDR_OPEN_GRD_HI, Reg.MEMC_DDR_OPEN_GRD_HI] ++
  [Reg.MEMC_TUN_OPEN_GRD_HI, Reg.MEMC_CASK_OPEN_GRD_HI, Reg.MEMC_QDRB_OPEN_GRD_HI, Reg.MEMC_DDRB_OPEN_GRD_HI, Reg.MEMC_QDR_OPEN_GWR_HI, Reg.MEMC_DDR_OPEN_GWR_HI, Reg.MEMC_TUN_OPEN_GWR_HI, Reg.MEMC_CASK_OPEN_GWR_HI, Reg.MEMC_QDRB_OPEN_GWR_HI, Reg.MEMC_DDRB_OPEN_GWR_HI, Reg.MEMC_TUN_BANKSTAT, Reg.MEMC_CASK_BANKSTAT] ++
  [Reg.MEMC_CASK_WIPE]
/-- The documented registers of CSS. -/
def regsCSS : List RegDef :=
  [Reg.CSS_CTL, Reg.CSS_STAT, Reg.CSS_SCBASE_LO, Reg.CSS_RCBASE_LO, Reg.CSS_SCBASE_HI, Reg.CSS_RCBASE_HI, Reg.CSS_CMD, Reg.CSS_STALECNT, Reg.CSS_SQ_TAIL, Reg.CSS_CQ_HEAD, Reg.CSS_SQ_HEAD, Reg.CSS_CQ_TAIL] ++
  [Reg.CSS_LBASE_LO, Reg.CSS_LBASE_HI, Reg.CSS_LCTL, Reg.CSS_LSTAT, Reg.CSS_LALLOC_LO, Reg.CSS_LALLOC_HI, Reg.CSS_LFREED_LO, Reg.CSS_LFREED_HI, Reg.CSS_LBAL, Reg.CSS_LCNT, Reg.CSS_RLOGBASE_LO, Reg.CSS_RLOGBASE_HI] ++
  [Reg.CSS_RLOGCFG, Reg.CSS_RLOG_TAIL, Reg.CSS_RLOG_HEAD, Reg.CSS_LSCAN_END, Reg.CSS_LSCAN_LOST]
/-- The documented registers of ADPT. -/
def regsADPT : List RegDef :=
  [Reg.ADPT_PATHCTL, Reg.ADPT_PATHSTAT, Reg.ADPT_PAUTH_LO, Reg.ADPT_PAUTH_HI, Reg.ADPT_ACTL, Reg.ADPT_AEVT, Reg.ADPT_RXDROP, Reg.ADPT_RXUNCL, Reg.ADPT_RXBAD, Reg.ADPT_RXPOL, Reg.ADPT_INJCNT, Reg.ADPT_FINJ] ++
  [Reg.ADPT_CANNBT, Reg.ADPT_CANDBT, Reg.ADPT_CANCFG, Reg.ADPT_CANSTAT, Reg.ADPT_ETHMAC_LO, Reg.ADPT_ETHMAC_HI, Reg.ADPT_PLCACFG, Reg.ADPT_QBVCTL, Reg.ADPT_QBVCYCLE, Reg.ADPT_QBVOFS, Reg.ADPT_GCL, Reg.ADPT_TPL_DA_LO] ++
  [Reg.ADPT_TPL_DA_HI, Reg.ADPT_TPL_CTL, Reg.ADPT_TPL_POL, Reg.ADPT_SDCFG]
/-- The documented registers of MASH. -/
def regsMASH : List RegDef :=
  [Reg.MASH_JADDR_LO, Reg.MASH_JADDR_HI, Reg.MASH_JCTL, Reg.MASH_JSTAT, Reg.MASH_JOUT]
/-- The documented registers of KILN. -/
def regsKILN : List RegDef :=
  [Reg.KILN_JADDR_LO, Reg.KILN_JADDR_HI, Reg.KILN_JCTL, Reg.KILN_JSTAT, Reg.KILN_JOUT, Reg.KILN_KS_CFG, Reg.KILN_KS_PID_LO, Reg.KILN_KS_PID_HI, Reg.KILN_KS_IVF, Reg.KILN_KS_CTR_LO, Reg.KILN_KS_CTR_HI, Reg.KILN_LDR_CTL] ++
  [Reg.KILN_LDR_STAT, Reg.KILN_LDR_SRC, Reg.KILN_LDR_LABEL, Reg.KILN_RNGDATA, Reg.KILN_RNGDATA_S, Reg.KILN_RNGSTAT, Reg.KILN_RNGCTL, Reg.KILN_SECY_CTL, Reg.KILN_SECY_RX, Reg.KILN_SECY_TXPN]
/-- The documented registers of RELAY. -/
def regsRELAY : List RegDef :=
  [Reg.RELAY_PORTCTL, Reg.RELAY_PORTSTAT, Reg.RELAY_NBRINC, Reg.RELAY_BATON, Reg.RELAY_REPLAYCNT, Reg.RELAY_RETRAINCNT, Reg.RELAY_DROPCNT, Reg.RELAY_INJCNT, Reg.RELAY_FINJ, Reg.RELAY_IMAP_OFS, Reg.RELAY_IMAP_LIM, Reg.RELAY_IMAP_PA_LO] ++
  [Reg.RELAY_IMAP_PA_HI, Reg.RELAY_IMAP_ATTR, Reg.RELAY_IMAP_SEND, Reg.RELAY_HID, Reg.RELAY_HPRESENT, Reg.RELAY_HROUTE, Reg.RELAY_HTOPO, Reg.RELAY_PEERPATH, Reg.RELAY_TSTAT, Reg.RELAY_IMGOFS, Reg.RELAY_IMGLEN]
/-- The documented registers of HOSTEP. -/
def regsHOSTEP : List RegDef :=
  [Reg.HOSTEP_LINKSTAT, Reg.HOSTEP_EVT, Reg.HOSTEP_EVTCTL, Reg.HOSTEP_SQUASHCNT, Reg.HOSTEP_CPLTOCNT, Reg.HOSTEP_MB_H2G, Reg.HOSTEP_MB_G2H, Reg.HOSTEP_MBSEND, Reg.HOSTEP_FBIND, Reg.HOSTEP_FSTATD, Reg.HOSTEP_WIN_OFS, Reg.HOSTEP_WIN_LIM] ++
  [Reg.HOSTEP_WIN_PA_LO, Reg.HOSTEP_WIN_PA_HI, Reg.HOSTEP_VWIN_LO, Reg.HOSTEP_VWIN_HI]
/-- The documented registers of INTD. -/
def regsINTD : List RegDef :=
  [Reg.INTD_CTL, Reg.INTD_CSIG, Reg.INTD_SCFG, Reg.INTD_SSTAT, Reg.INTD_PSTAT, Reg.INTD_PCFG, Reg.INTD_RPS]
/-- The documented registers of DEBUG. -/
def regsDEBUG : List RegDef :=
  [Reg.DEBUG_AUTH, Reg.DEBUG_UNLOCK, Reg.DEBUG_NONCE, Reg.DEBUG_TOKBUF, Reg.DEBUG_CORECTL, Reg.DEBUG_ITR, Reg.DEBUG_DTR_LO, Reg.DEBUG_DTR_HI, Reg.DEBUG_DIAG, Reg.DEBUG_BINJ_CTL, Reg.DEBUG_BINJ_ADDR_LO, Reg.DEBUG_BINJ_ADDR_HI] ++
  [Reg.DEBUG_BINJ_STAT]
/-- The documented registers of BOOT. -/
def regsBOOT : List RegDef :=
  [Reg.BOOT_BSTAT, Reg.BOOT_SRCRES, Reg.BOOT_SEQCFG, Reg.BOOT_RELEASE, Reg.BOOT_LCS, Reg.BOOT_LCADV, Reg.BOOT_FSVN, Reg.BOOT_KEYSTAT, Reg.BOOT_FUSEPROG, Reg.BOOT_RESUME_LO, Reg.BOOT_RESUME_HI, Reg.BOOT_RESCHK] ++
  [Reg.BOOT_RESDIG, Reg.BOOT_CFGSTAT, Reg.BOOT_CFGREC, Reg.BOOT_CFGID_LO, Reg.BOOT_CFGID_HI]
/-- The documented registers of PACER. -/
def regsPACER : List RegDef :=
  [Reg.PACER_CTL, Reg.PACER_DEVBUD, Reg.PACER_DEVPWR, Reg.PACER_DEVSLEEP, Reg.PACER_GRPCFG, Reg.PACER_GRPBUD, Reg.PACER_GRPLIM, Reg.PACER_GRPSTAT, Reg.PACER_GRPPWR, Reg.PACER_GRPTEMP, Reg.PACER_GEVT, Reg.PACER_VRCFG] ++
  [Reg.PACER_RAILE_LO, Reg.PACER_RAILE_HI, Reg.PACER_QCFG, Reg.PACER_QSTAT, Reg.PACER_QPUSH_LO, Reg.PACER_QPUSH_HI, Reg.PACER_QPUSHRES, Reg.PACER_QEAVG, Reg.PACER_QENERGY_LO, Reg.PACER_QENERGY_HI, Reg.PACER_BLKGATE]
/-- The documented registers of AON. -/
def regsAON : List RegDef :=
  [Reg.AON_WAKECFG, Reg.AON_WAKESTAT, Reg.AON_I2CWADDR, Reg.AON_WAKEETC_LO, Reg.AON_WAKEETC_HI, Reg.AON_ETC_LO, Reg.AON_ETC_HI, Reg.AON_ETCSTAT, Reg.AON_RSTCAUSE]
/-- The documented registers of TRACE. -/
def regsTRACE : List RegDef :=
  [Reg.TRACE_SWMSG, Reg.TRACE_SRCCFG, Reg.TRACE_SRCSTAT, Reg.TRACE_ADDRA_LO, Reg.TRACE_ADDRB_LO, Reg.TRACE_ADDRA_HI, Reg.TRACE_ADDRB_HI, Reg.TRACE_SINKBASE_LO, Reg.TRACE_SINKBASE_HI, Reg.TRACE_SINKCTL, Reg.TRACE_SINKPOST, Reg.TRACE_SINKWP] ++
  [Reg.TRACE_SINKSTAT, Reg.TRACE_TRIGCFG, Reg.TRACE_TRIGVAL_LO, Reg.TRACE_TRIGVAL_HI, Reg.TRACE_TRIGMSK_LO, Reg.TRACE_TRIGMSK_HI]
/-- The documented registers of PERI. -/
def regsPERI : List RegDef :=
  [Reg.PINMUX_PAD, Reg.GPIO_DIN, Reg.GPIO_DOUT, Reg.GPIO_DIR]

/-- The documented registers of a block. -/
def Block.regs : Block → List RegDef
  | .SYSCTL => regsSYSCTL
  | .PACER => regsPACER
  | .AON => regsAON
  | .INTD => regsINTD
  | .CLUSTER => regsCLUSTER
  | .CSS => regsCSS
  | .ADPT => regsADPT
  | .MASH => regsMASH
  | .KILN => regsKILN
  | .RELAY => regsRELAY
  | .HOSTEP => regsHOSTEP
  | .MEMC => regsMEMC
  | .TRACE => regsTRACE
  | .DEBUG => regsDEBUG
  | .BOOT => regsBOOT
  | .ERRREC => regsERRREC
  | .PERI => regsPERI

/-- The documented register at an address, if any (R11 governs the rest of a span). -/
def regAt (a : Nat) : Option RegDef :=
  match blockOf a with
  | none => none
  | some (b, _, _) => b.regs.find? (fun r => r.holds a)

/-- The value of a register after reset: each field at the value its table gives (R17). -/
def RegDef.resetVal (r : RegDef) : W32 := r.fields.foldl (fun v f => setFld v f.hi f.lo f.reset) 0

/-- What an address that nothing has written reads as: its register's reset value; no register, zero (R11). -/
def resetAt (a : Nat) : W32 :=
  match regAt a with
  | none => 0
  | some r => r.resetVal

end Sys2Proof.Machine
end

