-- ==== Sys2Proof/Config.lean ====
section
/-! DEFINITION. What an implementation fixes, and the free values: constants without a body, so that no proof can see
what they are and a claim holds whatever they are. Each is named in the assumption log. -/
namespace Sys2Proof.Config

/-- FREE VALUE (log entry 3). The n-th value that the manual leaves open: a step that needs one reads it and advances
the counter State.freeCtr. -/
opaque freeNat : Nat → Nat

/-- FREE VALUE (log entry 3). The bytes of the mask ROM that holds the boot code (R27): the manual gives no contents. -/
opaque romByte : Nat → BitVec 8

/-! FREE VALUES (log entry 11): the functions of published standards that the manual names and does not restate. Each is a
function of its inputs; nothing here says which. -/

/-- CHECK's digests and MACs (R341) by ALG: SHA-256, SHA-384, SHA3-256, HMAC-SHA-256, HMAC-SHA-384; key, data. -/
opaque digest : Nat → List (BitVec 8) → List (BitVec 8) → List (BitVec 8)

/-- AES-GCM's key stream (R341): key, IV, the byte's number. -/
opaque gcmPad : List (BitVec 8) → List (BitVec 8) → Nat → BitVec 8

/-- AES-GCM's tag of 16 bytes: key, IV, AAD, ciphertext. -/
opaque gcmTag : List (BitVec 8) → List (BitVec 8) → List (BitVec 8) → List (BitVec 8) → List (BitVec 8)

/-- AES-CTR's key stream (R358): key, initial counter block, the byte's number. -/
opaque ctrPad : List (BitVec 8) → List (BitVec 8) → Nat → BitVec 8

/-- CIPHER's XTS (R358): decrypt, key, data-unit number, data. -/
opaque xts : Bool → List (BitVec 8) → List (BitVec 8) → List (BitVec 8) → List (BitVec 8)

/-- VERIFY (R357) by PARAM: message, key-and-signature block. -/
opaque verify : Nat → List (BitVec 8) → List (BitVec 8) → Bool

/-- The stream that MASH produces (R339) for raw DEFLATE (0) and for LZ4 (2): R339 leaves the choice of matches and codes to the device. -/
opaque mash : Nat → List (BitVec 8) → List (BitVec 8)

/-- HMAC-SHA-384 key derivation in counter mode (R347): key, fixed input, bytes wanted. -/
opaque derive : List (BitVec 8) → List (BitVec 8) → Nat → List (BitVec 8)

/-! FREE VALUES (log entry 12): what manufacturing and provisioning put into fuses and ROM. -/

/-- The device unique secret (R347, R463). -/
opaque deviceSecret : List (BitVec 8)

/-- The device serial number (R444). -/
opaque serial : List (BitVec 8)

/-- The fused SHA-384 of root-key slot n (R461). -/
opaque rootKeyHash : Nat → List (BitVec 8)

/-- The fused SHA-384 of debug-key slot n (R445). -/
opaque debugKeyHash : Nat → List (BitVec 8)

/-- The provisioning key hash held in the ROM (R453). -/
opaque provisionHash : List (BitVec 8)

/-- The manufacturer code of IDCODE (R450). -/
opaque maker : BitVec 11

/-- The PCI Vendor ID of PF0, a factory value (R397). -/
opaque vendorId : BitVec 16

/-- The first configuration dword of PF0 with the Device ID left out. -/
def vendor : BitVec 32 := vendorId.zeroExtend 32

/-- The subsystem vendor and subsystem ID of the endpoint, which the Ilmaro image holds in a form that the manual does not give (R397). -/
opaque subsystem : BitVec 32

end Sys2Proof.Config
end

