-- ==== Sys2Proof/Machine/Sparse.lean ====
section
/-! DEFINITION. Sparse tables: a list of (key, value) pairs in one canonical form, keys strictly rising and no entry
equal to what an unlisted key reads as. Memory, the register file and the units' tables are held so: equal tables
are equal data. -/
namespace Sys2Proof.Machine

/-- A table keyed by number. -/
abbrev Sparse (α : Type) := List (Nat × α)

/-- The value at a key: the first listed value, or else the default d. -/
def Sparse.get {α : Type} (d : α) : Sparse α → Nat → α
  | [], _ => d
  | (k', v) :: t, k => if k' = k then v else Sparse.get d t k

/-- Insertion at the key's place in the rising order. -/
def Sparse.insert {α : Type} (k : Nat) (v : α) : Sparse α → Sparse α
  | [] => [(k, v)]
  | (k', v') :: t =>
    if k' < k then (k', v') :: Sparse.insert k v t
    else if k' = k then (k, v) :: t
    else (k, v) :: (k', v') :: t

/-- The table without a key. -/
def Sparse.erase {α : Type} (m : Sparse α) (k : Nat) : Sparse α := m.filter (fun e => e.1 != k)

/-- The table with the key set: writing the default removes the entry. -/
def Sparse.set {α : Type} [DecidableEq α] (d : α) (m : Sparse α) (k : Nat) (v : α) : Sparse α :=
  if v = d then m.erase k else m.insert k v

/-- Keys strictly rise from a bound. -/
def Sparse.sortedFrom {α : Type} : Nat → Sparse α → Bool
  | _, [] => true
  | b, (k, _) :: t => decide (b ≤ k) && Sparse.sortedFrom (k + 1) t

/-- The canonical form: keys strictly rise, and no entry holds the default of its key. -/
def Sparse.wf {α : Type} [DecidableEq α] (d : Nat → α) (m : Sparse α) : Bool :=
  Sparse.sortedFrom 0 m && m.all (fun e => decide (e.2 ≠ d e.1))

end Sys2Proof.Machine
end

