-- ==== Sys2Proof/Machine/State.lean ====
section
/-! DEFINITION. The state of the Gnouc as plain data (INVENTORY.md, State): every MMIO register in one register file
keyed by physical address, the cores, memory and caches, and the units' state that no register shows. Also the faults,
the refusals and the state right after power-on reset. -/
namespace Sys2Proof.Machine

/-! ## Access tags, region types and caches -/

/-- The region types of R187, weakest first (R205). -/
inductive RType where
  | cached | uncached | devOrdered | devStrict
deriving DecidableEq, Repr

/-- A place that can hold a copy of a line (R212, R213, R220, R126, R224): an L1D or L1I (by logical core), the fetch line
buffer or prefetch side buffer of a core, an L2 (by cluster), the Cellar, or the eviction buffer of an L1D or of an L2, with whether the
entry is still collecting. -/
inductive CopyAt where
  | l1d (core : Nat) | l1i (core : Nat) | lineBuf (core : Nat) | side (core : Nat) | l2 (cluster : Nat) | cellar
  | evictL1 (core : Nat) (collecting : Bool) | evictL2 (cluster : Nat) (collecting : Bool)
deriving DecidableEq, Repr

/-- One copy of a line, with its way and its fill tag (R245). reserved: a discarded line of a locked way that keeps
its tag only (R226). -/
structure Copy where
  place : CopyAt
  way : Nat
  world : Bool
  pid : Nat
  reserved : Bool
deriving DecidableEq, Repr

/-- The dirty data of one L1D that its L2 lacks, with its poison mark (R212, R229). -/
structure L1Dirty where
  core : Nat
  data : List Byte
  poison : Bool
deriving DecidableEq, Repr

/-- A 64-byte line held by some cache (R212). l1: the data of an L1D that its L2 lacks; dirty: the data of an L2 or of the Cellar that
memory lacks; poison: the mark of that copy (R229); a clean line has memory's mark. owner: the cluster whose last ownership request made to
write was granted (R244), none when the Cellar holds the dirty data or nobody owns the line. -/
structure CLine where
  l1 : Option L1Dirty
  dirty : Option (List Byte)
  owner : Option Nat
  poison : Bool
  copies : List Copy
deriving DecidableEq, Repr

/-- No copy anywhere. -/
def CLine.empty : CLine := { l1 := none, dirty := none, owner := none, poison := false, copies := [] }

/-- Memory behind the fabric. cells: the bytes that differ from what an unlisted address reads as; poisoned: the lines
(address / 64) that a tier stores as poisoned (R240); away, awayPoison: bytes and marks in the QDR and DRAM devices that no address reaches under
the tier's present map (R566), keyed by controller and place; lines: the cached lines, by line number. -/
structure Mem where
  cells : List Host.Cell
  poisoned : Sparse Bool
  away : Sparse Byte
  awayPoison : Sparse Bool
  lines : Sparse CLine
deriving DecidableEq, Repr

/-! ## Cores -/

/-- An entry of the store buffer (R181): one 16-byte block, the bytes held (by physical address), one region type.
va and lvl are kept for the report of R151. sent: a Device-strict entry that is issued and waits for its target (R190). -/
structure SbEntry where
  pa : Nat
  bytes : List (Nat × Byte)
  rtype : RType
  va : W64
  lvl : Nat
  tag : AccessTag
  sent : Bool
deriving DecidableEq, Repr

/-- The regimes of R199. -/
inductive Regime where
  | uk | h | m
deriving DecidableEq, Repr

/-- A joined translation (R208), tagged as R209 gives. page: VA / 2^size; frame: PA / 2^size; ipa: IPA / 2^size. The six stage-1
permissions and the three of stage 2 (R204). en: stage 1 was translated; without it the half is identity (R200) and only stage 2 was walked. -/
structure TlbEntry where
  regime : Regime
  en : Bool
  vmid : Nat
  asid : Nat
  glob : Bool
  size : Nat
  page : Nat
  frame : Nat
  ipa : Nat
  rtype : RType
  ur : Bool
  uw : Bool
  ux : Bool
  pr : Bool
  pw : Bool
  px : Bool
  s2r : Bool
  s2w : Bool
  s2x : Bool
deriving DecidableEq, Repr

/-- What a walk cache entry holds (R208): the next table that the stage-1 table descriptor of a level gives for the addresses of one prefix
(VA / 2^(39 - 9 * level)), or the leaf of a stage-2 walk for an IPA page of a size, with its level. -/
inductive WalkItem where
  | table (lvl pre next : Nat)
  | leaf (size page lvl : Nat) (desc : W64)
deriving DecidableEq, Repr

/-- An entry of the walk cache, tagged as R209 gives. -/
structure WalkEntry where
  regime : Regime
  vmid : Nat
  asid : Nat
  item : WalkItem
deriving DecidableEq, Repr

/-- A report that waits for its level (R151, R164, R165). -/
structure AsyncRep where
  vec : Nat
  tgt : Nat
  multi : Bool
  asyncBit : Bool
  wnr : Bool
  far : W64
deriving DecidableEq, Repr

/-- A load that waits for a response from outside the device (R122): its register and width; va: its address; far, pa: the lowest byte that lies
outside, by both addresses (R147, R229); known: the bytes that memory gave, by their offset in the load; base: the base update that a load
from a Normal region still owes (R86). -/
structure LoadWait where
  rt : Nat
  fp : Bool
  size : Nat
  sext : Bool
  device : Bool
  va : W64
  far : W64
  pa : Nat
  known : List (Nat × Byte)
  base : Option (Nat × W64)
deriving DecidableEq, Repr

/-- What a core waits for: an event (WEV), an event or a time (WTU), a grant (TAKE), a barrier's condition (R110: 0
FENCE.C, 1 FENCE.K, 2 FENCE.S), the acknowledgement of a Device-strict store (R190), or the response of a load outside the device (R122). -/
inductive Wait where
  | none
  | wev
  | wtu (rx : Nat) (deadline : W64)
  | take (rd : Nat)
  | barrier (kind : Nat)
  | ack
  | load (w : LoadWait)
deriving DecidableEq, Repr

/-- The sleep states of one core (R481). -/
inductive Sleep where
  | run | idle | nap | doze
deriving DecidableEq, Repr

/-- A result that a late-writeback instruction still owes to the register file (R119): the unit (0x25 or 0x26), the
register, the value, and the FCSR flags it raises (R120). Until it is written, a read of the register gives it: the
scoreboard holds every reader until then. A result for g0 or g31 is entered for its residue check only. -/
structure LateWb where
  unit : Nat
  rd : Nat
  fp : Bool
  value : W64
  flags : W64
deriving DecidableEq, Repr

/-- A predictor context (R132): level, VMID, ASID and PSKEY.KEY; the world follows from the level (R79). -/
structure PredCtx where
  lvl : Nat
  vmid : Nat
  asid : Nat
  key : Nat
deriving DecidableEq, Repr

/-- The branch types of R128. -/
inductive BrKind where
  | cond | jump | call | indirect | ret
deriving DecidableEq, Repr

/-- A BTB entry (R128): the context slot it belongs to, the branch's address, its type and target. -/
structure BtbEntry where
  slot : Nat
  pc : W64
  kind : BrKind
  target : W64
deriving DecidableEq, Repr

/-- A two-bit direction counter (R128) with its context slot; 2 and 3 predict taken. -/
structure DirCtr where
  slot : Nat
  count : Nat
deriving DecidableEq, Repr

/-- A prediction that the front end formed (R130): the branch, the next PC predicted, and whether the BTB gave it in F1 or the static rule at DP;
kind, target: what the branch is. -/
structure Prediction where
  pc : W64
  next : W64
  f1 : Bool
  kind : BrKind
  target : W64
deriving DecidableEq, Repr

/-- The prediction structures (R128, R132). slots: the context slots in use by number, most recently used first (at most 8); btb: the 512 sets,
newest entry first (at most 4); dir: the 8,192 direction counters; ghist: the global history of 13 outcomes; ras: the return stack, newest
first (at most 16), each entry with its slot; last: the last prediction. Not architectural state (R46). -/
structure Predictor where
  slots : List (Nat × PredCtx)
  btb : Sparse (List BtbEntry)
  dir : Sparse (Option DirCtr)
  ghist : BitVec 13
  ras : List (Nat × W64)
  last : Option Prediction
deriving DecidableEq, Repr

/-- A logical core (R65 and the registers of the other chapters). gs, fs and sr list the registers that differ from
zero or from their reset value. resv: the reservation's granule; hold: how many more instructions of class I0 the hold of its line covers
(R105); overlaid: the bytes of the granule that other requesters' delayed writes give; report: the pending report of a store (R151); loadRep: that
of a Device load (R165). iTlb, dTlb: the micro-TLBs; tlb: the main TLB; walks: the walk cache (R208), newest first. side: the lines of the
prefetch side buffer, most recently used first (R220). retryEtc: the ETC of the retries within the last 1 ms (R166); lastTag: the tag of
the last committed access (R171). mEpc, mStat: MENTRY (R438); restart: a restart entry is due (R441), and whether the core was abandoned. -/
structure Core where
  pc : W64
  gs : Sparse W64
  fs : Sparse W64
  spU : W64
  spK : W64
  spH : W64
  spM : W64
  fcsr : W64
  lbeg : W64
  lend : W64
  lcnt : W64
  stat : W64
  sr : Sparse W64
  resv : Option Nat
  hold : Option Nat
  overlaid : List Nat
  emgK : Bool
  emgH : Bool
  emgM : Bool
  report : Option AsyncRep
  loadRep : Option AsyncRep
  sbuf : List SbEntry
  iTlb : List TlbEntry
  dTlb : List TlbEntry
  tlb : List TlbEntry
  walks : List WalkEntry
  side : List Nat
  late : List LateWb
  wait : Wait
  sleep : Sleep
  released : Bool
  checkStopped : Bool
  halted : Bool
  stepping : Bool
  itr : Bool
  retries : Nat
  retryEtc : List W64
  lastRetry : Nat
  lastTag : Option AccessTag
  cmrLvl : Nat
  missLine : Option Nat
  missStride : Option Int
  pred : Predictor
  mEpc : W64
  mStat : Nat
  restart : Option Bool
deriving DecidableEq, Repr

/-- The reset value of a system register by number (the tables of the chapters; notation x reads 0 by log entry 2). -/
def srReset (n : Nat) : W64 :=
  if n = 0x888 ∨ n = 0xC88 then 0xF       -- MLVCAP_K, MLVCAP_H
  else if n = 0x500 then 2                -- PFCTL.DEPTH = 1
  else 0

/-- A predictor with every entry invalid (R133). -/
def Predictor.empty : Predictor := { slots := [], btb := [], dir := [], ghist := 0, ras := [], last := none }

/-- A logical core after reset: level M, sealed, MLV 0xF (STAT's table), not released (R471). Registers whose reset
value is x hold 0 (log entry 2). -/
def Core.reset : Core :=
  { pc := 0, gs := [], fs := [], spU := 0, spK := 0, spH := 0, spM := 0, fcsr := 0, lbeg := 0, lend := 0, lcnt := 0,
    stat := 0xF7, sr := [], resv := none, hold := none, overlaid := [], emgK := false, emgH := false, emgM := false, report := none,
    loadRep := none, sbuf := [], iTlb := [], dTlb := [], tlb := [], walks := [], side := [], late := [], wait := .none, sleep := .run,
    released := false, checkStopped := false, halted := false, stepping := false, itr := false, retries := 0, retryEtc := [],
    lastRetry := 0, lastTag := none, cmrLvl := 0, missLine := none, missStride := none, pred := Predictor.empty, mEpc := 0, mStat := 0,
    restart := none }

/-- What kind of thing leaves the device. -/
inductive OutKind where
  | hostWrite | hostRead | hostCpl | msi | relay | adapter | safe | trace | pin | nvm | uart | power | tdo | answer
deriving DecidableEq, Repr
/-! ## Host endpoint -/

/-- A PCIe function (R395-R416): 0 = PF0, 1-255 = VF: its Command bits, power state, MSI-X control, Device Control fields and the
configuration dwords that software wrote. -/
structure HostFn where
  bme : Bool
  mse : Bool
  intxOff : Bool
  d3 : Bool
  msixEn : Bool
  fnMask : Bool
  rangeB : Bool
  tag10 : Bool
  fenced : Bool
  cfg : Sparse W32
  aer : Nat
deriving DecidableEq, Repr

/-- A function after reset. -/
def HostFn.reset : HostFn :=
  { bme := false, mse := false, intxOff := false, d3 := false, msixEn := false, fnMask := false, rangeB := false,
    tag10 := false, fenced := false, cfg := [], aer := 0 }

/-- The programmable registers of a ring page (R400): SQBASEL, SQBASEH, CQBASEL, CQBASEH, RPCFG, RPINTR; and RPSTAT's BUSY
and RESULT. -/
structure RingPage where
  sqL : W32
  sqH : W32
  cqL : W32
  cqH : W32
  cfg : W32
  intr : W32
  busy : Bool
  result : Nat
deriving DecidableEq, Repr

/-- A ring page after FLR. -/
def RingPage.reset : RingPage :=
  { sqL := 0, sqH := 0, cqL := 0, cqH := 0, cfg := 0, intr := 0, busy := false, result := 0 }

/-- An MSI-X table entry: address, data and vector control, whose bit 0 masks it (R406). -/
structure MsixEntry where
  addrL : W32
  addrH : W32
  data : W32
  ctl : W32
deriving DecidableEq, Repr

/-- An MSI-X entry after reset: masked. -/
def MsixEntry.reset : MsixEntry := { addrL := 0, addrH := 0, data := 0, ctl := 1 }

/-- Who waits for a read outside the device: an operation, at an address; a ring pair's SQ entry; a load of a core, from an offset in it; a peer's back-read, with
the peer's index and tag (R384). -/
inductive ReadFor where
  | op (slot : Nat) (addr : Nat) (len : Nat) | ring (q : Nat) | core (c off : Nat) | back (dev tag : Nat)
deriving DecidableEq, Repr

/-- An outstanding read to the host (R408), by tag. squashed: ended by an FLR, its tag kept out of use (R412). -/
structure HostRead where
  fn : Nat
  who : ReadFor
  squashed : Bool
deriving DecidableEq, Repr

/-- The endpoint's state that no MMIO register shows. pages: ring pages by pair; msix, pba: by 64 * function + entry; inta: Assert_INTA
was sent last; mb: PF0's mailbox words (0-3 G2H, 4-7 H2G, 8 MBSTAT); queue: reads that wait for a tag (R408), by function, requester, address
and length. -/
structure HostEp where
  fns : Sparse HostFn
  pages : Sparse RingPage
  msix : Sparse MsixEntry
  pba : Sparse Bool
  intpend : BitVec 16
  inta : Bool
  mb : Sparse W32
  reads : Sparse (Option HostRead)
  queue : List (Nat × ReadFor × Nat × Nat)
deriving DecidableEq, Repr

/-- The endpoint after reset. -/
def HostEp.reset : HostEp :=
  { fns := [], pages := [], msix := [], pba := [], intpend := 0, inta := false, mb := [], reads := [], queue := [] }

/-! ## Channel subsystem and ledger -/

/-- A ledger slot (R294). st: its STATE code. body: address of the current CCD, CCDIDX, path, ETC of the last hand-off and
COUNT, before ENDED; image: the completion record image from ENDED on; fgen: a MIRRORED slot's
submitter GEN (R382), which the line does not hold. -/
structure Slot where
  st : Nat
  handoff : Bool
  fwd : Bool
  mirrored : Bool
  orphan : Bool
  recovered : Bool
  redisp : Nat
  ocause : Nat
  gen : Nat
  subch : Nat
  ring : Nat
  pid : Nat
  world : Bool
  sqe : Nat
  pos : Nat
  sqPos : Nat
  peer : Nat
  peerSlot : Nat
  peerSt : Nat
  etc : Nat
  bAddr : Nat
  bIdx : Nat
  bPath : Nat
  bEtc : Nat
  bCount : Nat
  image : List Byte
  fgen : Nat
deriving DecidableEq, Repr

/-- A slot with zero fields, FREE. -/
def Slot.empty : Slot :=
  { st := 0, handoff := false, fwd := false, mirrored := false, orphan := false, recovered := false, redisp := 0,
    ocause := 0, gen := 0, subch := 0, ring := 0, pid := 0, world := false, sqe := 0, pos := 0, sqPos := 0, peer := 0,
    peerSlot := 0, peerSt := 0, etc := 0, bAddr := 0, bIdx := 0, bPath := 0, bEtc := 0, bCount := 0, image := [], fgen := 0 }

/-- A channel command descriptor (R272): word 0, COUNT, ADDR, ARG, AUX and the last word. -/
structure Ccd where
  w0 : Nat
  count : Nat
  addr : Nat
  arg : Nat
  aux : Nat
  w7 : Nat
deriving DecidableEq, Repr

/-- Where an operation stands in its program: waiting for a CCD that lies in host memory; its next step not begun; a
step begun whose chain or source still waits for host memory or for the path; a WAIT step; an engine step;
a device step handed off; an interrupted dispatch waiting for a path, with the status it would end with (R288); a forwarded
step whose back-writes wait for their completions (R384). -/
inductive OpPhase where
  | fetch | ready | begun | wait (till : Nat) | engine | handed | redispatch (status : Nat) | backWrite
deriving DecidableEq, Repr

/-- What a read outside the device answered: its bytes, or the status of the failure (R282, R409). -/
inductive ExtRes where
  | bytes (bs : List Byte) | fail (status : Nat)
deriving DecidableEq, Repr

/-- The CSS's own state of an operation in flight, by ledger slot. at: the address of the step's first CCD; chain: the
CCDs of the step read so far; nread: CCDs read for the operation; idx: CCDIDX; last: the LAST value (R279); resid, diff: of
the last step ended; path: of the last device step; redisp: hand-offs repeated for this step; marked: the step's MARK
record is done; ocause: why its record will go to the log; abort: SC_ABORT asked to withdraw it; got: the reads
outside the device for the present action, by address and length, with their answers; peerOk: the DISPATCHED request of a mirrored slot was acknowledged;
asked: it was sent; out: back-writes outstanding; rep: the report that waits for them (bytes, excess, DEVSTAT). -/
structure Op where
  at_ : Nat
  chain : List Ccd
  nread : Nat
  idx : Nat
  last : Option Nat
  resid : Nat
  diff : Bool
  path : Nat
  redisp : Nat
  marked : Bool
  phase : OpPhase
  ocause : Nat
  abort : Bool
  got : List (Nat × Nat × Option ExtRes)
  peerOk : Bool
  asked : Bool
  out : Nat
  rep : Nat × Bool × Nat
deriving DecidableEq, Repr

/-- An entry of a Relay ring pair's internal SQ (R383): the SQ entry, the CCD and the submitter's CCD address, device, slot
and GEN. -/
structure FwdEntry where
  sqe : Nat
  ccd : Ccd
  pa : Nat
  dev : Nat
  slot : Nat
  gen : Nat
deriving DecidableEq, Repr

/-- A record that waits for Bus Master Enable (R411): its slot, CQ position and image, and whether it is the operation's final one. -/
structure HeldRec where
  slot : Nat
  pos : Nat
  image : List Byte
  final : Bool
deriving DecidableEq, Repr

/-- A ring pair (R264-R271). cfg, intr, sqBase, cqBase: the context record kept since RP_ENABLE; cqNext: the next CQ
position not reserved; written: positions beyond cqTail already written; reserved: CQ entries reserved for operations
(R269); since: records since the last raise; held: records that wait for Bus Master Enable (R411); got: the answer
of an SQ entry read from host memory; fwds: the internal SQ of a Relay ring pair. closing: RP_DISABLE or RP_FLUSH runs, for
CSS.CMD or, at 2, for RPCMD. -/
structure RingPair where
  enabled : Bool
  fenced : Bool
  closing : Nat
  cfg : Nat
  intr : Nat
  sqBase : Nat
  cqBase : Nat
  markskip : Nat
  sqTail : Nat
  sqHead : Nat
  cqNext : Nat
  cqTail : Nat
  cqHead : Nat
  written : List Nat
  reserved : Nat
  since : Nat
  held : List HeldRec
  asked : Bool
  got : Option ExtRes
  fwds : List FwdEntry
deriving DecidableEq, Repr

/-- A disabled ring pair. -/
def RingPair.empty : RingPair :=
  { enabled := false, fenced := false, closing := 0, cfg := 0, intr := 0, sqBase := 0, cqBase := 0, markskip := 0,
    sqTail := 0, sqHead := 0, cqNext := 0, cqTail := 0, cqHead := 0, written := [], reserved := 0, since := 0, held := [],
    asked := false, got := none, fwds := [] }

/-- The states of a subchannel (R262), in code order. -/
inductive ScState where
  | disabled | idle | active | aborting | migrating | nopath
deriving DecidableEq, Repr

/-- A subchannel (R260-R262). cfg, paths, auth, devaddr, timeout: the record kept since SC_ENABLE; idx: index of the current
path; queue: slots held, the one that executes first; drain: the target of a drain that waits (R287), with whether
it is still ONLINE; lost: a write of its record failed (R291) and its operations are being ended. -/
structure SubCh where
  st : ScState
  cfg : Nat
  paths : Nat
  auth : Nat
  devaddr : Nat
  timeout : Nat
  idx : Nat
  gen : Nat
  done : Nat
  ended : Nat
  queue : List Nat
  drain : Option (Nat × Bool)
  lost : Bool
deriving DecidableEq, Repr

/-- A subchannel that is disabled. -/
def SubCh.empty : SubCh :=
  { st := .disabled, cfg := 0, paths := 0, auth := 0, devaddr := 0, timeout := 0, idx := 0, gen := 0, done := 0, ended := 0,
    queue := [], drain := none, lost := false }

/-- An entry waiting for the recovery log (R300): an orphan slot, a lost slot (R306), or a resolution (R310, R311) with
the slot, the state to show in PEER and the BODY. -/
inductive LogEntry where
  | orphan (slot : Nat) | lost (slot : Nat) | resolution (slot : Nat) (peerSt : Nat) (body : List Byte)
deriving DecidableEq, Repr

/-- The channel subsystem (R257). rr: the ring pair served last; fresh: no format or scan has run since reset (R305);
base: the ledger base taken (R292); log: entries waiting; logStop: the log stopped (R302); faults: ring pairs whose ring fault is still to
be recorded, after what they held has returned (R50). -/
structure CssUnit where
  subs : Sparse SubCh
  rings : Sparse RingPair
  slots : Sparse Slot
  ops : Sparse (Option Op)
  rr : Nat
  fresh : Bool
  base : Nat
  log : List LogEntry
  logStop : Bool
  faults : List Nat
deriving DecidableEq, Repr

/-- The channel subsystem after reset: every ring pair and subchannel disabled. -/
def CssUnit.reset : CssUnit :=
  { subs := [], rings := [], slots := [], ops := [], rr := 0x5FF, fresh := true, base := 0, log := [], logStop := false, faults := [] }

/-! ## Vehicle adapters -/

/-- A device step that an adapter holds (R314): ledger slot, GEN, subchannel, CMD, PARAM, ARG, COUNT and, for WRITE and
CONTROL, the bytes; wait: a READ whose wait has not ended; raw header or template choice come from these. -/
structure AdStep where
  slot : Nat
  gen : Nat
  sub : Nat
  cmd : Nat
  param : Nat
  arg : Nat
  count : Nat
  data : List Byte
deriving DecidableEq, Repr

/-- An exchange on a smart-driver port (R329): chip select, OPC, SEQ, the command's bytes, and the slot of its step (none:
a NOP of the adapter); bad: the response was bad and the command goes out again (R330). -/
structure SdExchange where
  cs : Nat
  opc : Nat
  seq : Nat
  bytes : List Byte
  slot : Option Nat
  bad : Bool
deriving DecidableEq, Repr

/-- An adapter's state that no register shows. steps: the held steps in hand-off order; store: stored frames, oldest first, by
subchannel; xchg: the smart-driver exchange that runs; seq: the last SEQ of each chip select; fresh: chip selects that
begin with a NOP; tokens: each template's bucket in bits and the ETC of its last fill (R325); entry: the GCL entry that runs;
inj: frames since the last injected drop. -/
structure Adapter where
  steps : List AdStep
  store : List (Nat × List Byte)
  xchg : Option SdExchange
  seq : Sparse Nat
  fresh : Sparse Bool
  tokens : Sparse (Option (Nat × Nat))
  entry : Nat
  inj : Nat
deriving DecidableEq, Repr

/-- An adapter after reset. -/
def Adapter.reset : Adapter :=
  { steps := [], store := [], xchg := none, seq := [], fresh := [], tokens := [], entry := 0, inj := 0 }

/-! ## Mash and Kiln -/

/-- Who asked for an engine step: a channel operation by its slot, or a job channel. -/
inductive EngineFor where
  | op (slot : Nat) | job (ch : Nat)
deriving DecidableEq, Repr

/-- A step in an engine (R337): who asked, its CCD, its source pieces, COUNT with LAST resolved, the requester's tag.
started: it runs; iv: the counter that a SEAL took (R342); key: the key slot it uses; lost: that slot was cleared (R350);
err: the code it ends with at once. -/
structure EngStep where
  who : EngineFor
  ccd : Ccd
  pieces : List (Nat × Nat)
  count : Nat
  tag : AccessTag
  started : Bool
  iv : Nat
  key : Option Nat
  lost : Bool
  err : Option (Nat × Nat)
deriving DecidableEq, Repr

/-- A direct job (R356): the address of its CCD, the CCDs of its step, CCDs read, LAST, the requester's tag. -/
structure Job where
  at_ : Nat
  chain : List Ccd
  nread : Nat
  last : Option Nat
  tag : AccessTag
deriving DecidableEq, Repr

/-- Mash or Kiln: steps in order, the running one first when started; jobs by channel. -/
structure Engine where
  steps : List EngStep
  jobs : Sparse (Option Job)
deriving DecidableEq, Repr

/-- Kiln's own secrets and state: key values by slot; the root key (R347); the words that each DRBG has given since its seed;
the receive packet numbers of each SecY and association. -/
structure KilnUnit where
  keys : Sparse (List Byte)
  root : List Byte
  reads : Nat
  readsS : Nat
  rxPn : Sparse Nat
deriving DecidableEq, Repr

/-- Kiln after reset: no key. -/
def KilnUnit.reset : KilnUnit := { keys := [], root := [], reads := 0, readsS := 0, rxPn := [] }
/-! ## Relay links -/

/-- A request on VL0 that waits for its response (R366, R380), by tag: who waits for it; pa, va: the addresses of a store; a read of a core that crosses a line has two
requests (R378), each with its offset in the load. -/
inductive ReqFor where
  | coreRd (c : Nat) (off : Nat) (len : Nat)
  | coreWr (c : Nat) (device : Bool) (lvl : Nat) (va : W64) (pa : Nat)
  | op (slot : Nat) (addr : Nat) (len : Nat) (write : Bool)
  | fwd (slot : Nat) (gen : Nat)
deriving DecidableEq, Repr

/-- An outstanding request. -/
structure RelayReq where
  port : Nat
  who : ReqFor
deriving DecidableEq, Repr

/-- A Relay port's link state (R361-R373). nextSeq: SEQ of the next new frame; replay: frames not yet acknowledged, oldest
first; queue: flits that wait for a baton; sent, rcvRet, accepted, freed: the counters of R368 by VL; expect: next expected SEQ;
rx: the receive buffer, oldest first; nak: a discard episode runs; replays, replaySeq: replays in a row of one SEQ without an advance;
wr: a WR or BWR that waits for its WRD, by source; recon, reconSent: the PARAM exchange of a retrain is done, and our RECON has left; lanes: lost lanes;
since: data frames since the last ACK; inj: data frames since the last injection; alt: VL1 goes next (R367); late: a frame held back
by a reorder injection (R393); start: the ETC at which a retrain began; nbr: the index of the last neighbour that named one (R388). -/
structure Port where
  nextSeq : Nat
  replay : List (Nat × Flit)
  queue : List Flit
  sent : Sparse Nat
  rcvRet : Sparse Nat
  accepted : Sparse Nat
  freed : Sparse Nat
  expect : Nat
  rx : List Flit
  nak : Bool
  replays : Nat
  replaySeq : Nat
  wr : Sparse (Option Flit)
  recon : Bool
  reconSent : Bool
  lanes : Nat
  width : Nat
  since : Nat
  inj : Nat
  alt : Bool
  late : Option (Nat × Flit)
  start : W64
  nbr : Nat
deriving DecidableEq, Repr

/-- A port with no link. -/
def Port.reset : Port :=
  { nextSeq := 0, replay := [], queue := [], sent := [], rcvRet := [], accepted := [], freed := [], expect := 0, rx := [],
    nak := false, replays := 0, replaySeq := 0, wr := [], recon := false, reconSent := false, lanes := 0, width := 0, since := 0, inj := 0, alt := false, late := none,
    start := 0, nbr := 31 }

/-- The Relay unit (R374-R392). reqs: outstanding requests by tag; lost: devices considered lost (R388); mirrors: MIRROR and CANCEL
messages not answered (R386); noslot: keys of NOSLOT answers: submitter index, slot, GEN (R387); losses: LOSS notices not
acknowledged, by receiver and device; assign: workers whose READY is awaited; t1, t2, t3: the exchange that runs (R390); fresh: the next exchange adopts; waiting:
lost peers whose PEERWAIT runs or has run; queue: requests that wait for a tag, by the port they were for (R366); parts: by core, the answers of a load in two
requests; imgOfs, imgLen: the recovery image that ASSIGN named (R392). -/
structure RelayUnit where
  ports : Sparse Port
  reqs : Sparse (Option RelayReq)
  lost : List Nat
  mirrors : List Flit
  noslot : List (Nat × Nat × Nat)
  losses : List (Nat × Nat)
  assign : List Nat
  t1 : Nat
  t2 : Nat
  t3 : Nat
  fresh : Bool
  waiting : List Nat
  queue : List (Nat × Flit × Option (List Byte) × ReqFor)
  parts : Sparse (List (Nat × List Byte))
  imgOfs : Nat
  imgLen : Nat
deriving DecidableEq, Repr

/-- The Relay unit after reset. -/
def RelayUnit.reset : RelayUnit :=
  { ports := [], reqs := [], lost := [], mirrors := [], noslot := [], losses := [], assign := [], t1 := 0, t2 := 0, t3 := 0,
    fresh := true, waiting := [], queue := [], parts := [], imgOfs := 0, imgLen := 0 }

/-! ## Pacer -/

/-- A task that a core holds (R111, R488): its queue, word and core, by pool entry. -/
structure HeldTask where
  queue : Nat
  word : W64
  core : Nat
deriving DecidableEq, Repr

/-- The Pacer's state that no register shows (chapter Power, Operating Points and the Pacer). queues: the queued entries of each queue, head first, as pool entry
and word; held: by pool entry; waiters: the cores whose TAKE waits, longest first; last: the queue last granted by class
and priority (16 * class + PRIO); energy: E of each group in nJ (R491); refused: groups where a Paced or Elastic grant
was refused this epoch (R493); results: each requester's last push result (R488); njRest, ujRest: what QENERGY and RAILE
have not yet counted of a µJ; thermal, hot: the thermal emergency and whether a sensor exceeded 120 °C this epoch
(R490); tj: the last temperature of each group's hottest sensor in °C (R490); opTarget: the target of a group's running change; opWait: groups whose change waits, in order; capacity: the cores it
counts in each cluster (R53, R167, R172). -/
structure PacerUnit where
  queues : Sparse (List (Nat × W64))
  held : Sparse (Option HeldTask)
  waiters : List Nat
  last : Sparse Nat
  energy : Sparse Nat
  refused : Sparse Bool
  results : Sparse Nat
  njRest : Sparse Nat
  ujRest : Sparse Nat
  thermal : Bool
  hot : Bool
  tj : Sparse (BitVec 16)
  opTarget : Sparse (Option Nat)
  opWait : List (Nat × Nat)
  capacity : Sparse Nat
deriving DecidableEq, Repr

/-- The Pacer after reset: no entry, nothing measured. -/
def PacerUnit.reset : PacerUnit :=
  { queues := [], held := [], waiters := [], last := [], energy := [], refused := [], results := [], njRest := [],
    ujRest := [], thermal := false, hot := false, tj := [], opTarget := [], opWait := [], capacity := [] }

/-! ## Split trace -/

/-- A trace source (R497-R508). refPc, refData: the references of R501; lastEtc: the last emitted ETC; atoms: pending
atoms, oldest first; chunks: chunk payloads (1-14 bytes) waiting for the sink; part: the payload bytes of the chunk
being filled; lost: packets discarded since the last OVF; since: bytes since the last periodic SYNC; prior: the
state before SLEEP; resync: a SYNC reason owed before the next packet (R498). -/
structure TraceSrc where
  refPc : W64
  refData : W64
  lastEtc : W64
  atoms : List Bool
  chunks : List (List Byte)
  part : List Byte
  lost : Nat
  since : Nat
  prior : Nat
  resync : Option Nat
deriving DecidableEq, Repr

/-- A trace source after reset. -/
def TraceSrc.reset : TraceSrc :=
  { refPc := 0, refData := 0, lastEtc := 0, atoms := [], chunks := [], part := [], lost := 0, since := 0, prior := 0,
    resync := none }

/-- The trace unit: its sources, each sink's countdown (R508) and the source each sink served last (R507). -/
structure TraceUnit where
  srcs : Sparse TraceSrc
  counts : Sparse Nat
  last : Sparse Nat
deriving DecidableEq, Repr

/-- The trace unit after reset (R509). -/
def TraceUnit.reset : TraceUnit := { srcs := [], counts := [], last := [] }
/-! ## Memory controllers and cache arrays -/

/-- A stored entry that an injector has inverted bits of (R541): the structure by its error bank and UNIT, the logical core for a structure of one core
(0 for the others), the entry (a line, a register number, a 16-byte block or a doubleword of the checkpoint), the 64-bit word in it, the injector and
the number of bits. -/
structure InjMark where
  bank : Nat
  unit : Nat
  core : Nat
  key : Nat
  word : Nat
  inj : Nat
  bits : Nat
deriving DecidableEq, Repr

/-- State of the caches and controllers that no register shows. fencedWays: the fenced ways (R226) of each array as a
mask; arrays 0-7 are the L2s and 8-23 the Cellar's slices. unalloc: the lines by array that a fenced locked way held, served without allocation
until POR (R226). powerDown: DRAM channels in power-down (R238). applied: the
Ilmaro image has been applied since reset (R241 UNIT 0x03). marks: the injected entries (R541). fencedClusters: fenced clusters (R52), as a mask. -/
structure MemcUnit where
  fencedWays : Sparse Nat
  unalloc : Sparse (List Nat)
  powerDown : Sparse Bool
  applied : Bool
  fencedClusters : Nat
  marks : List InjMark
deriving DecidableEq, Repr

/-- The controllers after reset. -/
def MemcUnit.reset : MemcUnit := { fencedWays := [], unalloc := [], powerDown := [], applied := false, fencedClusters := 0, marks := [] }

/-! ## Sparing -/

/-- A trigger that the sparing controller of a cluster serves or will serve (R166): the logical core, the trigger's UNIT
and CODE, and, for a core loss, its REASON (R173). etc: the ETC at detection. req: SPAREREQ.GO asked for it. lost: the doublewords of the checkpoint
that could not be read, as a mask (R163). -/
structure SpareTrig where
  core : Nat
  unit : Nat
  code : Nat
  loss : Option Nat
  etc : W64
  req : Bool
  lost : Nat
deriving DecidableEq, Repr

/-! ## Boot -/

/-- What the ROM keeps of the booted set (R464, R470-R472): its source and slot; the SWI's ENTRY and its place (load address and
length); SECENTRY; STACKTOP and CENTRY of each core; COMPAT; SVN. sev: the first system-scope SEV has come. -/
structure Booted where
  src : Nat
  slot : Nat
  entry : Nat
  sec : Nat
  stack : List Nat
  centry : List Nat
  compat : Bool
  svn : Nat
  sev : Bool
deriving DecidableEq, Repr

/-- A recovery download or PCIe push (R473, R475): over PCIe; the manifest's bytes so far; the chunk or block expected next; the bytes of
the block that comes; whole: the manifest has passed its checks; block: the blocks that have matched. -/
structure Download where
  pcie : Bool
  man : List Byte
  next : Nat
  part : List Byte
  whole : Bool
  block : Nat
deriving DecidableEq, Repr

/-- A full boot that waits outside the ROM (R455, R473): what it finds outside; the sources that remain, the first of them the one
it waits for; the position of that source in the order; recovery: it waits in recovery download mode; the download that runs; kind: the
start that led to it (0 POR, 1 PIN, 2 WARM, 3 wake from OFF, 4 failed PARK resume). -/
structure BootRun where
  env : BootEnv
  left : List Nat
  pos : Nat
  recovery : Bool
  dl : Option Download
  kind : Nat
deriving DecidableEq, Repr

/-- The boot ROM and the sequences that wait for a row of their own. due: a start whose ROM action has not begun (R452), by the kinds
of BootRun and 5 for a wake from PARK; warm: a WARM reset requested, with its RSTCAUSE bit (2 software, 3 Fatal, 4 life cycle); lcs: the
life-cycle state being programmed; sleep: DEVSLEEP's entry has passed step 1 and drains the CSS; powerUp: the SoC supplies are being
brought up (R551); itr: words written to ITR that have not executed; snap: the configuration snapshot (R523); caskLost: a
tamper event in PARK has removed the retention supply of Cask (R253); token: the enables that tokens have set
(R443); wakeLow: the WAKEn_N pins that are low, as a mask. -/
structure BootUnit where
  due : Option Nat
  run : Option BootRun
  booted : Option Booted
  warm : Option Nat
  lcs : Option Nat
  sleep : Bool
  powerUp : Bool
  itr : Sparse (Option W32)
  snap : Sparse W32
  caskLost : Bool
  token : Nat
  wakeLow : Nat
deriving DecidableEq, Repr

/-- After POR (R520): a full boot is due. -/
def BootUnit.reset : BootUnit :=
  { due := some 0, run := none, booted := none, warm := none, lcs := none, sleep := false, powerUp := true, itr := [], snap := [], caskLost := false, token := 0, wakeLow := 0 }

/-- The TAP (R450, R451): the last bits of the boundary register and what the next Capture-DR of DAP gives. -/
structure Jtag where
  boundary : List Bool
  dap : W64
deriving DecidableEq, Repr


/-! ## The whole state -/

/-- The device's power state (R481, R484): running, in the entry window of PARK or OFF, or in it. -/
inductive DevPower where
  | run | window (off : Bool) | park | off
deriving DecidableEq, Repr

/-- The always-on domain's time and power state (R514, R516). etc: the count in ns; frac: its 6 fraction bits in PARK;
copy: the second copy that each increment compares. -/
structure Clocks where
  etc : W64
  frac : Nat
  copy : W64
  power : DevPower
deriving DecidableEq, Repr

/-- What leaves the device, oldest first (the model's own record, log entry 6): a kind, a port or number, and data. -/
structure Out where
  kind : OutKind
  port : Nat
  data : List Nat
deriving DecidableEq, Repr

/-- The state of the block. lines: the shared sources that a level line drives (R421: the board's wiring); spare: the triggers of each
cluster, oldest first (R166); adpt: the adapters by path; mash, kiln: the engines; vault: Kiln's secrets. -/
structure State where
  pending : List Instr
  regs : Sparse W32
  latch : Sparse (Option W32)
  hold : Sparse (Option W32)
  cores : Sparse Core
  mem : Mem
  clk : Clocks
  ceCount : Sparse Nat
  errOut : Bool
  fatalDue : Bool
  stopped : Bool
  host : HostEp
  trace : TraceUnit
  lines : Sparse Bool
  pacer : PacerUnit
  spare : Sparse (List SpareTrig)
  memc : MemcUnit
  css : CssUnit
  adpt : Sparse Adapter
  mash : Engine
  kiln : Engine
  vault : KilnUnit
  relay : RelayUnit
  boot : BootUnit
  jtag : Jtag
  freeCtr : Nat
  out : List Out
deriving DecidableEq, Repr

/-- A step stops here when the spec calls the behaviour undefined and gives no effect. Kept closed. -/
inductive Fault where
  /-- Never raised by a meaning: every open value of the spec is a free value, so no step of this model faults. -/
  | none
deriving DecidableEq, Repr

/-- Why a command has no meaning here. -/
inductive Refusal where
  /-- Raised by Dispatch.lean alone, for a row that has no meaning yet. Safe: the model stops. -/
  | notModelled (mnemonic : String)
deriving DecidableEq, Repr

/-- The machine right after power-on reset (POR, R520): every register at its reset value, memory with nothing listed,
no core released, nothing in flight. -/
def State.reset : State :=
  { pending := [], regs := [], latch := [], hold := [], cores := [], mem := { cells := [], poisoned := [], away := [], awayPoison := [], lines := [] },
    clk := { etc := 0, frac := 0, copy := 0, power := .run }, ceCount := [], errOut := true, fatalDue := false, stopped := false,
    host := HostEp.reset, trace := TraceUnit.reset, lines := [], pacer := PacerUnit.reset, spare := [], memc := MemcUnit.reset,
    css := CssUnit.reset, adpt := [], mash := { steps := [], jobs := [] }, kiln := { steps := [], jobs := [] }, vault := KilnUnit.reset,
    relay := RelayUnit.reset, boot := BootUnit.reset, jtag := { boundary := [], dap := 0 }, freeCtr := 0, out := [] }

end Sys2Proof.Machine
end

