-- ==== Sys2Proof/Machine/Ops.lean ====
section
/-! DEFINITION. The named operations over the register file, the cores and the units that every meaning shares:
register access, the free value, raising an interrupt source (R419-R422), the designated core (R57) and writing an
error record (R56, R62, R564). -/
namespace Sys2Proof.Machine

/-- What a meaning answers. -/
abbrev Answer := Host.Outcome State Fault Refusal

/-! ## Registers, cores, free values -/

/-- The stored value of the MMIO register at a physical address. -/
def State.reg (s : State) (a : Nat) : W32 := Sparse.get (resetAt a) s.regs a

/-- Hardware's own write of the register at an address. -/
def State.setReg (s : State) (a : Nat) (v : W32) : State := { s with regs := Sparse.set (resetAt a) s.regs a v }

/-- A field of the register at an address. -/
def State.rf (s : State) (a hi lo : Nat) : Nat := fld (s.reg a) hi lo

/-- Hardware's own write of a field. -/
def State.setRf (s : State) (a hi lo n : Nat) : State := s.setReg a (setFld (s.reg a) hi lo n)

/-- A bit of the register at an address. -/
def State.rb (s : State) (a i : Nat) : Bool := bit (s.reg a) i

/-- Hardware's own write of a bit. -/
def State.setRb (s : State) (a i : Nat) (v : Bool) : State := s.setRf a i i (b2n v)

/-- A saturating counter register goes up by k (RW/H counters of 16 or 32 bits). -/
def State.countUp (s : State) (a w k : Nat) : State := s.setRf a (w - 1) 0 (satAdd w (s.rf a (w - 1) 0) k)

/-- A 64-bit pair's stored value (R19): low word at a, high word at a + 4. -/
def State.reg64 (s : State) (a : Nat) : Nat := (s.reg a).toNat + (s.reg (a + 4)).toNat * 2 ^ 32

/-- Hardware's own write of a 64-bit pair. -/
def State.setReg64 (s : State) (a n : Nat) : State :=
  (s.setReg a (BitVec.ofNat 32 n)).setReg (a + 4) (BitVec.ofNat 32 (n / 2 ^ 32))

/-- A logical core (R65). -/
def State.core (s : State) (c : Nat) : Core := Sparse.get Core.reset s.cores c

/-- The state with a logical core replaced. -/
def State.setCore (s : State) (c : Nat) (k : Core) : State := { s with cores := Sparse.set Core.reset s.cores c k }

/-- The state with a logical core changed. -/
def State.modCore (s : State) (c : Nat) (f : Core → Core) : State := s.setCore c (f (s.core c))

/-- The next free value (log entry 3). -/
def State.free (s : State) : Nat := Config.freeNat s.freeCtr

/-- The state after a free value has been taken. -/
def State.took (s : State) : State := { s with freeCtr := s.freeCtr + 1 }

/-- n bytes of free value (log entry 3). -/
def State.freeBytes (s : State) (n : Nat) : State × List Byte :=
  ({ s with freeCtr := s.freeCtr + n }, (List.range n).map (fun i => BitVec.ofNat 8 (Config.freeNat (s.freeCtr + i))))

/-- Something leaves the device (log entry 6). -/
def State.emit (s : State) (k : OutKind) (port : Nat) (data : List Nat) : State :=
  { s with out := s.out ++ [{ kind := k, port := port, data := data }] }

/-- The number of logical cores (R24). -/
def numCores : Nat := 48

/-- The cluster of a logical core (R82, LCID). -/
def clusterOf (c : Nat) : Nat := c / 6

/-- The index of a logical core in its cluster. -/
def indexOf (c : Nat) : Nat := c % 6

/-- The physical slot that SLOTMAP gives a logical core; 7 = offline (R167, R172). -/
def State.slotOf (s : State) (c : Nat) : Nat :=
  s.rf (Reg.CLUSTER_SLOTMAP.at (clusterOf c)) (4 * indexOf c + 2) (4 * indexOf c)

/-- A logical core is online unless SLOTMAP shows slot 7 (R172). A number above 47 names an offline core (R57). -/
def State.online (s : State) (c : Nat) : Bool := decide (c < numCores) && s.slotOf c != 7

/-- The online cores among a range of numbers. -/
def State.onlineIn (s : State) (lo n : Nat) : List Nat := (List.range' lo n).filter (fun c => s.online c)

/-- Does a core's trigger wait for, or is it in, the sparing or core-loss sequence (R166)? -/
def State.sparing (s : State) (c : Nat) : Bool := (Sparse.get [] s.spare (clusterOf c)).any (fun t => t.core == c)

/-! ## A core's own registers -/

/-- STAT.LVL: 0 U, 1 K, 2 H, 3 M. -/
def Core.lvl (k : Core) : Nat := fld k.stat 1 0
/-- STAT.FPE. -/
def Core.fpe (k : Core) : Bool := bit k.stat 9
/-- STAT.FH. -/
def Core.fh (k : Core) : Bool := bit k.stat 8
/-- STAT.MLV. -/
def Core.mlv (k : Core) : Nat := fld k.stat 7 4
/-- A system register kept by number. -/
def Core.srd (k : Core) (n : Nat) : W64 := Sparse.get (srReset n) k.sr n
/-- A system register kept by number, written. -/
def Core.swr (k : Core) (n : Nat) (v : W64) : Core := { k with sr := Sparse.set (srReset n) k.sr n v }
/-- PART.PID. -/
def Core.pid (k : Core) : Nat := fld (k.srd 0x801) 5 0

/-- The stack pointer of a level (R68). -/
def Core.spOf (k : Core) (l : Nat) : W64 :=
  if l = 0 then k.spU else if l = 1 then k.spK else if l = 2 then k.spH else k.spM

/-- The stack pointer of a level, written. -/
def Core.setSpOf (k : Core) (l : Nat) (v : W64) : Core :=
  if l = 0 then { k with spU := v } else if l = 1 then { k with spK := v }
  else if l = 2 then { k with spH := v } else { k with spM := v }

/-- The value that a late-writeback instruction owes to a register, if any (R119). -/
def lateValue (fp : Bool) (r : Nat) : List LateWb → Option W64
  | [] => none
  | x :: t => if x.fp = fp ∧ x.rd = r then some x.value else lateValue fp r t

/-- One late writeback: the result goes to the register file and its flags to FCSR (R119, R120). A result for g0 is discarded, and one for
g31 stands already in its stack pointer. -/
def Core.writeLate (k : Core) (x : LateWb) : Core :=
  let k := { k with late := k.late.filter (fun y => decide (y ≠ x)), fcsr := k.fcsr ||| x.flags }
  if x.fp then { k with fs := Sparse.set 0 k.fs x.rd x.value }
  else if x.rd = 0 ∨ x.rd = 31 then k
  else { k with gs := Sparse.set 0 k.gs x.rd x.value }

/-- The results owed to one register are written: a younger writer of it waits for them (R119). -/
def Core.settleReg (k : Core) (fp : Bool) (r : Nat) : Core :=
  (k.late.filter (fun x => x.fp == fp && x.rd == r)).foldl Core.writeLate k

/-- A read of g0-g31 at the current level (R66-R68): g0 reads zero, g31 is the level's stack pointer, and a register
that a late-writeback instruction owes reads as that result. -/
def Core.g (k : Core) (r : Nat) : W64 :=
  if r = 0 then 0
  else if r = 31 then k.spOf k.lvl
  else match lateValue false r k.late with
    | some v => v
    | none => Sparse.get 0 k.gs r

/-- A write of g0-g31 at the current level: a write to g0 is discarded (R66). A result owed to the register is written first (R119). -/
def Core.setG (k : Core) (r : Nat) (v : W64) : Core :=
  if r = 0 then k
  else if r = 31 then k.setSpOf k.lvl v
  else
    let k := k.settleReg false r
    { k with gs := Sparse.set 0 k.gs r v }

/-- A read of f0-f31. -/
def Core.f (k : Core) (r : Nat) : W64 :=
  match lateValue true r k.late with
  | some v => v
  | none => Sparse.get 0 k.fs r

/-- A write of f0-f31. A result owed to the register is written first, with its flags (R119, R120). -/
def Core.setF (k : Core) (r : Nat) (v : W64) : Core :=
  let k := k.settleReg true r
  { k with fs := Sparse.set 0 k.fs r v }

/-- FCSR with the flags that late-writeback instructions owe (R120). -/
def Core.fcsrNow (k : Core) : W64 := k.late.foldl (fun v x => v ||| x.flags) k.fcsr

/-- A register that a unit owes: entered as late (R119), after what it was already owed. A result for g31 stands in its stack pointer at once,
and one for g0 nowhere: their entries wait for the residue check. -/
def Core.oweG (k : Core) (unit r : Nat) (v : W64) : Core :=
  let k := k.settleReg false r
  let k := if r = 31 then k.setSpOf k.lvl v else k
  { k with late := k.late ++ [{ unit := unit, rd := r, fp := false, value := v, flags := 0 }] }

/-- An f register and FCSR flags that a unit owes (R119, R120), after what it was already owed. -/
def Core.oweF (k : Core) (unit r : Nat) (v flags : W64) : Core :=
  let k := k.settleReg true r
  { k with late := k.late ++ [{ unit := unit, rd := r, fp := true, value := v, flags := flags }] }

/-- Every outstanding late writeback is written, oldest first (R119: what captures register state waits for them). -/
def Core.settle (k : Core) : Core := k.late.foldl (fun k x => k.writeLate x) k

/-- Is level M closed: a sealed-world restart was requested (R440), or its verification failed (R442)? -/
def State.mClosed (s : State) : Bool := s.rb Reg.SYSCTL_SRSTAT.at 31 || s.rb Reg.SYSCTL_SRSTAT.at 30

/-- Is an entry of a core to M held (R440)? -/
def State.mHeld (s : State) (c : Nat) : Bool := s.mClosed && (s.core c).lvl != 3

/-- Does an abandoned core wait for its restart entry (R439, R442)? -/
def State.abandoned (s : State) (c : Nat) : Bool := s.mClosed && (s.core c).restart == some true

/-- The access tag of a core at a level (R38, R79). -/
def Core.tagAt (k : Core) (c l : Nat) : AccessTag :=
  if l = 3 then { world := true, pid := 63, cls := 0, src := c }
  else if l = 2 then { world := false, pid := 0, cls := 0, src := c }
  else { world := false, pid := k.pid, cls := 0, src := c }

/-- The access tag that a core carries now. -/
def Core.tag (k : Core) (c : Nat) : AccessTag := k.tagAt c k.lvl

/-! ## Interrupt sources -/

/-- An edge on the source whose status register is at an address (R422): PEND is set; an edge that finds PEND set is
merged. -/
def State.edgeAt (s : State) (a : Nat) : State :=
  if s.rb a 0 then s.setRb a 2 true else s.setRb a 0 true

/-- A private source of a core is raised as an edge (R420). A core above 47 names none. -/
def State.raisePrivate (s : State) (c p : Nat) : State :=
  if c < numCores ∧ p < 32 then s.edgeAt (Reg.INTD_PSTAT.at c p) else s

/-- A shared source is raised as an edge event (R421). -/
def State.raiseShared (s : State) (n : Nat) : State :=
  if n < 1024 then s.edgeAt (Reg.INTD_SSTAT.at n) else s

/-! ## Error records -/

/-- Severities of R56. -/
inductive Sev where
  | corrected | deferred | contained | fatal
deriving DecidableEq, Repr

/-- SEV code of a severity (R56). -/
def Sev.code : Sev → Nat
  | .corrected => 0 | .deferred => 1 | .contained => 2 | .fatal => 3

/-- An error to be recorded. -/
structure ErrRec where
  bank : Nat
  unit : Nat
  code : Nat
  sev : Sev
  poison : Bool := false
  fence : Bool := false
  addr : Option Nat := none
  tag : Option AccessTag := none
  misc0 : Nat := 0
  misc1 : Nat := 0
  misc2 : Nat := 0
  misc3 : Nat := 0
deriving DecidableEq, Repr

/-- The designated core under R57: PRIMARY (or SPRIMARY), then ALT, then the lowest-numbered online core. -/
def State.designated (s : State) (sealedRec : Bool) : Option Nat :=
  let first := if sealedRec then s.rf Reg.ERRREC_ROUTE.at 21 16 else s.rf Reg.ERRREC_ROUTE.at 5 0
  let alt := s.rf Reg.ERRREC_ROUTE.at 13 8
  if s.online first then some first
  else if s.online alt then some alt
  else (s.onlineIn 0 numCores).head?

/-- Is the record delivered to the sealed-world core (R57)? -/
def ErrRec.toSealed (e : ErrRec) : Bool :=
  e.bank == 33 || e.bank == 36 ||
  ((e.sev == .deferred || e.sev == .contained) && (match e.tag with | some t => t.world | none => false))

/-- The interrupt to the designated core: private source 8, or 9 for sealed-world records (R420). -/
def State.errInterrupt (s : State) (sealedRec : Bool) : State :=
  match s.designated sealedRec with
  | none => s
  | some c => s.raisePrivate c (if sealedRec then 9 else 8)

/-- REC_TAG of a tag (R62's table). -/
def tagWord (t : Option AccessTag) : W32 :=
  match t with
  | none => 0
  | some t => BitVec.ofNat 32 (2 ^ 31 + b2n t.world * 2 ^ 24 + t.pid % 64 * 2 ^ 16 + t.cls % 8 * 2 ^ 8 + t.src % 256)

/-- Does slot i of a bank hold a record? -/
def State.slotValid (s : State) (b i : Nat) : Bool := s.rb (Reg.ERRREC_REC_STATUS.at b i) 0

/-- VALID_CNT of a bank and its SUMMARY bit, as its slots give them (R62). -/
def State.refreshBank (s : State) (b : Nat) : State :=
  let n := ((List.range 16).filter (fun i => s.slotValid b i)).length
  let s := s.setRf (Reg.ERRREC_BANK_STATUS.at b) 4 0 n
  if b < 32 then s.setRb Reg.ERRREC_SUMMARY_LO.at b (n != 0) else s.setRb Reg.ERRREC_SUMMARY_HI.at (b - 32) (n != 0)

/-- The words of a record go into slot i of its bank, with the ETC at detection. -/
def State.fillSlot (s : State) (e : ErrRec) (i : Nat) : State :=
  let b := e.bank
  let st := e.code % 256 * 2 ^ 16 + e.unit % 256 * 2 ^ 8 + b2n e.poison * 16 + b2n e.fence * 8 + e.sev.code * 2 + 1
  let s := s.setReg (Reg.ERRREC_REC_STATUS.at b i) (BitVec.ofNat 32 st)
  let s := s.setReg (Reg.ERRREC_REC_TAG.at b i) (tagWord e.tag)
  let a := e.addr.getD 0
  let s := s.setReg (Reg.ERRREC_REC_ADDR_LO.at b i) (BitVec.ofNat 32 a)
  let s := s.setReg (Reg.ERRREC_REC_ADDR_HI.at b i)
    (BitVec.ofNat 32 (b2n e.addr.isSome * 2 ^ 31 + a / 2 ^ 32 % 2 ^ 12))
  let s := s.setReg64 (Reg.ERRREC_REC_ETC_LO.at b i) s.clk.etc.toNat
  let s := s.setReg (Reg.ERRREC_REC_MISC.at b i 0) (BitVec.ofNat 32 e.misc0)
  let s := s.setReg (Reg.ERRREC_REC_MISC.at b i 1) (BitVec.ofNat 32 e.misc1)
  let s := s.setReg (Reg.ERRREC_REC_MISC.at b i 2) (BitVec.ofNat 32 e.misc2)
  let s := s.setReg (Reg.ERRREC_REC_MISC.at b i 3) (BitVec.ofNat 32 e.misc3)
  s.refreshBank b

/-- The slot of a valid Corrected record with the same UNIT, CODE and address (R62). -/
def State.mergeSlot (s : State) (e : ErrRec) : Option Nat :=
  (List.range 16).find? (fun i =>
    let st := s.reg (Reg.ERRREC_REC_STATUS.at e.bank i)
    let hi := s.reg (Reg.ERRREC_REC_ADDR_HI.at e.bank i)
    let lo := s.reg (Reg.ERRREC_REC_ADDR_LO.at e.bank i)
    bit st 0 && fld st 2 1 == 0 && fld st 15 8 == e.unit && fld st 23 16 == e.code &&
    (match e.addr with
     | none => !bit hi 31
     | some a => bit hi 31 && lo.toNat + fld hi 11 0 * 2 ^ 32 == a))

/-- The lowest-numbered free slot of a bank. -/
def State.freeSlot (s : State) (b : Nat) : Option Nat := (List.range 16).find? (fun i => !s.slotValid b i)

/-- The Corrected record with the lowest ETC, if any (R62). DESIGN CHOICE (log entry 43): of records with equal ETC, the one in the lowest slot. -/
def State.oldestCorrected (s : State) (b : Nat) : Option Nat :=
  (List.range 16).foldl (fun (best : Option Nat) i =>
    let st := s.reg (Reg.ERRREC_REC_STATUS.at b i)
    if bit st 0 && fld st 2 1 == 0 then
      match best with
      | none => some i
      | some j => if s.reg64 (Reg.ERRREC_REC_ETC_LO.at b i) < s.reg64 (Reg.ERRREC_REC_ETC_LO.at b j) then some i else best
    else best) none

/-- Storing a record under R62: merged by MULTI, in the lowest free slot, over a Corrected record, or counted as
overflow. The slot is answered where the record is stored or merged. -/
def State.storeRecord (s : State) (e : ErrRec) : State × Option Nat :=
  let beyond : State × Option Nat :=
    ((s.setRb (Reg.ERRREC_BANK_STATUS.at e.bank) 8 true).countUp (Reg.ERRREC_BANK_OVFCNT.at e.bank) 16 1, none)
  match (if e.sev = .corrected then s.mergeSlot e else none) with
  | some i => (s.setRb (Reg.ERRREC_REC_STATUS.at e.bank i) 5 true, some i)
  | none =>
    match s.freeSlot e.bank with
    | some i => (s.fillSlot e i, some i)
    | none =>
      if e.sev = .contained ∨ e.sev = .fatal then
        match s.oldestCorrected e.bank with
        | some i => (s.fillSlot e i, some i)
        | none => beyond
      else beyond

/-- The bank's Corrected count (R564): the designated core is interrupted each time it reaches a nonzero CE_THRESH. -/
def State.countCorrected (s : State) (e : ErrRec) : State :=
  let th := s.rf (Reg.ERRREC_BANK_CTL.at e.bank) 7 0
  if th = 0 then s
  else
    let n := Sparse.get 0 s.ceCount e.bank + 1
    if n ≥ th then { s with ceCount := Sparse.set 0 s.ceCount e.bank 0 }.errInterrupt e.toSealed
    else { s with ceCount := Sparse.set 0 s.ceCount e.bank n }

/-- The route of a severity (R56): Corrected counts, Deferred and Contained interrupt, Fatal starts the Fatal sequence
(R58), whether or not the record was stored. -/
def State.routeError (s : State) (e : ErrRec) : State :=
  match e.sev with
  | .corrected => s.countCorrected e
  | .deferred | .contained => s.errInterrupt e.toSealed
  | .fatal => { s with fatalDue := true }

/-- An error is recorded and routed (R56, R62, R564), with the slot it went to. -/
def State.recordSlot (s : State) (e : ErrRec) : State × Option Nat :=
  let (s, i) := s.storeRecord e
  (s.routeError e, i)

/-- An error is recorded and routed (R56, R62, R564). -/
def State.record (s : State) (e : ErrRec) : State := (s.recordSlot e).1

/-! ## Bit injection (R541) -/

/-- Is an error found, and is it uncorrectable? none: no error. -/
def eccFound : Ecc → Option Bool
  | .ok => none
  | .corrected | .injCorrected _ => some false
  | .uncorrectable | .injUncorrectable _ => some true

/-- The line that an injector's BINJ_ADDR names. -/
def State.injLine (s : State) (i : Nat) : Nat :=
  (s.rf (Reg.DEBUG_BINJ_ADDR_LO.at i) 31 6) + s.rf (Reg.DEBUG_BINJ_ADDR_HI.at i) 11 0 * 2 ^ 26

/-- Does injector i, armed, act on a write of a structure (R541)? c: the logical core whose structure it is (for L2,
any core of the cluster); line: the line written, for a cache or Tun. -/
def State.injActs (s : State) (i bank unit : Nat) (c line : Option Nat) : Bool :=
  let r := s.reg (Reg.DEBUG_BINJ_CTL.at i)
  bit r 31 && fld r 15 10 == bank && fld r 23 16 == unit &&
  (match c with
   | none => true
   | some c =>
     (if unit = 0x10 ∨ unit = 0x11 then clusterOf c == clusterOf (fld r 29 24) else c == fld r 29 24) &&
     !((s.core (fld r 29 24)).lvl == 3 && !s.rb Reg.DEBUG_AUTH.at 3)) &&
  (match line with
   | none => true
   | some n => n == s.injLine i)

/-- Is a mark on an entry of a structure? word: any of the entry's, or one. -/
def InjMark.on (m : InjMark) (bank unit core key : Nat) (word : Option Nat) : Bool :=
  m.bank == bank && m.unit == unit && m.core == core && m.key == key && (match word with | some w => m.word == w | none => true)

/-- The marks of an entry go: it has been rewritten (R541). -/
def State.unmark (s : State) (bank unit core key : Nat) (word : Option Nat) : State :=
  { s with memc := { s.memc with marks := s.memc.marks.filter (fun m => !m.on bank unit core key word) } }

/-- A write of an entry of a structure meets the injectors (R541): what an earlier injection left in the entry goes; the lowest-numbered injector that
names it inverts bits and marks it, COUNT goes down, DONE up, and ARM clears at 0. c, line: as in injActs; key, word: the entry and its
word written, none for all of it. -/
def State.injectWrite (s : State) (bank unit : Nat) (c line : Option Nat) (key : Nat) (word : Option Nat) : State :=
  let core := if unit = 0x10 ∨ unit = 0x11 then 0 else c.getD 0
  let s := s.unmark bank unit core key word
  match (List.range 4).find? (fun i => s.injActs i bank unit c line) with
  | none => s
  | some i =>
    let a := Reg.DEBUG_BINJ_CTL.at i
    let n := max 1 (s.rf a 7 0) - 1
    let m : InjMark := { bank := bank, unit := unit, core := core, key := key, word := word.getD 0, inj := i, bits := max 1 (s.rf a 9 8) }
    let s := { s with memc := { s.memc with marks := m :: s.memc.marks } }
    let s := (s.setRf a 7 0 n).countUp (Reg.DEBUG_BINJ_STAT.at i) 16 1
    if n = 0 then s.setRb a 31 false else s

/-- What a check finds in an entry (R541, R543): an entry that holds an injection gives an injected finding, of the combined severity. -/
def State.foundAt (s : State) (bank unit core key : Nat) (e : Ecc) : Ecc :=
  match s.memc.marks.find? (fun m => m.on bank unit core key none) with
  | none => e
  | some m => if m.bits ≥ 2 ∨ eccFound e = some true then .injUncorrectable m.inj else .injCorrected m.inj

/-- A line is filled or written at a place: the cache structures of R542 there meet the injectors. word: the word written, none for a fill. -/
def State.injectCopy (s : State) (n : Nat) (word : Option Nat) : CopyAt → State
  | .l1d c => (s.injectWrite (1 + clusterOf c) 0x00 (some c) (some n) n word).injectWrite (1 + clusterOf c) 0x01 (some c) (some n) n word
  | .l1i c => (s.injectWrite (1 + clusterOf c) 0x02 (some c) (some n) n word).injectWrite (1 + clusterOf c) 0x03 (some c) (some n) n word
  | .l2 k => (s.injectWrite (1 + k) 0x10 (some (6 * k)) (some n) n word).injectWrite (1 + k) 0x11 (some (6 * k)) (some n) n word
  | .cellar => (s.injectWrite 9 0x00 none (some n) n word).injectWrite 9 0x01 none (some n) n word
  | .lineBuf _ | .side _ | .evictL1 _ _ | .evictL2 _ _ => s

/-- A line of memory is written: Tun SRAM meets the injectors (R542). -/
def State.injectTun (s : State) (n : Nat) (word : Option Nat) : State :=
  if 0x80000 ≤ n ∧ n < 0xC0000 then s.injectWrite 32 0x00 none (some n) n word else s

/-- A changed register of two register files, lowest first. -/
def changedRegs (a b : Sparse W64) : List Nat := (List.range 32).filter (fun r => Sparse.get 0 a r != Sparse.get 0 b r)

end Sys2Proof.Machine
end

