-- ==== Sys2Proof/Machine/MemOps.lean ====
section
/-! DEFINITION. Memory and the fabric: the address decode (R27-R32), the tiers' mappings (R231, R236, R237), the region
gates (R243-R246), poison (R229, R240), and reads and writes by any requester with the caches kept coherent (R25). -/
namespace Sys2Proof.Machine

/-- Where a physical address leads (R27): ctrl is a memory controller number (0-5 QDR, 6-21 DRAM, 22 Tun, 23 Cask) with
the offset inside its window. -/
inductive Place where
  | rom
  | regs
  | tier (ctrl : Nat) (offset : Nat)
  | host
  | relay (i : Nat)
  | unmapped
deriving DecidableEq, Repr

/-! ## Populated sizes and mappings -/

/-- Populated QDR bytes (R29, R231). -/
def State.qdrSize (s : State) : Nat :=
  popCount 6 (s.rf Reg.MEMC_QTIER.at 21 16) * s.rf Reg.MEMC_QTIER.at 15 8 * 2 ^ 20

/-- The usable bytes of the DRAM tier: 31/32 of the installed capacity (R29, R236). -/
def State.dramSize (s : State) : Nat :=
  popCount 16 (s.rf Reg.MEMC_DTIER.at 23 8) * s.rf Reg.MEMC_DTIER.at 7 0 * 2 ^ 29 / 32 * 31

/-- The k-th set bit of the first n bits of v, counting ranks from 0. -/
def nthSet : Nat → Nat → Nat → Nat → Nat
  | 0, i, _, _ => i
  | n + 1, i, k, v =>
    if v % 2 = 1 then (if k = 0 then i else nthSet n (i + 1) (k - 1) (v / 2)) else nthSet n (i + 1) k (v / 2)

/-- The QDR port of a window offset (R231). -/
def State.qdrPort (s : State) (w : Nat) : Nat :=
  let pres := s.rf Reg.MEMC_QTIER.at 21 16
  let n := popCount 6 pres
  if s.rb Reg.MEMC_QTIER.at 24 then nthSet 6 0 (w / 64 % n) pres
  else nthSet 6 0 (w / (s.rf Reg.MEMC_QTIER.at 15 8 * 2 ^ 20)) pres

/-- The port-local offset of a QDR window offset (R231). -/
def State.qdrLocal (s : State) (w : Nat) : Nat :=
  let n := popCount 6 (s.rf Reg.MEMC_QTIER.at 21 16)
  if s.rb Reg.MEMC_QTIER.at 24 then w / 64 / n * 64 + w % 64 else w % (s.rf Reg.MEMC_QTIER.at 15 8 * 2 ^ 20)

/-- The channel rank and channel-local data offset of a DRAM window offset W (R236). -/
def dramRankLocal (c w : Nat) : Nat × Nat :=
  if c = 16 then (nfld w 11 8 ^^^ nfld w 19 16, w / 2 ^ 12 * 2 ^ 8 + w % 256)
  else if c = 8 then (nfld w 10 8 ^^^ nfld w 18 16, w / 2 ^ 11 * 2 ^ 8 + w % 256)
  else (nfld w 9 8 ^^^ nfld w 17 16, w / 2 ^ 10 * 2 ^ 8 + w % 256)

/-- The device byte address of a channel-local data offset: 31 data lines of each 2 KiB ECC group (R237). -/
def dramDevice (d : Nat) : Nat := d / 64 / 31 * 2048 + d / 64 % 31 * 64 + d % 64

/-- The channel of a DRAM window offset (R236). -/
def State.dramChannel (s : State) (w : Nat) : Nat :=
  let pres := s.rf Reg.MEMC_DTIER.at 23 8
  nthSet 16 0 (dramRankLocal (popCount 16 pres) w).1 pres

/-- The base of a controller's registers (the MEMC sub-block table of chapter Memory Tiers). -/
def ctrlBase (k : Nat) : Nat :=
  if k < 6 then 0x16000000 + k * 0x10000
  else if k < 22 then 0x16100000 + (k - 6) * 0x10000
  else if k = 22 then 0x16300000 else 0x16310000

/-- The error bank of a controller (R60). -/
def ctrlBank (k : Nat) : Nat := 10 + k

/-- Is a bank of Tun (or Cask) fenced (R255)? -/
def State.bankFenced (s : State) (ctrl bank : Nat) : Bool := s.rb (ctrlBase ctrl + 0x100 + bank * 4) 31

/-- Has the boot ROM closed itself (R32)? -/
def State.romClosed (s : State) : Bool := s.rb Reg.BOOT_BSTAT.at 31

/-- Is the device in the life-cycle state SCRAPPED (R253)? -/
def State.scrapped (s : State) : Bool := s.rf Reg.BOOT_LCS.at 2 0 == 4

/-- May the host outbound window be used: the link is up and PF0 has Bus Master Enable (R31), which D3hot counts as clear (R414)? -/
def State.hostUp (s : State) : Bool :=
  s.rb Reg.HOSTEP_LINKSTAT.at 0 && (Sparse.get HostFn.reset s.host.fns 0).bme && !(Sparse.get HostFn.reset s.host.fns 0).d3

/-- Has a device a port toward it that may carry a request (R377)? -/
def State.relayUp (s : State) (d : Nat) : Bool :=
  (List.range 6).any (fun p => nfld (s.rf (Reg.RELAY_HROUTE.at d) 5 0) p p == 1 &&
    (s.rf (Reg.RELAY_PORTSTAT.at p) 2 0 == 3 || s.rf (Reg.RELAY_PORTSTAT.at p) 2 0 == 4))

/-- The address decode of R27-R32, R255. -/
def State.decode (s : State) (a : Nat) : Place :=
  if a < 0x40000 then (if s.romClosed then .unmapped else .rom)
  else if 0x1000000 ≤ a ∧ a < 0x1200000 then
    (if s.bankFenced 23 ((a - 0x1000000) / 2 ^ 19) then .unmapped else .tier 23 (a - 0x1000000))
  else if 0x2000000 ≤ a ∧ a < 0x3000000 then
    (if s.bankFenced 22 ((a - 0x2000000) / 2 ^ 19) then .unmapped else .tier 22 (a - 0x2000000))
  else if 0x10000000 ≤ a ∧ a < 0x20000000 then (if (blockOf a).isSome then .regs else .unmapped)
  else if 0x800000000 ≤ a ∧ a < 0x900000000 then
    (if a - 0x800000000 < s.qdrSize then .tier (s.qdrPort (a - 0x800000000)) (a - 0x800000000) else .unmapped)
  else if 0x1000000000 ≤ a ∧ a < 0x5000000000 then
    (if a - 0x1000000000 < s.dramSize then .tier (6 + s.dramChannel (a - 0x1000000000)) (a - 0x1000000000) else .unmapped)
  else if 0x10000000000 ≤ a ∧ a < 0x20000000000 then .host
  else if 0x20000000000 ≤ a ∧ a < 0x3F000000000 then
    (if (a - 0x20000000000) / 2 ^ 36 = s.rf Reg.RELAY_HID.at 4 0 then .unmapped
     else .relay ((a - 0x20000000000) / 2 ^ 36))
  else .unmapped

/-- The controller-local address that REC_MISC0 holds (R241): for DRAM the device byte address. -/
def State.localAddr (s : State) (ctrl offset : Nat) : Nat :=
  if ctrl < 6 then s.qdrLocal offset
  else if ctrl < 22 then
    dramDevice (dramRankLocal (popCount 16 (s.rf Reg.MEMC_DTIER.at 23 8)) offset).2
  else offset

/-! ## Region gates -/

/-- The base address of gate i of a controller. -/
def gateAddr (ctrl i : Nat) : Nat := ctrlBase ctrl + 0x8000 + i * 0x20

/-- Does gate i, enabled, cover an address (R243)? -/
def State.gateCovers (s : State) (ctrl i a : Nat) : Bool :=
  let g := gateAddr ctrl i
  let base := s.rf g 31 12 * 2 ^ 12 + s.rf (g + 4) 11 0 * 2 ^ 32
  let lim := s.rf (g + 8) 31 12 * 2 ^ 12 + s.rf (g + 12) 11 0 * 2 ^ 32
  s.rb g 0 && decide (base ≤ a) && decide (a < lim + 4096)

/-- Is a partition fenced in ERRREC.PFENCE (R54)? -/
def State.fenced (s : State) (pid : Nat) : Bool :=
  if pid < 32 then s.rb Reg.ERRREC_PFENCE_LO.at pid else s.rb Reg.ERRREC_PFENCE_HI.at (pid - 32)

/-- The decision of a controller's gates (R243). -/
def State.gatesAllow (s : State) (ctrl : Nat) (t : AccessTag) (write : Bool) (a : Nat) : Bool :=
  if s.fenced t.pid then false
  else if !s.rb (ctrlBase ctrl) 16 then true
  else if t.world then
    (List.range' 24 8).any (fun i => s.gateCovers ctrl i a && s.rb (gateAddr ctrl i) (if write then 5 else 4))
  else
    !(List.range' 24 8).any (fun i => s.gateCovers ctrl i a && s.rb (gateAddr ctrl i) 3) &&
    (List.range 24).any (fun i => s.gateCovers ctrl i a &&
      (let r := gateAddr ctrl i + (if write then 0x18 else 0x10)
       if t.pid < 32 then s.rb r t.pid else s.rb (r + 4) (t.pid - 32)))

/-- Why an access completes with an error response. -/
inductive AccErr where
  | unmapped    -- R28: bank 0 record
  | refused     -- R246: record in the controller's bank
  | busy        -- Cask during a wipe (R252): no record
  | linkDown    -- host window closed (R31): no record
  | poisoned    -- R229
deriving DecidableEq, Repr

/-- The decode-error record of R28. -/
def State.recordUnmapped (s : State) (t : AccessTag) (a : Nat) : State :=
  s.record { bank := 0, unit := 0x00, code := 0x08, sev := .deferred, addr := some a, tag := some t }

/-- Is an address in the ledger or mirror of slots (R292), for the severity of a refusal (R241, R312)? -/
def State.inLedger (s : State) (a : Nat) : Bool :=
  let b := s.rf Reg.CSS_LBASE_LO.at 31 19 * 2 ^ 19 + s.rf Reg.CSS_LBASE_HI.at 11 0 * 2 ^ 32
  decide (b ≤ a) && decide (a < b + 0x80000)

/-- The record of a gate refusal (R241 UNIT 0x04) and the controller's REFUSECNT. -/
def State.recordRefusal (s : State) (ctrl offset : Nat) (t : AccessTag) (a : Nat) : State :=
  let s := s.countUp (ctrlBase ctrl + 8) 32 1
  s.record { bank := ctrlBank ctrl, unit := 0x04, code := 0x09,
             sev := if t.cls = 1 ∧ t.src = 0xFF ∧ s.inLedger a then .fatal else .deferred,
             addr := some a, tag := some t, misc0 := s.localAddr ctrl offset }

/-- A DRAM channel leaves power-down for an access (R238). -/
def State.wakeChannel (s : State) (ctrl : Nat) : State :=
  if 6 ≤ ctrl ∧ ctrl < 22 then { s with memc := { s.memc with powerDown := Sparse.set false s.memc.powerDown (ctrl - 6) false } }
  else s

/-- The check that an access meets before it reaches memory: decode, the wipe of Cask, the gates. On an error the
record that the spec gives is written. Accesses to the register region by other requesters than cores and the debug
port are unmapped (R36). DESIGN CHOICE (log entry 43): the boot ROM region is readable (R32), and a write to it counts as an access to an
unmapped address. -/
def State.admits (s : State) (t : AccessTag) (write : Bool) (a : Nat) : State × Option AccErr :=
  match s.decode a with
  | .rom => if write then (s.recordUnmapped t a, some .unmapped) else (s, none)
  | .regs => if t.cls = 0 ∨ t.cls = 6 then (s, none) else (s.recordUnmapped t a, some .unmapped)
  | .tier ctrl off =>
    if ctrl = 23 ∧ s.rb Reg.MEMC_CASK_WIPE.at 8 then (s, some .busy)
    else if (ctrl = 23 ∧ s.scrapped) ∨ !s.gatesAllow ctrl t write a then
      (s.recordRefusal ctrl off t a, some .refused)
    else (s.wakeChannel ctrl, none)
  | .host => if s.hostUp then (s, none) else (s, some .linkDown)
  | .relay i => if s.relayUp i then (s, none) else (s, some .linkDown)
  | .unmapped => (s.recordUnmapped t a, some .unmapped)

/-! ## Bytes, lines and copies -/

/-- What an unlisted address reads as: zero (log entry 5). -/
def memDefault : Byte := 0

/-- A byte of the memory behind the caches. -/
def Mem.cell (m : Mem) (a : Nat) : Byte := Sparse.get memDefault m.cells a

/-- The memory with a byte written, in canonical form. -/
def Mem.setCell (m : Mem) (a : Nat) (v : Byte) : Mem := { m with cells := Sparse.set memDefault m.cells a v }

/-- The memory with bytes written upward from an address. -/
def Mem.setCells (m : Mem) (a : Nat) : List Byte → Mem
  | [] => m
  | b :: bs => (m.setCell a b).setCells (a + 1) bs

/-- The canonical form of memory: addresses strictly rise and no entry equals the unlisted value; the same for what no address reaches and for
the tables of poisoned and of cached lines. -/
def Mem.wf (m : Mem) : Bool :=
  Sparse.wf (fun _ => memDefault) m.cells && Sparse.wf (fun _ => memDefault) m.away && Sparse.wf (fun _ => false) m.poisoned &&
  Sparse.wf (fun _ => false) m.awayPoison &&
  Sparse.wf (fun _ => CLine.empty) m.lines

/-- A cached line by number (address / 64). -/
def Mem.line (m : Mem) (n : Nat) : CLine := Sparse.get CLine.empty m.lines n

/-- Does a line hold data that memory lacks? -/
def CLine.isDirty (l : CLine) : Bool := l.l1.isSome || l.dirty.isSome

/-- A line's cache entry in canonical form: the mark of a clean line and its ownership go with its last copy. -/
def CLine.norm (l : CLine) : CLine :=
  if !l.isDirty && !l.copies.any (fun c => !c.reserved) then { l with poison := false, owner := none } else l

/-- The memory with a line's cache entry replaced. -/
def Mem.setLine (m : Mem) (n : Nat) (l : CLine) : Mem := { m with lines := Sparse.set CLine.empty m.lines n l.norm }

/-- The memory's own poison mark of a line (R240). -/
def Mem.tierPoison (m : Mem) (n : Nat) : Bool := Sparse.get false m.poisoned n

/-- The memory's poison mark of a line, written. -/
def Mem.setPoison (m : Mem) (n : Nat) (v : Bool) : Mem := { m with poisoned := Sparse.set false m.poisoned n v }

/-- The byte that every observer reads at an address: the dirty copy's, L1D before L2 and Cellar, else the memory's (R25, R179). -/
def Mem.byte (m : Mem) (a : Nat) : Byte :=
  let l := m.line (a / 64)
  match l.l1 with
  | some d => d.data.getD (a % 64) 0
  | none => match l.dirty with
    | some d => d.getD (a % 64) 0
    | none => m.cell a

/-- A byte of the state's memory; the boot ROM's contents are open (log entry 3). -/
def State.byte (s : State) (a : Nat) : Byte := if a < 0x40000 then Config.romByte a else s.mem.byte a

/-- n bytes from an address. -/
def State.bytes (s : State) (a n : Nat) : List Byte := (List.range n).map (fun i => s.byte (a + i))

/-- Is the line that holds an address marked poisoned (R229)? -/
def Mem.poisonAt (m : Mem) (a : Nat) : Bool :=
  let l := m.line (a / 64)
  match l.l1 with
  | some d => d.poison
  | none => l.poison || (l.dirty.isNone && m.tierPoison (a / 64))

/-- The mark of a line is set (R164, R197, R227), where its data lies. -/
def Mem.markPoison (m : Mem) (n : Nat) : Mem :=
  let l := m.line n
  match l.l1 with
  | some d => m.setLine n { l with l1 := some { d with poison := true } }
  | none => if l.dirty.isSome then m.setLine n { l with poison := true } else m.setPoison n true

/-- The data that an L1D alone holds goes to its L2 (R217). -/
def CLine.mergeL1 (l : CLine) : CLine :=
  match l.l1 with
  | none => l
  | some d => { l with l1 := none, dirty := some d.data, owner := some (clusterOf d.core), poison := d.poison }

/-- A dirty line is written back to memory with its poison mark; its copies and its ownership stay (R221 CLEAN, R244). -/
def Mem.clean (m : Mem) (n : Nat) : Mem :=
  let l := (m.line n).mergeL1
  match l.dirty with
  | none => m
  | some d => (((m.setCells (n * 64) d).setPoison n l.poison).setLine n { l with dirty := none, poison := false })

/-- The copies that stay as reserved tags when a line is discarded: those in locked ways (R226), as the predicate
locked tells. -/
def reserveCopies (locked : Copy → Bool) (cs : List Copy) : List Copy :=
  (cs.filter locked).map (fun c => { c with reserved := true })

/-- Is the way of a copy locked (R225)? -/
def State.wayLocked (s : State) (c : Copy) : Bool :=
  match c.place with
  | .l1d k => bit ((s.core k).srd 0x901) (8 + c.way)
  | .l1i k => bit ((s.core k).srd 0x901) c.way
  | .l2 n => s.rb (Reg.CLUSTER_L2LOCK.at n) c.way
  | .cellar => s.rb Reg.SYSCTL_CELLOCK.at c.way
  | .lineBuf _ | .side _ | .evictL1 _ _ | .evictL2 _ _ => false

/-- Every copy of a line is discarded, dirty data included; locked ways keep reserved tags (R221 INV, R226). DESIGN CHOICE (log entry 43): such
a discard is no eviction, and a reservation on the line's granule stays (R103). -/
def State.dropLine (s : State) (n : Nat) : State :=
  let l := s.mem.line n
  { s with mem := s.mem.setLine n { CLine.empty with copies := reserveCopies s.wayLocked l.copies } }

/-- A line is cleaned (R221). -/
def State.cleanLine (s : State) (n : Nat) : State :=
  let t := { s with mem := s.mem.clean n }
  if (s.mem.line n).isDirty then t.injectTun n none else t

/-- A line is cleaned and then discarded (R221 CLINV). -/
def State.clinvLine (s : State) (n : Nat) : State := (s.cleanLine n).dropLine n

/-- The copies that a predicate picks are discarded; a locked way keeps a reserved tag where the operation leaves one (R226). The data of an
L1D whose copy goes is in its L2 first. -/
def State.discardAt (s : State) (n : Nat) (p : Copy → Bool) (reserve : Bool) : State :=
  let l := s.mem.line n
  let l := if l.copies.any (fun x => p x && !x.reserved && (match l.l1 with | some d => x.place == .l1d d.core | none => false)) then l.mergeL1 else l
  let cs := l.copies.filterMap (fun x => if p x then (if reserve && s.wayLocked x then some { x with reserved := true } else none) else some x)
  { s with mem := s.mem.setLine n { l with copies := cs } }

/-- A core loses its reservation to another requester's write, and its event flag is set (R103, R108). While its L1D holds the line (R105), the
write lies behind the STCND in coherence order, and the bytes it gives are kept. -/
def Core.granuleWritten (k : Core) (as : List Nat) : Core :=
  if k.hold.isSome then { k with overlaid := k.overlaid ++ as.filter (fun a => !k.overlaid.contains a) }
  else { k with resv := none }.swr 0x1C1 (k.srd 0x1C1 ||| 1)

/-- The reservations of other cores on the granules of written bytes. -/
def State.loseReservations (s : State) (except : Option Nat) (as : List Nat) : State :=
  (List.range numCores).foldl (fun s c =>
    if some c = except then s
    else match (s.core c).resv with
      | none => s
      | some g =>
        let hit := as.filter (fun a => a / 128 == g)
        if hit.isEmpty then s else s.modCore c (fun k => k.granuleWritten hit)) s

/-- Bytes are written to memory by a requester that does not cache (R25, R103, R229): cached copies of the line are
written back and discarded, a write of a whole line clears its poison mark. One line only. -/
def State.writeLine (s : State) (who : Option Nat) (a : Nat) (bs : List Byte) : State :=
  let n := a / 64
  let s := s.clinvLine n
  let s := { s with mem := s.mem.setCells a bs }.injectTun n (if bs.length = 64 then none else some (a % 64 / 8))
  let s := if bs.length = 64 then { s with mem := s.mem.setPoison n false } else s
  s.loseReservations who ((List.range bs.length).map (fun i => a + i))

/-- Bytes are written upward from an address, line by line. The fuel bounds the number of lines. -/
def State.writeLines : Nat → State → Option Nat → Nat → List Byte → State
  | 0, s, _, _, _ => s
  | f + 1, s, who, a, bs =>
    if bs.isEmpty then s
    else
      let k := 64 - a % 64
      State.writeLines f (s.writeLine who a (bs.take k)) who (a + k) (bs.drop k)

/-- The result of a read by the fabric. -/
abbrev RdRes := Except AccErr (List Byte)

/-- A read of n bytes by any requester of the fabric (R25, R36, R246): checked per 4 KiB granule at its first address;
poisoned data is an error. What addresses the host or Relay windows through here has no way out (R378, R408). -/
def State.fabricRead (s : State) (t : AccessTag) (a n : Nat) : State × RdRes :=
  match s.admits t false a with
  | (s, some e) => (s, .error e)
  | (s, none) =>
    if 0x10000000000 ≤ a then (s, .error .linkDown)
    else if (List.range ((a % 64 + n + 63) / 64)).any (fun i => s.mem.poisonAt (a / 64 * 64 + i * 64)) then (s, .error .poisoned)
    else (s, .ok (s.bytes a n))

/-- A write by any requester of the fabric: checked, then performed; the error response where it is refused. -/
def State.fabricWrite (s : State) (t : AccessTag) (a : Nat) (bs : List Byte) : State × Option AccErr :=
  match s.admits t true a with
  | (s, some e) => (s, some e)
  | (s, none) => if 0x10000000000 ≤ a then (s, some .linkDown) else (State.writeLines (bs.length / 64 + 2) s none a bs, none)

/-- A long read, in pieces that do not cross a 4 KiB granule (R243), stopping at the first error. -/
def State.fabricReadLong : Nat → State → AccessTag → Nat → Nat → List Byte → State × Except (AccErr × List Byte) (List Byte)
  | 0, s, _, _, _, acc => (s, .ok acc)
  | f + 1, s, t, a, n, acc =>
    if n = 0 then (s, .ok acc)
    else
      let k := min n (4096 - a % 4096)
      match s.fabricRead t a k with
      | (s, .error e) => (s, .error (e, acc))
      | (s, .ok bs) => State.fabricReadLong f s t (a + k) (n - k) (acc ++ bs)

/-- A long write in pieces that do not cross a granule; the error and the bytes left where one is refused. -/
def State.fabricWriteLong : Nat → State → AccessTag → Nat → List Byte → State × Option AccErr
  | 0, s, _, _, _ => (s, none)
  | f + 1, s, t, a, bs =>
    if bs.isEmpty then (s, none)
    else
      let k := 4096 - a % 4096
      match s.fabricWrite t a (bs.take k) with
      | (s, some e) => (s, some e)
      | (s, none) => State.fabricWriteLong f s t (a + k) (bs.drop k)

/-- The pieces a transfer of n bytes can have. -/
def pieces (n : Nat) : Nat := n / 4096 + 2

/-! ## Changes of a tier's map (R566) -/

/-- The key of a place in a controller's devices, whatever address reaches it. -/
def devKey (ctrl loc : Nat) : Nat := ctrl * 2 ^ 40 + loc

/-- The place in the QDR devices that a QTIER value gives a window offset (R231). -/
def qtierLoc (q : W32) (w : Nat) : Option Nat :=
  let pres := fld q 21 16
  let n := popCount 6 pres
  let size := fld q 15 8 * 2 ^ 20
  if n * size ≤ w then none
  else if bit q 24 then some (devKey (nthSet 6 0 (w / 64 % n) pres) (w / 64 / n * 64 + w % 64))
  else some (devKey (nthSet 6 0 (w / size) pres) (w % size))

/-- The window offset at which a QTIER value reaches a place in the QDR devices, if any. -/
def qtierAt (q : W32) (key : Nat) : Option Nat :=
  let p := key / 2 ^ 40
  let loc := key % 2 ^ 40
  let pres := fld q 21 16
  let rank := popCount p pres
  let size := fld q 15 8 * 2 ^ 20
  if nfld pres p p = 0 ∨ size ≤ loc then none
  else if bit q 24 then some ((loc / 64 * popCount 6 pres + rank) * 64 + loc % 64)
  else some (rank * size + loc)

/-- The place in the DRAM devices that a DTIER value gives a window offset (R236). -/
def dtierLoc (d : W32) (w : Nat) : Option Nat :=
  let pres := fld d 23 8
  let n := popCount 16 pres
  if n * fld d 7 0 * 2 ^ 29 / 32 * 31 ≤ w then none
  else some (devKey (6 + nthSet 16 0 (dramRankLocal n w).1 pres) (dramRankLocal n w).2)

/-- The window offset at which a DTIER value reaches a place in the DRAM devices, if any: R236's table read backwards. -/
def dtierAt (d : W32) (key : Nat) : Option Nat :=
  let ch := key / 2 ^ 40 - 6
  let loc := key % 2 ^ 40
  let pres := fld d 23 8
  let n := popCount 16 pres
  let x := loc / 2 ^ 8
  let bits := if n = 16 then 4 else if n = 8 then 3 else 2
  let w := x * 2 ^ (8 + bits) + (popCount ch pres ^^^ nfld x 7 (8 - bits)) * 2 ^ 8 + loc % 2 ^ 8
  if nfld pres ch ch = 0 ∨ n * fld d 7 0 * 2 ^ 29 / 32 * 31 ≤ w then none else some w

/-- A tier's contents stay in their devices while its window's map changes from one function to another (R566): each byte is then found at the
address that the new map gives its place, or at none. -/
def Mem.remap (m : Mem) (lo hi : Nat) (mine : Nat → Bool) (from_ : Nat → Option Nat) (to_ : Nat → Option Nat) : Mem :=
  let inWin (a : Nat) : Bool := decide (lo ≤ a) && decide (a < hi)
  let bytes := (m.cells.filter (fun e => inWin e.1)).filterMap (fun e => (from_ (e.1 - lo)).map (fun k => (k, e.2))) ++ m.away.filter (fun e => mine e.1)
  let marks := (m.poisoned.filter (fun e => inWin (e.1 * 64))).filterMap (fun e => (from_ (e.1 * 64 - lo)).map (fun k => (k / 64, e.2))) ++
    m.awayPoison.filter (fun e => mine (e.1 * 64))
  let m := { m with cells := m.cells.filter (fun e => !inWin e.1), away := m.away.filter (fun e => !mine e.1),
                    poisoned := m.poisoned.filter (fun e => !inWin (e.1 * 64)), awayPoison := m.awayPoison.filter (fun e => !mine (e.1 * 64)) }
  let m := bytes.foldl (fun (m : Mem) e => match to_ e.1 with
    | some w => m.setCell (lo + w) e.2
    | none => { m with away := Sparse.set memDefault m.away e.1 e.2 }) m
  marks.foldl (fun (m : Mem) e => match to_ (e.1 * 64) with
    | some w => m.setPoison ((lo + w) / 64) e.2
    | none => { m with awayPoison := Sparse.set false m.awayPoison e.1 e.2 }) m

/-- The memory after QTIER and DTIER have changed from given values to those that the registers hold now. -/
def State.remapTiers (s : State) (q d : W32) : State :=
  let q' := s.reg Reg.MEMC_QTIER.at
  let d' := s.reg Reg.MEMC_DTIER.at
  let same (a b : W32) : Bool := fld a 24 0 == fld b 24 0
  let s := if same q q' then s
    else { s with mem := s.mem.remap 0x800000000 0x900000000 (fun k => decide (k / 2 ^ 40 < 6)) (qtierLoc q) (qtierAt q') }
  if same d d' then s
  else { s with mem := s.mem.remap 0x1000000000 0x5000000000 (fun k => decide (6 ≤ k / 2 ^ 40)) (dtierLoc d) (dtierAt d') }

/-! ## Allocation -/

/-- The ways that an allocation may use (R225): the FILL mask when it is nonzero, else the unlocked ways. -/
def allowedWays (ways fill lock : Nat) : List Nat :=
  if fill ≠ 0 then (List.range ways).filter (fun w => nfld fill w w == 1)
  else (List.range ways).filter (fun w => nfld lock w w == 0)

/-- The slice of the Cellar that serves a line (R213). -/
def sliceOf (n : Nat) : Nat := nfld n 3 0 ^^^ nfld n 7 4 ^^^ nfld n 11 8 ^^^ nfld n 15 12

/-- The array number of a cache array. -/
def arrayNo : ArrayAt → Nat
  | .l2 n => n
  | .cellar s => 8 + s

/-- Is a way of an array fenced (R226)? -/
def State.wayFenced (s : State) (a : ArrayAt) (w : Nat) : Bool := nfld (Sparse.get 0 s.memc.fencedWays (arrayNo a)) w w == 1

/-- Is a line served without allocation in an array, since the locked way that held it is fenced (R226)? -/
def State.unallocated (s : State) (a : ArrayAt) (n : Nat) : Bool := (Sparse.get [] s.memc.unalloc (arrayNo a)).contains n

/-- The set of a line at a place (R212, R213): 256 sets in an L1, 4,096 in an L2 and in each slice of the Cellar. -/
def CopyAt.setOf (pl : CopyAt) (n : Nat) : Nat :=
  match pl with
  | .l1d _ | .l1i _ => n % 256
  | .l2 _ => n % 4096
  | .cellar => sliceOf n * 4096 + n / 16 % 4096
  | .lineBuf _ | .side _ | .evictL1 _ _ | .evictL2 _ _ => 0

/-- Does another line of the same set lie in a way of a place, as a valid line or as a reserved one? -/
def Mem.wayTaken (m : Mem) (pl : CopyAt) (n w : Nat) : Bool :=
  m.lines.any (fun e => e.1 != n && pl.setOf e.1 == pl.setOf n && e.2.copies.any (fun x => x.place == pl && x.way == w))

/-- The lines other than n that a way of n's set holds at a place. -/
def Mem.inWay (m : Mem) (pl : CopyAt) (n w : Nat) : List Nat :=
  (m.lines.filter (fun e => e.1 != n && pl.setOf e.1 == pl.setOf n && e.2.copies.any (fun x => x.place == pl && x.way == w))).map (fun e => e.1)

/-- The valid copy of a line at a place, if any. -/
def Mem.copyAt (m : Mem) (n : Nat) (pl : CopyAt) : Option Copy :=
  (m.line n).copies.find? (fun c => c.place == pl && !c.reserved)

/-- The directory of the Cellar (R213): the clusters whose L2 holds a line; a duplicate of the L2 tags. -/
def Mem.directory (m : Mem) (n : Nat) : List Nat := (List.range 8).filter (fun k => (m.copyAt n (.l2 k)).isSome)

/-- The shadow tags of an L2 (R213): the cores of its cluster whose L1D or L1I holds a line; a duplicate of the L1 tags. -/
def Mem.shadowTags (m : Mem) (k n : Nat) : List Nat :=
  (List.range' (6 * k) 6).filter (fun c => (m.copyAt n (.l1d c)).isSome || (m.copyAt n (.l1i c)).isSome)

/-- The ways of a place that an allocation of a line under a tag may use (R214, R225, R226). -/
def State.waysFor (s : State) (n : Nat) (pl : CopyAt) (t : AccessTag) : List Nat :=
  match pl with
  | .l1d k => allowedWays 4 (fld ((s.core k).srd 0x901) 15 12) (fld ((s.core k).srd 0x901) 11 8)
  | .l1i k => allowedWays 4 (fld ((s.core k).srd 0x901) 7 4) (fld ((s.core k).srd 0x901) 3 0)
  | .l2 m =>
    if s.unallocated (.l2 m) n then []
    else (allowedWays 16 (s.rf (Reg.CLUSTER_L2LOCK.at m) 31 16) (s.rf (Reg.CLUSTER_L2LOCK.at m) 15 0)).filter (fun w => !s.wayFenced (.l2 m) w)
  | .cellar =>
    let al := s.rf (Reg.SYSCTL_CELALLOC.at t.pid) 15 0
    if s.unallocated (.cellar (sliceOf n)) n then []
    else (List.range 16).filter (fun w => nfld al w w == 1 && !s.wayFenced (.cellar (sliceOf n)) w &&
      (!s.rb Reg.SYSCTL_CELLOCK.at w || !s.mem.wayTaken .cellar n w))
  | .lineBuf _ | .side _ | .evictL1 _ _ | .evictL2 _ _ => [0]

/-- A reservation on a line's granule is lost to the line's eviction (R103, R216). -/
def State.evictReservation (s : State) (c n : Nat) : State :=
  if (s.core c).resv = some (n / 2) then s.modCore c (fun k => { k with resv := none, hold := none, overlaid := [] }) else s

/-- An evicted line enters an eviction buffer of a size (R224), dirty data still collecting; a full buffer has one entry acknowledged first: which
of them is open (log entry 3). -/
def State.pushEvict (s : State) (n : Nat) (pl : Bool → CopyAt) (size : Nat) (dirty world : Bool) (pid : Nat) : State :=
  let here := fun (x : Copy) => x.place == pl false || x.place == pl true
  let held := (s.mem.lines.filter (fun e => e.2.copies.any here)).map (fun e => e.1)
  let s := if held.length < size then s else s.took.discardAt (held.getD (s.free % held.length) 0) here false
  let l := s.mem.line n
  let cp : Copy := { place := pl dirty, way := 0, world := world, pid := pid, reserved := false }
  { s with mem := s.mem.setLine n { l with copies := l.copies.filter (fun x => !here x) ++ [cp] } }

/-- A line is evicted from a core's L1D (R103, R217, R224): its data goes to L2, its copy to the eviction buffer, and a reservation on its granule
is lost. -/
def State.evictL1d (s : State) (c n : Nat) : State :=
  match s.mem.copyAt n (.l1d c) with
  | none => s
  | some x =>
    let dirty := match (s.mem.line n).l1 with | some d => d.core == c | none => false
    let s := s.discardAt n (fun y => y.place == .l1d c && !y.reserved) false
    let s := if dirty then s.injectCopy n none (.l2 (clusterOf c)) else s
    (s.pushEvict n (.evictL1 c) 4 dirty x.world x.pid).evictReservation c n

/-- A line leaves the L2 of a cluster (R213, R216): the L1 copies of the cluster go with it, since L2 is inclusive, and dirty data goes to the
Cellar's copy or to memory. With DEN = 0 a core's reservation is held in L2 and lost with the line. -/
def State.leaveL2 (s : State) (k n : Nat) : State :=
  let s := (List.range' (6 * k) 6).foldl (fun (s : State) c =>
    if (s.mem.copyAt n (.l1d c)).isSome || !bit ((s.core c).srd 0x900) 1 then s.evictReservation c n else s) s
  let l := (s.mem.line n).mergeL1
  let s := { s with mem := s.mem.setLine n l }
  let s := if l.dirty.isSome ∧ l.owner = some k then
      (if l.copies.any (fun x => x.place == .cellar && !x.reserved) then { s with mem := s.mem.setLine n { l with owner := none } }.injectCopy n none .cellar
       else s.cleanLine n)
    else s
  let mine := fun (x : Copy) => match x.place with
    | .l2 m => m == k && !x.reserved
    | .l1d c | .l1i c | .lineBuf c | .side c => clusterOf c == k
    | _ => false
  s.discardAt n mine true

/-- A line is evicted from the L2 of a cluster: it leaves L2 and enters the eviction buffer (R224). -/
def State.evictL2 (s : State) (k n : Nat) : State :=
  match s.mem.copyAt n (.l2 k) with
  | none => s
  | some x =>
    let l := s.mem.line n
    let dirty := l.isDirty && l.owner == some k
    (s.leaveL2 k n).pushEvict n (.evictL2 k) 16 dirty x.world x.pid

/-- A line makes way at a place. A reserved tag is simply replaced. -/
def State.makeWay (s : State) (pl : CopyAt) (n : Nat) : State :=
  let s := match pl with
    | .l1d c => s.evictL1d c n
    | .l2 k => s.evictL2 k n
    | .cellar => if (s.mem.line n).owner.isNone then s.cleanLine n else s
    | _ => s
  s.discardAt n (fun x => x.place == pl) false

/-- The way an allocation takes among those allowed (R212, R225): the victim's where it names one that lies there, else a way without a line,
else any: which of them is open (log entry 3). -/
def State.chooseWay (s : State) (n : Nat) (pl : CopyAt) (victim : Option Nat) (ways : List Nat) : State × Option Nat :=
  let named : Option Nat := match victim with
    | none => none
    | some v => match (s.mem.line v).copies.find? (fun x => x.place == pl && pl.setOf v == pl.setOf n && ways.contains x.way) with
      | some x => some x.way
      | none => none
  match named with
  | some w => (s, some w)
  | none =>
    let empty := ways.filter (fun w => !s.mem.wayTaken pl n w)
    let from_ := if empty.isEmpty then ways else empty
    match from_ with
    | [] => (s, none)
    | w0 :: rest => (s.took, some ((w0 :: rest).getD (s.free % (rest.length + 1)) w0))

/-- A copy is installed: in the way of its reserved tag where it has one (R226), else in a way that the masks allow, whose line it replaces
(R212). No way allowed: nothing is installed. -/
def State.install (s : State) (n : Nat) (pl : CopyAt) (t : AccessTag) (victim : Option Nat := none) : State :=
  let l := s.mem.line n
  match l.copies.find? (fun c => c.place == pl) with
  | some c =>
    let cs := l.copies.map (fun x => if x = c then { c with reserved := false, world := t.world, pid := t.pid } else x)
    let s := { s with mem := s.mem.setLine n { l with copies := cs } }
    if c.reserved then s.injectCopy n none pl else s
  | none =>
    match s.chooseWay n pl victim (s.waysFor n pl t) with
    | (s, none) => s
    | (s, some w) =>
      let assoc := match pl with
        | .l1d _ | .l1i _ | .l2 _ | .cellar => true
        | _ => false
      let s := if assoc then (s.mem.inWay pl n w).foldl (fun s v => s.makeWay pl v) s else s
      let l := s.mem.line n
      let cp : Copy := { place := pl, way := w, world := t.world, pid := t.pid, reserved := false }
      { s with mem := s.mem.setLine n { l with copies := l.copies ++ [cp] } }.injectCopy n none pl

/-- Is a line in a tier that the Cellar caches: QDR or DRAM (R214, R249)? -/
def State.cellarCached (s : State) (n : Nat) : Bool :=
  match s.decode (n * 64) with
  | .tier ctrl _ => decide (ctrl < 22)
  | _ => false

/-- A line comes into the L2 of a cluster (R213, R214); a miss allocates in the Cellar too, in the ways of the requester's partition. -/
def State.fillL2 (s : State) (k n : Nat) (t : AccessTag) : State :=
  if (s.mem.copyAt n (.l2 k)).isSome then s.install n (.l2 k) t
  else
    let s := s.discardAt n (fun x => x.place == .evictL2 k false || x.place == .evictL2 k true) false
    let s := if s.cellarCached n && (s.mem.copyAt n .cellar).isNone then s.install n .cellar t else s
    s.install n (.l2 k) t

/-- A line comes into a core's L1D and its cluster's inclusive L2 (R213, R216, R217); while DEN = 0, only into L2. -/
def State.fillL1d (s : State) (c n : Nat) (t : AccessTag) (victim : Option Nat := none) : State :=
  let s := s.fillL2 (clusterOf c) n t
  if bit ((s.core c).srd 0x900) 1 && (s.mem.copyAt n (.l2 (clusterOf c))).isSome then
    (s.discardAt n (fun x => x.place == .evictL1 c false || x.place == .evictL1 c true) false).install n (.l1d c) t victim
  else s

/-- A line comes into a core's L1I and its cluster's inclusive L2 (R213, R218); while IEN = 0, only into L2. -/
def State.fillL1i (s : State) (c n : Nat) (t : AccessTag) (victim : Option Nat := none) : State :=
  let s := s.fillL2 (clusterOf c) n t
  if bit ((s.core c).srd 0x900) 0 && (s.mem.copyAt n (.l2 (clusterOf c))).isSome then s.install n (.l1i c) t victim else s

/-- A line comes into the prefetch side buffer of a core (R220): 8 entries, the least recently used makes way. -/
def State.fillSide (s : State) (c n : Nat) (t : AccessTag) : State :=
  let here := fun (x : Copy) => x.place == .side c
  let held := (s.core c).side.filter (fun m => m != n && (s.mem.copyAt m (.side c)).isSome)
  let s := (held.drop 7).foldl (fun s m => s.discardAt m here false) s
  (s.modCore c (fun k => { k with side := n :: held.take 7 })).install n (.side c) t

end Sys2Proof.Machine
end

