-- ==== Sys2Proof/Machine/RelayLink.lean ====
section
/-! DEFINITION. The transmit side of the Relay links (R364-R371, R377, R393): frames, batons, the replay buffer, routing of flits to a
device, and the tags of requests. -/
namespace Sys2Proof.Machine

/-- A Relay port's link state. -/
def State.port (s : State) (p : Nat) : Port := Sparse.get Port.reset s.relay.ports p

/-- A port's link state, changed. -/
def State.modPort (s : State) (p : Nat) (f : Port → Port) : State :=
  { s with relay := { s.relay with ports := Sparse.set Port.reset s.relay.ports p (f (s.port p)) } }

/-- PORTSTAT.STATE of a port (R362). -/
def State.portState (s : State) (p : Nat) : Nat := s.rf (Reg.RELAY_PORTSTAT.at p) 2 0

/-- The error bank of a Relay port (R60). -/
def portBank (p : Nat) : Nat := 37 + p

/-- The fixed total of batons of a VL (R368). -/
def batonTotal (vl : Nat) : Nat := if vl = 2 then 32 else if vl = 3 then 16 else 64

/-- The batons that a sender holds on a VL (R369); the counters run modulo 2^16. -/
def Port.batons (q : Port) (vl : Nat) : Nat :=
  batonTotal vl - (Sparse.get 0 q.sent vl + 0x10000 - Sparse.get 0 q.rcvRet vl) % 0x10000

/-- Receive buffer entries held on a VL. -/
def Port.occupied (q : Port) (vl : Nat) : Nat := (q.rx.filter (fun f => f.vl == vl)).length

/-- The bytes of a data frame (R364, R365): header, payload, trailer with SEQ and ACK, and CRC. -/
def frameBytes (seq ack : Nat) (f : Flit) (badCrc : Bool) : List Byte :=
  let h := f.vl % 4 + f.ty % 16 * 4 + f.dst % 32 * 2 ^ 6 + f.src % 32 * 2 ^ 11 + f.tag % 256 * 2 ^ 16 + f.info % 256 * 2 ^ 24
  let b := leBytes 4 h ++ f.payload ++ leBytes 4 (seq % 512 + ack % 512 * 2 ^ 10 + 2 ^ 19)
  let c := crc32c b
  b ++ leBytes 4 (if badCrc then c ^^^ 0xFFFFFFFF else c)

/-- A data frame goes onto the lanes. -/
def State.emitFrame (s : State) (p seq : Nat) (f : Flit) (badCrc : Bool) : State :=
  s.emit .relay p ((frameBytes seq (((s.port p).expect + 511) % 512) f badCrc).map BitVec.toNat)

/-- A control frame goes onto the lanes (R364): a code, the ACK of its trailer, and its content: 0 IDLE, 1 NAK, 2 BRET, 3 PARAM, 4 RECON. -/
def State.emitControl (s : State) (p code : Nat) (data : List Nat) : State :=
  s.emit .relay p ((0x10000 + code) :: ((s.port p).expect + 511) % 512 :: data)

/-- The action of the port's injector on the next data frame (R393): its MODE when it acts, else 0. -/
def State.injectFrame (s : State) (p : Nat) : State × Nat :=
  let a := Reg.RELAY_FINJ.at p
  if !s.rb a 31 ∨ s.rf a 30 29 = 0 then (s, 0)
  else
    let n := (s.port p).inj + 1
    if n < max 1 (s.rf a 15 0) then (s.modPort p (fun q => { q with inj := n }), 0)
    else
      let m := s.rf a 30 29
      let c := s.rf a 23 16
      let s := (s.modPort p (fun q => { q with inj := 0 })).countUp (Reg.RELAY_INJCNT.at p) 32 1
      let s := if c = 0 then s else if c = 1 then (s.setRf a 23 16 0).setRb a 31 false else s.setRf a 23 16 (c - 1)
      (s, m)

/-- The next flit that may be sent (R367): VL2, then VL3, then VL1 and VL0 in turn, each with a baton. -/
def Port.nextFlit (q : Port) : Option Flit :=
  let pick (vl : Nat) := if q.batons vl = 0 then none else q.queue.find? (fun f => f.vl == vl)
  match pick 2, pick 3 with
  | some f, _ => some f
  | none, some f => some f
  | none, none =>
    match pick (if q.alt then 1 else 0) with
    | some f => some f
    | none => pick (if q.alt then 0 else 1)

/-- A list without the first element equal to one given. -/
def dropFirst {α : Type} [DecidableEq α] (x : α) : List α → List α
  | [] => []
  | y :: t => if y = x then t else y :: dropFirst x t

/-- A data frame goes out, first or replayed, unless the injector acts on it (R393); one that a reorder held back follows it. -/
def State.sendFrame (s : State) (p seq : Nat) (f : Flit) : State :=
  let (s, m) := s.injectFrame p
  let held := (s.port p).late
  let s := if m = 1 ∨ m = 3 then s else s.emitFrame p seq f (m == 2)
  let s := s.modPort p (fun q => { q with late := if m = 3 then some (seq, f) else none })
  match held with
  | some (k, g) => s.emitFrame p k g false
  | none => s

/-- One flit is sent for the first time (R368, R371); VL0 and VL1 take turns (R367). -/
def State.sendOne (s : State) (p : Nat) (f : Flit) : State :=
  let q := s.port p
  let seq := q.nextSeq
  (s.modPort p (fun q =>
    { q with nextSeq := (seq + 1) % 512, replay := q.replay ++ [(seq, f)], queue := dropFirst f q.queue,
             sent := Sparse.set 0 q.sent f.vl ((Sparse.get 0 q.sent f.vl + 1) % 0x10000), alt := if f.vl < 2 then f.vl == 0 else q.alt })).sendFrame p seq f

/-- Flits are sent while batons and the 256-flit replay buffer allow (R368, R371). -/
def State.pumpPort : Nat → State → Nat → State
  | 0, s, _ => s
  | n + 1, s, p =>
    let q := s.port p
    if s.portState p = 3 ∧ q.replay.length < 256 then
      match q.nextFlit with
      | some f => State.pumpPort n (s.sendOne p f) p
      | none => s
    else s

/-- A port sends what it may. -/
def State.pump (s : State) (p : Nat) : State := State.pumpPort (s.port p).queue.length s p

/-- A flit enters a port's queue. -/
def State.sendOn (s : State) (p : Nat) (f : Flit) : State :=
  (s.modPort p (fun q => { q with queue := q.queue ++ [f] })).pump p

/-- The port by which a flit leaves for a device (R377): the lowest-numbered ACTIVE port of HROUTE; a port in RETRAIN is not bypassed. -/
def State.routeTo (s : State) (d : Nat) : Option Nat :=
  let r := s.rf (Reg.RELAY_HROUTE.at d) 5 0
  if d > 30 then none
  else (List.range 6).find? (fun p => nfld r p p == 1 && (s.portState p == 3 || s.portState p == 4))

/-- This device's index (R375). -/
def State.devIndex (s : State) : Nat := s.rf Reg.RELAY_HID.at 4 0

/-- A flit of this device leaves by the route table; without a route nothing is sent. -/
def State.sendTo (s : State) (f : Flit) : State :=
  match s.routeTo f.dst with
  | some p => s.sendOn p f
  | none => s

/-- A payload of 64 bytes. -/
def pad64 (bs : List Byte) : List Byte := (bs ++ List.replicate 64 0).take 64

/-- The lowest free request tag (R366). -/
def State.freeTag (s : State) : Option Nat := (List.range 256).find? (fun t => (Sparse.get none s.relay.reqs t).isNone)

/-- A VL0 request leaves on a port under a tag; without a free tag it waits (R366). A write's line image follows as its WRD. -/
def State.request (s : State) (p : Nat) (f : Flit) (wrd : Option (List Byte)) (who : ReqFor) : State :=
  match s.freeTag with
  | none => { s with relay := { s.relay with queue := s.relay.queue ++ [(p, f, wrd, who)] } }
  | some t =>
    let s := { s with relay := { s.relay with reqs := Sparse.set none s.relay.reqs t (some { port := p, who := who }) } }
    let s := s.sendOn p { f with tag := t, src := s.devIndex }
    match wrd with
    | none => s
    | some bs => s.sendOn p { f with tag := t, src := s.devIndex, ty := 2, payload := pad64 bs }

/-- The port by which a request that waited for a tag leaves: a forwarded step's is bound to its path (R382), any other goes by the route table. -/
def State.waitingPort (s : State) (p : Nat) (f : Flit) (who : ReqFor) : Option Nat :=
  match who with
  | .fwd _ _ => if s.portState p = 3 ∨ s.portState p = 4 then some p else none
  | _ => s.routeTo f.dst

/-- A request tag is free again. -/
def State.releaseTag (s : State) (t : Nat) : State :=
  { s with relay := { s.relay with reqs := Sparse.set none s.relay.reqs t none } }

/-- The flit of a remote read of n bytes at window offset x (R366, R378): the offset, then the length in INFO. -/
def rdFlit (dst x n : Nat) : Flit :=
  { vl := 0, ty := 0, dst := dst, src := 0, tag := 0, info := n, payload := pad64 (leBytes 8 x) }

/-- The flit of a remote write of n bytes at window offset x: its line image follows (R366). -/
def wrFlit (dst x n : Nat) : Flit := { rdFlit dst x n with ty := 1 }

/-- A line image with bytes at an offset in their line. -/
def lineImage (x : Nat) (bs : List Byte) : List Byte := pad64 (List.replicate (x % 64) 0 ++ bs)

end Sys2Proof.Machine
end

