-- ==== Sys2Proof/Machine/Translate.lean ====
section
/-! DEFINITION. Translation (chapter Translation and Caches): regimes and identity (R199, R200), the four-level walk of both stages (R201-R203), permissions
(R204), region types (R205), walk reads (R206) and the TLB (R208-R211). -/
namespace Sys2Proof.Machine

/-- The kinds of access that R204 tells apart. -/
inductive AccKind where
  | load | store | fetch | icInv
deriving DecidableEq, Repr

/-- A synchronous exception before its level is known (R146, R147). -/
structure Exc where
  vec : Nat
  info : Nat := 0
  far : Option W64 := none
  fipa : Option Nat := none
  wnr : Bool := false
  fetch : Bool := false
deriving DecidableEq, Repr

/-- How a translation fails (R150, R204, R206). ipa: the intermediate address that FIPA_H reports, 0 in a walk. -/
inductive TrFault where
  | trf | s2trf (ipa : Nat) | prm | s2prm (ipa : Nat) | ber | psn
deriving DecidableEq, Repr

/-- The exception of a translation fault at a virtual address (R141, R147). -/
def TrFault.exc (f : TrFault) (k : AccKind) (va : W64) : Exc :=
  let ft := k == .fetch
  let w := k == .store
  match f with
  | .trf => { vec := if ft then 0x05 else 0x06, far := some va, wnr := w }
  | .prm => { vec := if ft then 0x07 else 0x08, far := some va, wnr := w }
  | .s2trf i | .s2prm i => { vec := 0x09, far := some va, fipa := some i, wnr := w, fetch := ft }
  | .ber => { vec := if ft then 0x0A else 0x0B, far := some va, wnr := w }
  | .psn => { vec := if ft then 0x0D else 0x0E, far := some va, wnr := w }

/-- Order of R205, weakest first. -/
def RType.rank : RType → Nat
  | .cached => 0 | .uncached => 1 | .devOrdered => 2 | .devStrict => 3

/-- The region type of a TYPE code (R202). -/
def RType.ofCode (n : Nat) : RType :=
  if n = 0 then .cached else if n = 1 then .uncached else if n = 2 then .devOrdered else .devStrict

/-- The stronger of two types (R205). -/
def RType.stronger (a b : RType) : RType := if a.rank < b.rank then b else a

/-- Is it a Device type? -/
def RType.device (t : RType) : Bool := t == .devOrdered || t == .devStrict

/-- Does an address lie in the Device registers region? -/
def inRegs (a : Nat) : Bool := decide (0x10000000 ≤ a) && decide (a < 0x20000000)

/-- Does an address lie in the host outbound window or a Relay remote window? -/
def inWindow (a : Nat) : Bool := decide (0x10000000000 ≤ a) && decide (a < 0x3F000000000)

/-- Does an address lie in Cask SRAM? -/
def inCask (a : Nat) : Bool := decide (0x1000000 ≤ a) && decide (a < 0x1200000)

/-- The adjustments of R205, R26 and R245 to a type by its final address. -/
def RType.adjust (t : RType) (a : Nat) : RType :=
  if inRegs a then (if t.device then t else .devStrict)
  else if t = .cached ∧ (inWindow a ∨ inCask a) then .uncached
  else t

/-- The type that an identity mapping gives an address (R200). -/
def identityType (a : Nat) : RType := if inRegs a || inWindow a then .devStrict else .cached

/-! ## Checks at a hit or a miss -/

/-- The first valid copy among the places an access looks in. -/
def Mem.firstCopy (m : Mem) (n : Nat) : List CopyAt → Option Copy
  | [] => none
  | p :: ps => match m.copyAt n p with
    | some c => some c
    | none => m.firstCopy n ps

/-- A copy's fill tag is rewritten (R245). -/
def State.retag (s : State) (n : Nat) (c : Copy) (t : AccessTag) : State :=
  let l := s.mem.line n
  { s with mem := s.mem.setLine n { l with copies := l.copies.map (fun x => if x = c then { c with world := t.world, pid := t.pid } else x) } }

/-- Is a place an eviction buffer's entry that is still collecting (R224)? -/
def CopyAt.collecting : CopyAt → Bool
  | .evictL1 _ b | .evictL2 _ b => b
  | _ => false

/-- An eviction entry, read out of its array. -/
def CopyAt.readOut : CopyAt → CopyAt
  | .evictL1 c _ => .evictL1 c false
  | .evictL2 k _ => .evictL2 k false
  | p => p

/-- A request meets a collecting entry of an eviction buffer (R224): it has been read out by now and is dirty-in-flight, or the request waits for
the acknowledgement and the entry is gone; which of them is open (log entry 3). -/
def State.settleEvict (s : State) (places : List CopyAt) (n : Nat) : State :=
  match (s.mem.line n).copies.find? (fun x => places.contains x.place && x.place.collecting) with
  | none => s
  | some x =>
    if s.free % 2 = 0 then s.took.discardAt n (fun y => y == x) false
    else
      let l := s.mem.line n
      { s.took with mem := s.mem.setLine n { l with copies := l.copies.map (fun y => if y = x then { y with place := y.place.readOut } else y) } }

/-- The cluster that a place belongs to; none for the Cellar. -/
def CopyAt.cluster : CopyAt → Option Nat
  | .l2 m | .evictL2 m _ => some m
  | .l1d c | .l1i c | .lineBuf c | .side c | .evictL1 c _ => some (clusterOf c)
  | .cellar => none

/-- Does a cluster own a line for writing (R244): it made the last ownership request, and no other cluster has a copy since? -/
def CLine.ownedBy (l : CLine) (k : Nat) : Bool :=
  l.owner == some k && l.copies.all (fun x => x.reserved || x.place.cluster == none || x.place.cluster == some k)

/-- An access that may hit a cache (R245): a hit with the same fill tag is served; any other access meets the gates,
and a hit's fill tag is then rewritten. A store needs the line owned, and else makes an ownership request, a write to the gates (R244). -/
def State.checkHit (s : State) (places : List CopyAt) (t : AccessTag) (write : Bool) (a : Nat) : State × Option AccErr :=
  let s := s.settleEvict places (a / 64)
  match s.mem.firstCopy (a / 64) places with
  | some c =>
    if c.world = t.world ∧ c.pid = t.pid ∧ (write = false ∨ (s.mem.line (a / 64)).ownedBy (clusterOf t.src) = true) then (s, none)
    else match s.admits t write a with
      | (s, some e) => (s, some e)
      | (s, none) => (s.retag (a / 64) c t, none)
  | none => s.admits t write a

/-- The places of a cluster's L2 that serve a request: the array and its eviction buffer (R224). -/
def l2Places (k : Nat) : List CopyAt := [.l2 k, .evictL2 k false, .evictL2 k true]

/-- The Deferred record of consumed poison (R229): UNIT 0x0A for data, 0x0B for a fetch. -/
def State.recordPoison (s : State) (c : Nat) (t : AccessTag) (fetch : Bool) (a : Nat) : State :=
  s.record { bank := 1 + clusterOf c, unit := if fetch then 0x0B else 0x0A, code := 0x0B, sev := .deferred,
             poison := true, addr := some a, tag := some t }

/-! ## Walks -/

/-- Why a walk read gives no descriptor. -/
inductive WErr where
  | invalid | s2 | ber | psn
deriving DecidableEq, Repr

/-- Does an address lie where walk reads are made (R206): boot ROM, Cask, Tun, populated QDR or DRAM? -/
def State.walkable (s : State) (a : Nat) : Bool :=
  match s.decode a with
  | .rom => true
  | .tier _ _ => true
  | _ => false

/-- A walk read of one descriptor through the cluster's L2 (R206). -/
def State.walkRead (s : State) (c : Nat) (t : AccessTag) (fetch : Bool) (a : Nat) : State × Except WErr W64 :=
  if !s.walkable a then (s, .error .invalid)
  else match s.checkHit (l2Places (clusterOf c)) t false a with
    | (s, some _) => (s, .error .ber)
    | (s, none) =>
      if s.mem.poisonAt a then (s.recordPoison c t fetch a, .error .psn)
      else (s, .ok (BitVec.ofNat 64 (leNat (s.bytes a 8))))

/-- The index of an input address at a level (R201). -/
def walkIndex (lvl a : Nat) : Nat := a / 2 ^ (39 - 9 * lvl) % 512

/-- Is a descriptor valid at a level of a stage (R202)? hm: a table of regime H or M. -/
def descValid (lvl : Nat) (stage2 hm : Bool) (d : W64) : Bool :=
  let t := fld d 1 0
  let leafBits := fld d 51 44 == 0 && (lvl == 3 || !bit d 4) &&
    (if stage2 then fld d 11 9 == 0 && !bit d 5 else !(hm && (fld d 11 9 != 0 || bit d 5)))
  if t = 3 then (if lvl = 3 then leafBits else fld d 51 44 == 0 && fld d 11 2 == 0)
  else if t = 1 then (lvl == 1 || lvl == 2) && leafBits
  else false

/-- Is a valid descriptor a leaf? -/
def descLeaf (lvl : Nat) (d : W64) : Bool := fld d 1 0 == 1 || lvl == 3

/-- log2 of the size that a leaf maps (R201, R203). -/
def leafSize (lvl : Nat) (d : W64) : Nat :=
  if lvl = 1 then 30 else if lvl = 2 then 21 else if bit d 4 then 16 else 12

/-- The output address of a leaf for an input address (R202, R203). -/
def leafOut (lvl : Nat) (d : W64) (a : Nat) : Nat :=
  let sz := leafSize lvl d
  fld d 43 12 * 4096 / 2 ^ sz * 2 ^ sz + a % 2 ^ sz

/-- The list without its i-th entry among those that a predicate picks. -/
def dropNth {α : Type} (p : α → Bool) : Nat → List α → List α
  | _, [] => []
  | i, x :: t => if p x then (if i = 0 then t else x :: dropNth p (i - 1) t) else x :: dropNth p i t

/-- A new entry of a translation cache (R208), newest first: where its set is full, one entry leaves; which is open (log entry 4). same: the
entries of its set; size: how many the set holds. -/
def State.cachePut {α : Type} (s : State) (l : List α) (e : α) (same : α → Bool) (size : Nat) : State × List α :=
  let n := (l.filter same).length
  if n < size then (s, e :: l) else (s.took, e :: dropNth same (s.free % n) l)

/-- The tags of a walk cache entry for the regime that serves a level (R209). -/
def Core.walkTag (k : Core) (lvl : Nat) (item : WalkItem) : WalkEntry :=
  if lvl ≥ 2 then { regime := if lvl = 3 then .m else .h, vmid := 0, asid := 0, item := item }
  else { regime := .uk, vmid := fld (k.srd 0x8C1) 59 48,
         asid := match item with | .table .. => fld (k.srd 0x4C0) 15 0 | .leaf .. => 0, item := item }

/-- The walk cache keeps a result (R208). -/
def State.keepWalk (s : State) (c : Nat) (e : WalkEntry) : State :=
  if (s.core c).walks.contains e then s
  else
    let (s, l) := s.cachePut (s.core c).walks e (fun _ => true) 64
    s.modCore c (fun k => { k with walks := l })

/-- The prefix of an address that selects a table at a level. -/
def walkPre (lvl a : Nat) : Nat := a % 2 ^ 48 / 2 ^ (39 - 9 * lvl)

/-- The next table that the walk cache holds for an address at a level of stage 1 (R208). -/
def Core.walkHit (k : Core) (rlvl lvl a : Nat) : Option Nat :=
  k.walks.findSome? (fun e => match e.item with
    | .table l p n => if l = lvl ∧ p = walkPre lvl a ∧ e = k.walkTag rlvl (.table l p n) then some n else none
    | .leaf .. => none)

/-- The stage-2 leaf that the walk cache holds for an IPA (R208), with its level. -/
def Core.leafHit (k : Core) (ipa : Nat) : Option (W64 × Nat) :=
  k.walks.findSome? (fun e => match e.item with
    | .leaf sz p l d => if p = ipa / 2 ^ sz ∧ e = k.walkTag 0 (.leaf sz p l d) then some (d, l) else none
    | .table .. => none)

/-- A walk over the levels that are left (R201): the leaf descriptor and its level. rd reads one descriptor; cached gives the next table that the walk
cache holds for a level, and keep enters one there (R208). -/
def walkFrom (rd : State → Nat → State × Except WErr W64) (cached : State → Nat → Option Nat) (keep : State → Nat → Nat → State)
    (stage2 hm : Bool) (a : Nat) : List Nat → State → Nat → State × Except WErr (W64 × Nat)
  | [], s, _ => (s, .error .invalid)
  | lvl :: rest, s, base =>
    match cached s lvl with
    | some next => walkFrom rd cached keep stage2 hm a rest s next
    | none =>
      match rd s (base + walkIndex lvl a * 8) with
      | (s, .error e) => (s, .error e)
      | (s, .ok d) =>
        if !descValid lvl stage2 hm d then (s, .error .invalid)
        else if descLeaf lvl d then (s, .ok (d, lvl))
        else walkFrom rd cached keep stage2 hm a rest (keep s lvl (fld d 43 12 * 4096)) (fld d 43 12 * 4096)

/-- The stage-2 translation of an intermediate physical address: the walk cache's leaf, or a walk whose leaf it keeps (R208). -/
def State.walk2 (s : State) (c : Nat) (t : AccessTag) (fetch : Bool) (vttb : W64) (ipa : Nat) :
    State × Except WErr (W64 × Nat) :=
  match (s.core c).leafHit ipa with
  | some r => (s, .ok r)
  | none =>
    match walkFrom (fun s a => s.walkRead c t fetch a) (fun _ _ => none) (fun s _ _ => s) true false ipa [0, 1, 2, 3] s (fld vttb 43 12 * 4096) with
    | (s, .error e) => (s, .error e)
    | (s, .ok (d, l)) =>
      let sz := leafSize l d
      (s.keepWalk c ((s.core c).walkTag 0 (.leaf sz (ipa / 2 ^ sz) l d)), .ok (d, l))

/-- A stage-1 walk read under stage 2: the table address is translated and must grant R (R204, R206). -/
def State.walkRead12 (s : State) (c : Nat) (t : AccessTag) (fetch : Bool) (vttb : W64) (ipa : Nat) :
    State × Except WErr W64 :=
  match s.walk2 c t fetch vttb ipa with
  | (s, .error _) => (s, .error .s2)
  | (s, .ok (d, lvl)) =>
    if !bit d 6 then (s, .error .s2) else s.walkRead c t fetch (leafOut lvl d ipa)

/-- The regime of a level (R199). -/
def regimeOf (lvl : Nat) : Regime := if lvl = 3 then .m else if lvl = 2 then .h else .uk

/-- The stage-1 half that serves an address: its table register, or none when the address lies in no half (R199). -/
def Core.half (k : Core) (lvl : Nat) (va : W64) : Option W64 :=
  if lvl = 3 then (if fld va 63 48 = 0 then some (k.srd 0xCC0) else none)
  else if lvl = 2 then (if fld va 63 48 = 0 then some (k.srd 0x8C0) else none)
  else if fld va 63 47 = 0 then some (k.srd 0x4C1)
  else if fld va 63 47 = 0x1FFFF then some (k.srd 0x4C2)
  else none

/-- Is the address in the high half? -/
def highHalf (lvl : Nat) (va : W64) : Bool := decide (lvl < 2) && fld va 63 47 != 0

/-- May an access of a kind use the entry by stage 1 (R204)? -/
def TlbEntry.s1ok (e : TlbEntry) (lvl : Nat) (k : AccKind) : Bool :=
  let u := lvl == 0
  match k with
  | .load => if u then e.ur else e.pr
  | .store => if u then e.uw else e.pw
  | .fetch => if u then e.ux else e.px
  | .icInv => if u then e.ur || e.ux else e.pr || e.px

/-- May an access of a kind use the entry by stage 2 (R204)? -/
def TlbEntry.s2ok (e : TlbEntry) (k : AccKind) : Bool :=
  match k with
  | .load => e.s2r
  | .store => e.s2w
  | .fetch => e.s2x
  | .icInv => e.s2r || e.s2x

/-- Stage 1 of a translation: output address, entry with the stage-1 attributes. -/
def State.stage1 (s : State) (c lvl : Nat) (fetch : Bool) (va : W64) : State × Except TrFault (Nat × TlbEntry) :=
  let k := s.core c
  let t := k.tagAt c lvl
  let vttb := k.srd 0x8C1
  let s2 := decide (lvl < 2) && bit vttb 0
  let e0 : TlbEntry :=
    { regime := regimeOf lvl, en := true, vmid := fld vttb 59 48, asid := fld (k.srd 0x4C0) 15 0, glob := false, size := 44, page := 0, frame := 0, ipa := 0,
      rtype := .cached, ur := true, uw := true, ux := true, pr := true, pw := true, px := true, s2r := true, s2w := true, s2x := true }
  match k.half lvl va with
  | none => (s, .error .trf)
  | some ttb =>
    if !bit ttb 0 then
      if highHalf lvl va ∨ fld va 63 44 ≠ 0 then (s, .error .trf)
      else (s, .ok (fld va 43 0, { e0 with en := false, rtype := identityType (fld va 43 0) }))
    else
      let rd := if s2 then (fun s a => State.walkRead12 s c t fetch vttb a) else (fun s a => State.walkRead s c t fetch a)
      match walkFrom rd (fun s l => (s.core c).walkHit lvl l va.toNat) (fun s l n => s.keepWalk c ((s.core c).walkTag lvl (.table l (walkPre l va.toNat) n)))
          false (decide (lvl ≥ 2)) va.toNat [0, 1, 2, 3] s (fld ttb 43 12 * 4096) with
      | (s, .error .invalid) => (s, .error .trf)
      | (s, .error .s2) => (s, .error (.s2trf 0))
      | (s, .error .ber) => (s, .error .ber)
      | (s, .error .psn) => (s, .error .psn)
      | (s, .ok (d, l)) =>
        (s, .ok (leafOut l d va.toNat,
          { e0 with glob := bit d 5, size := leafSize l d, rtype := RType.ofCode (fld d 3 2), ur := bit d 9, uw := bit d 10,
                    ux := bit d 11, pr := bit d 6, pw := bit d 7, px := bit d 8 }))

/-- The walk of both stages for an address: the joined entry (R208). -/
def State.walkBoth (s : State) (c lvl : Nat) (fetch : Bool) (va : W64) : State × Except TrFault TlbEntry :=
  match s.stage1 c lvl fetch va with
  | (s, .error f) => (s, .error f)
  | (s, .ok (ipa, e)) =>
    let k := s.core c
    let vttb := k.srd 0x8C1
    if !(decide (lvl < 2) && bit vttb 0) then
      (s, .ok { e with page := va.toNat / 2 ^ e.size, frame := ipa / 2 ^ e.size, ipa := ipa / 2 ^ e.size })
    else match s.walk2 c (k.tagAt c lvl) fetch vttb ipa with
      | (s, .error _) => (s, .error (.s2trf ipa))
      | (s, .ok (d, l)) =>
        let sz := min e.size (leafSize l d)
        let pa := leafOut l d ipa
        (s, .ok { e with size := sz, page := va.toNat / 2 ^ sz, frame := pa / 2 ^ sz, ipa := ipa / 2 ^ sz,
                         rtype := e.rtype.stronger (RType.ofCode (fld d 3 2)), s2r := bit d 6, s2w := bit d 7, s2x := bit d 8 })

/-- Is the half that serves an address translated by stage 1 (R200)? -/
def Core.halfOn (k : Core) (lvl : Nat) (va : W64) : Bool :=
  match k.half lvl va with
  | none => false
  | some ttb => bit ttb 0

/-- Does an entry match a lookup (R209)? An entry made while the half was not translated serves only while it is not (log entry 4). -/
def TlbEntry.hits (e : TlbEntry) (k : Core) (lvl : Nat) (va : W64) : Bool :=
  e.regime == regimeOf lvl && e.en == k.halfOn lvl va && e.page == va.toNat / 2 ^ e.size &&
  (e.regime != .uk || (e.vmid == fld (k.srd 0x8C1) 59 48 && (e.glob || e.asid == fld (k.srd 0x4C0) 15 0)))

/-- Is an address translated by either stage at a level, so that the TLBs take part (R200, R208)? -/
def Core.translated (k : Core) (lvl : Nat) (va : W64) : Bool :=
  (k.half lvl va).isSome && (k.halfOn lvl va || (decide (lvl < 2) && bit (k.srd 0x8C1) 0))

/-- The set of the main TLB that an entry belongs to (R208): 256 sets of 4 for 4 KiB and 64 KiB, one of 32 for larger pages. The index is open
(log entry 4). -/
def TlbEntry.sameSet (e x : TlbEntry) : Bool :=
  if e.size ≤ 16 then decide (x.size ≤ 16) && x.page % 256 == e.page % 256 else decide (16 < x.size)

/-- A translation enters the micro-TLB of its side (R208): 32 entries. -/
def State.putMicro (s : State) (c : Nat) (fetch : Bool) (e : TlbEntry) : State :=
  if fetch then
    let (s, l) := s.cachePut (s.core c).iTlb e (fun _ => true) 32
    s.modCore c (fun k => { k with iTlb := l })
  else
    let (s, l) := s.cachePut (s.core c).dTlb e (fun _ => true) 32
    s.modCore c (fun k => { k with dTlb := l })

/-- A translation enters the main TLB (R208). -/
def State.putTlb (s : State) (c : Nat) (e : TlbEntry) : State :=
  let (s, l) := s.cachePut (s.core c).tlb e e.sameSet (if e.size ≤ 16 then 4 else 32)
  s.modCore c (fun k => { k with tlb := l })

/-- The entry that serves an access (R208, R209): the micro-TLB's, the main TLB's, or a walk's, whose result is installed. Several matches of the
main TLB are all invalidated, and the core walks again. -/
def State.tlbEntry (s : State) (c lvl : Nat) (fetch : Bool) (va : W64) : State × Except TrFault TlbEntry :=
  let k := s.core c
  if !k.translated lvl va then s.walkBoth c lvl fetch va
  else
    match (if fetch then k.iTlb else k.dTlb).find? (fun e => e.hits k lvl va) with
    | some e => (s, .ok e)
    | none =>
      match k.tlb.filter (fun e => e.hits k lvl va) with
      | [e] => (s.putMicro c fetch e, .ok e)
      | m =>
        let s := if m.isEmpty then s else s.modCore c (fun k => { k with tlb := k.tlb.filter (fun e => !m.contains e) })
        match s.walkBoth c lvl fetch va with
        | (s, .ok e) => ((s.putTlb c e).putMicro c fetch e, .ok e)
        | r => r

/-- The translation of an access (R199-R205): physical address and region type, or the first fault in R150's order. -/
def State.translate (s : State) (c lvl : Nat) (kind : AccKind) (va : W64) : State × Except TrFault (Nat × RType) :=
  match s.tlbEntry c lvl (kind == .fetch) va with
  | (s, .error f) => (s, .error f)
  | (s, .ok e) =>
    let pa := e.frame * 2 ^ e.size + va.toNat % 2 ^ e.size
    if !e.s1ok lvl kind then (s, .error .prm)
    else if !e.s2ok kind then (s, .error (.s2prm (e.ipa * 2 ^ e.size + va.toNat % 2 ^ e.size)))
    else (s, .ok (pa, e.rtype.adjust pa))

end Sys2Proof.Machine
end

