-- ==== Sys2Proof/Machine/Windows.lean ====
section
/-! DEFINITION. Accesses that leave the device: the host outbound window (R31, R408) and the Relay remote windows (R30, R378). A
write is posted; a read waits for its response. -/
namespace Sys2Proof.Machine

/-- Does an address lie in the host outbound window (R27)? -/
def State.isHost (_s : State) (a : Nat) : Bool := decide (0x10000000000 ≤ a) && decide (a < 0x20000000000)

/-- A PCIe function of the endpoint. -/
def State.hostFn (s : State) (f : Nat) : HostFn := Sparse.get HostFn.reset s.host.fns f

/-- The lowest free tag of the endpoint (R408: 768 outstanding requests with 10-bit tags, else 256). -/
def State.freeReadTag (s : State) : Option Nat :=
  (List.range (if (s.hostFn 0).tag10 then 768 else 256)).find? (fun t => (Sparse.get none s.host.reads t).isNone)

/-- A read of n bytes leaves for the host with a function's requester ID (R408); without a free tag it waits in the endpoint. -/
def State.hostRead (s : State) (fn : Nat) (who : ReadFor) (a n : Nat) : State :=
  match s.freeReadTag with
  | none => { s with host := { s.host with queue := s.host.queue ++ [(fn, who, a, n)] } }
  | some t =>
    { s with host := { s.host with reads := Sparse.set none s.host.reads t (some { fn := fn, who := who, squashed := false }) } }.emit .hostRead fn
      [a - 0x10000000000, n, t]

/-- Device Control of a function (offset 0x58 of its configuration space), kept as its difference from its PCI Express reset value (PRESUMED, log entry
28): Relaxed Ordering Enable, No Snoop Enable, and reads of 512 bytes. -/
def State.devCtl (s : State) (f : Nat) : W32 := Sparse.get (0 : W32) (s.hostFn f).cfg 0x58 ^^^ 0x2810

/-- The Max Read Request Size of a function (R408). -/
def State.readMax (s : State) (f : Nat) : Nat := 128 * 2 ^ min 5 (fld (s.devCtl f) 14 12)

/-- The Max Payload Size of the endpoint, PF0's, at most 512 bytes (R398, R408). -/
def State.payloadMax (s : State) : Nat := 128 * 2 ^ min 2 (fld (s.devCtl 0) 7 5)

/-- Bytes leave as posted writes of at most m bytes that cross no 4 KiB boundary (R408); ep: marked poisoned. -/
def State.postWrites : Nat → State → Nat → Bool → Nat → Nat → List Byte → State
  | 0, s, _, _, _, _, _ => s
  | n + 1, s, fn, ep, m, b, bs =>
    if bs.isEmpty then s
    else
      let k := min m (4096 - b % 4096)
      (s.emit .hostWrite fn ((if ep then 2 ^ 40 + b else b) :: (bs.take k).map BitVec.toNat)).postWrites n fn ep m (b + k) (bs.drop k)

/-- Bytes leave for the host as posted writes with a function's requester ID (R408). -/
def State.hostWrite (s : State) (fn : Nat) (a : Nat) (bs : List Byte) : State :=
  s.postWrites (bs.length / 128 + bs.length / 4096 + 3) fn false s.payloadMax (a - 0x10000000000) bs

/-- Bytes leave for the host as posted writes marked poisoned (EP, R409). -/
def State.hostPoison (s : State) (fn : Nat) (a : Nat) (bs : List Byte) : State :=
  s.postWrites (bs.length / 128 + bs.length / 4096 + 3) fn true s.payloadMax (a - 0x10000000000) bs

/-- The runs of consecutive addresses in bytes given in rising order, as address and bytes. -/
def runs : List (Nat × Byte) → List (Nat × List Byte)
  | [] => []
  | (a, b) :: t => match runs t with
    | (a2, bs) :: rest => if a2 = a + 1 then (a, b :: bs) :: rest else (a, [b]) :: (a2, bs) :: rest
    | [] => [(a, [b])]

/-- A write of a core to a window leaves the device (R195, R378): one request per line to a Relay window. -/
def State.windowWrite (s : State) (a : Nat) (bs : List Byte) (who : ReqFor) : State :=
  match s.decode a with
  | .host => s.hostWrite 0 a bs
  | .relay i =>
    let x := (a - 0x20000000000) % 2 ^ 36
    let k := 64 - x % 64
    let one (s : State) (x : Nat) (bs : List Byte) : State :=
      match s.routeTo i with
      | some p => s.request p (wrFlit i x bs.length) (some (lineImage x bs)) who
      | none => s
    let s := one s x (bs.take k)
    if bs.length ≤ k then s else one s (x + k) (bs.drop k)
  | _ => s

/-- A read of n bytes by a core from a window leaves the device, for the bytes of its load from an offset on: to a Relay window, one request
per line (R378). -/
def State.windowRead (s : State) (c a n off : Nat) : State :=
  match s.decode a with
  | .host => s.hostRead 0 (.core c off) a n
  | .relay i =>
    let x := (a - 0x20000000000) % 2 ^ 36
    let k := min n (64 - x % 64)
    let one (s : State) (x n off : Nat) : State :=
      match s.routeTo i with
      | some p => s.request p (rdFlit i x n) none (.coreRd c off n)
      | none => s
    let s := one s x k off
    if n ≤ k then s else one s (x + k) (n - k) (off + k)
  | _ => s

/-- Is a request a Device write of a core (R184)? -/
def ReqFor.deviceWrite (who : ReqFor) (c : Nat) : Bool :=
  match who with
  | .coreWr d device .. => d == c && device
  | _ => false

/-- Has a core a Device write that its target has not yet acknowledged (R184, R190)? -/
def State.unacknowledged (s : State) (c : Nat) : Bool :=
  s.relay.reqs.any (fun e => match e.2 with | some r => r.who.deviceWrite c | none => false) ||
  s.relay.queue.any (fun e => e.2.2.2.deviceWrite c)

/-- A request that no core waits for any more: its answer is dropped. -/
def ReqFor.orphan (who : ReqFor) (c : Nat) (writes : Bool) : ReqFor :=
  match who with
  | .coreRd d o n => if d = c then .coreRd numCores o n else who
  | .coreWr d device lvl va pa => if d = c ∧ writes = true then .coreWr numCores device lvl va pa else who
  | _ => who

/-- What a core still waits for outside the device is for nobody any more; writes: nor are the acknowledgements of its stores (R197). -/
def State.dropCore (s : State) (c : Nat) (writes : Bool) : State :=
  let reads := s.host.reads.map (fun e => (e.1, e.2.map (fun r => match r.who with
    | .core d o => if d = c then { r with who := .core numCores o } else r
    | _ => r)))
  let waits := s.host.queue.map (fun e => match e with
    | (f, .core d o, a, n) => (f, .core (if d = c then numCores else d) o, a, n)
    | e => e)
  let reqs := s.relay.reqs.map (fun e => (e.1, e.2.map (fun r => { r with who := r.who.orphan c writes })))
  let queue := s.relay.queue.map (fun e => (e.1, e.2.1, e.2.2.1, e.2.2.2.orphan c writes))
  { s with host := { s.host with reads := reads, queue := waits },
           relay := { s.relay with reqs := reqs, queue := queue, parts := Sparse.set [] s.relay.parts c [] } }

/-- The reads of SQ entries under way for a ring pair are for nobody any more. -/
def State.dropRingReads (s : State) (q : Nat) : State :=
  let other (w : ReadFor) : ReadFor := match w with | .ring k => if k = q then .core numCores 0 else w | w => w
  let reads := s.host.reads.map (fun e => (e.1, e.2.map (fun r => { r with who := other r.who })))
  { s with host := { s.host with reads := reads, queue := s.host.queue.map (fun e => (e.1, other e.2.1, e.2.2)) } }

/-- The reads that a core waits for are for nobody any more. -/
def State.dropCoreReads (s : State) (c : Nat) : State := s.dropCore c false

end Sys2Proof.Machine
end

