-- ==== Sys2Proof/Machine/HostMsg.lean ====
section
/-! DEFINITION. The interrupt messages of the host endpoint (R406, R407): MSI-X and INTx. -/
namespace Sys2Proof.Machine

/-- A function, changed. -/
def State.modFn (s : State) (f : Nat) (g : HostFn → HostFn) : State :=
  { s with host := { s.host with fns := Sparse.set HostFn.reset s.host.fns f (g (s.hostFn f)) } }

/-- The PID bound to a function. -/
def State.fnPid (s : State) (f : Nat) : Nat := s.rf (Reg.HOSTEP_FBIND.at f) 5 0

/-- Does a function exist on the link (FSTATD.PRESENT)? -/
def State.fnPresent (s : State) (f : Nat) : Bool :=
  f == 0 || (bit (Sparse.get (0 : W32) (s.hostFn 0).cfg 0x158) 0 && decide (f ≤ (Sparse.get (0 : W32) (s.hostFn 0).cfg 0x160).toNat))

/-- A record of bank 43 (R418) with the function's tag, and its AER bit. -/
def State.hostRecord (s : State) (f unit code m0 aer : Nat) : State :=
  (s.modFn f (fun n => { n with aer := n.aer ||| 2 ^ aer })).record
    { bank := 43, unit := unit, code := code, sev := .deferred,
      tag := some { world := false, pid := s.fnPid f, cls := 2, src := f }, misc0 := m0 }

/-- Unsupported Request. -/
def Aer.unsupported : Nat := 20

/-- Are a function's BARs open (R401)? -/
def State.barOpen (s : State) (f : Nat) : Bool := s.fnPresent f && (s.hostFn f).mse && !(s.hostFn f).d3

/-- A write of the host to a register in a BAR (R401): discarded while the BARs are closed. -/
def State.barWrite (s : State) (f : Nat) (act : State → State) : State :=
  if !s.rb Reg.HOSTEP_LINKSTAT.at 0 then s
  else if s.barOpen f then act s else s.hostRecord f 0x05 0x07 0 Aer.unsupported

/-- The MSI-X entry v of function f. -/
def State.msix (s : State) (f v : Nat) : MsixEntry := Sparse.get MsixEntry.reset s.host.msix (64 * f + v)

/-- The MSI-X Table Size of a function (R397). -/
def msixSize (f : Nat) : Nat := if f = 0 then 64 else 8

/-- The PBA bit of an entry, set. -/
def State.setPba (s : State) (f v : Nat) (b : Bool) : State :=
  { s with host := { s.host with pba := Sparse.set false s.host.pba (64 * f + v) b } }

/-- The INTA condition (R407). -/
def State.intaCond (s : State) : Bool := s.host.intpend != 0 && !(s.hostFn 0).intxOff

/-- Assert_INTA or Deassert_INTA leaves when the condition changes (R407): data 0xA0 and 0xA1 with no address. -/
def State.updateInta (s : State) : State :=
  if s.intaCond = s.host.inta then s
  else { s with host := { s.host with inta := s.intaCond } }.emit .msi 0 [if s.intaCond then 0xA0 else 0xA1]

/-- May the message of an entry leave now (R406, R414)? -/
def State.msixOpen (s : State) (f v : Nat) : Bool :=
  let n := s.hostFn f
  n.msixEn && !n.fnMask && n.bme && !n.d3 && !bit (s.msix f v).ctl 0

/-- The message of an entry leaves with the function's requester ID. -/
def State.sendMsix (s : State) (f v : Nat) : State :=
  let e := s.msix f v
  s.emit .msi f [e.addrL.toNat + e.addrH.toNat * 2 ^ 32, e.data.toNat]

/-- A raise of vector v of function f (R406, R407). -/
def State.hostRaise (s : State) (f v : Nat) : State :=
  if !(s.hostFn f).msixEn then
    (if f = 0 ∧ v < 16 then { s with host := { s.host with intpend := setFld s.host.intpend v v 1 } }.updateInta else s)
  else if v ≥ msixSize f then s
  else if s.msixOpen f v then s.sendMsix f v
  else s.setPba f v true

/-- Pending messages of a function whose masks are gone leave, and their PBA bits clear (R406). -/
def State.sendPending (s : State) (f : Nat) : State :=
  (List.range (msixSize f)).foldl (fun s v =>
    if Sparse.get false s.host.pba (64 * f + v) && s.msixOpen f v then (s.sendMsix f v).setPba f v false else s) s

/-- A mailbox word of PF0: 0-3 G2H, 4-7 H2G, 8 MBSTAT. -/
def State.setMb (s : State) (i : Nat) (v : W32) : State := { s with host := { s.host with mb := Sparse.set 0 s.host.mb i v } }

/-- A write of MBSEND by the hypervisor (R417). -/
def State.mailOut (s : State) : State :=
  let s := (List.range 4).foldl (fun s i => s.setMb i (s.reg (Reg.HOSTEP_MB_G2H.at i))) s
  let st := Sparse.get 0 s.host.mb 8
  let s := s.setMb 8 (st ||| 0x10000)
  if bit st 15 then s.hostRaise 0 (fld st 5 0) else s

end Sys2Proof.Machine
end

