-- ==== Sys2Proof/Machine/Deflate.lean ====
section
/-! DEFINITION. The compressed formats of Mash (R338-R340): DEFLATE (RFC 1951), its zlib wrapper (RFC 1950) and LZ4 blocks, decoded as their
documents say; and the streams that MASH produces. -/
namespace Sys2Proof.Machine

/-- Output exceeds AUX (R355). -/
def Eng.overflow : Nat := 0x21
/-- Malformed compressed input. -/
def Eng.badStream : Nat := 0x22
/-- Compressed input ends early. -/
def Eng.trunc : Nat := 0x23
/-- zlib header or Adler-32 check failed. -/
def Eng.cksum : Nat := 0x24
/-- zlib preset dictionary. -/
def Eng.dict : Nat := 0x25

/-- What a decoder answers: its value and what is left of the input, or the code of the first fault. -/
abbrev Decoded (α β : Type) := Except Nat (α × β)

/-! ## DEFLATE -/

/-- The bits of a DEFLATE stream: least significant first in each byte. -/
def bitsOf (bs : List Byte) : List Bool := bs.flatMap (fun b => (List.range 8).map (fun i => b.getLsbD i))

/-- n bits as a number, least significant first. -/
def takeNum : Nat → List Bool → Decoded Nat (List Bool)
  | 0, b => .ok (0, b)
  | _ + 1, [] => .error Eng.trunc
  | n + 1, x :: t => match takeNum n t with
    | .ok (v, r) => .ok (b2n x + 2 * v, r)
    | .error e => .error e

/-- n whole bytes of a stream. -/
def takeBytes : Nat → List Bool → List Byte → Decoded (List Byte) (List Bool)
  | 0, b, acc => .ok (acc, b)
  | n + 1, b, acc => match takeNum 8 b with
    | .ok (v, r) => takeBytes n r (BitVec.ofNat 8 v :: acc)
    | .error e => .error e

/-- A canonical Huffman code: the number of codes of each length 1-15, and the symbols by length, then by value. -/
structure Huff where
  counts : List Nat
  syms : List Nat
deriving DecidableEq, Repr

/-- The code that a list of code lengths gives; 0 is no code. -/
def Huff.ofLens (lens : List Nat) : Huff :=
  { counts := (List.range' 1 15).map (fun l => (lens.filter (fun x => x == l)).length),
    syms := (List.range' 1 15).flatMap (fun l => (List.range lens.length).filter (fun i => lens.getD i 0 == l)) }

/-- The code space that lengths use, of 2^15: more is over-subscribed, less incomplete. -/
def codeSpace (lens : List Nat) : Nat := ((lens.filter (fun l => l != 0)).map (fun l => 2 ^ (15 - l))).foldl (· + ·) 0

/-- May lengths stand for a code: a complete one, or, where lone allows it, one code or none? -/
def huffOk (lone : Bool) (lens : List Nat) : Bool :=
  codeSpace lens == 2 ^ 15 || (lone && decide ((lens.filter (fun l => l != 0)).length ≤ 1) && decide (codeSpace lens < 2 ^ 15))

/-- The next symbol of a code: code and first are the bits so far and the first code of their length. -/
def huffSym (syms : List Nat) : List Nat → Nat → Nat → Nat → List Bool → Decoded Nat (List Bool)
  | [], _, _, _, _ => .error Eng.badStream
  | _ :: _, _, _, _, [] => .error Eng.trunc
  | n :: ns, code, first, index, x :: t =>
    let code := code + b2n x
    if code < first + n then .ok (syms.getD (index + (code - first)) 0, t)
    else huffSym syms ns (code * 2) ((first + n) * 2) (index + n) t

/-- A symbol of a code. -/
def Huff.next (h : Huff) (b : List Bool) : Decoded Nat (List Bool) := huffSym h.syms h.counts 0 0 0 b

/-- A match copied from a distance back, into an output whose last byte stands first. -/
def copyBack (d : Nat) : Nat → List Byte → List Byte
  | 0, acc => acc
  | n + 1, acc => copyBack d n (acc.getD (d - 1) 0 :: acc)

/-- Base and extra bits of a length symbol 257-285. -/
def lengthBase (s : Nat) : Nat × Nat :=
  if s = 285 then (258, 0) else if s < 265 then (s - 254, 0) else ((4 + (s - 261) % 4) * 2 ^ ((s - 261) / 4) + 3, (s - 261) / 4)

/-- Base and extra bits of a distance symbol 0-29. -/
def distBase (d : Nat) : Nat × Nat := if d < 4 then (d + 1, 0) else ((2 + d % 2) * 2 ^ ((d - 2) / 2) + 1, (d - 2) / 2)

/-- A symbol with its extra bits. -/
def takeExtra (be : Nat × Nat) (b : List Bool) : Decoded Nat (List Bool) :=
  match takeNum be.2 b with
  | .ok (v, r) => .ok (be.1 + v, r)
  | .error e => .error e

/-- The symbols of a compressed block up to its end; cap: the output's limit. -/
def inflateSyms (lit dist : Huff) (cap : Nat) : Nat → List Byte → List Bool → Decoded (List Byte) (List Bool)
  | 0, _, _ => .error Eng.trunc
  | f + 1, acc, b =>
    match lit.next b with
    | .error e => .error e
    | .ok (s, b) =>
      if s < 256 then
        (if cap ≤ acc.length then .error Eng.overflow else inflateSyms lit dist cap f (BitVec.ofNat 8 s :: acc) b)
      else if s = 256 then .ok (acc, b)
      else if s > 285 then .error Eng.badStream
      else match takeExtra (lengthBase s) b with
        | .error e => .error e
        | .ok (len, b) =>
          match dist.next b with
          | .error e => .error e
          | .ok (d, b) =>
            if d > 29 then .error Eng.badStream
            else match takeExtra (distBase d) b with
              | .error e => .error e
              | .ok (back, b) =>
                if acc.length < back then .error Eng.badStream
                else if cap < acc.length + len then .error Eng.overflow
                else inflateSyms lit dist cap f (copyBack back len acc) b

/-- The order in which a dynamic block gives the lengths of its code-length code. -/
def lensOrder : List Nat := [16, 17, 18, 0, 8, 7, 9, 6, 10, 5, 11, 4, 12, 3, 13, 2, 14, 1, 15]

/-- The code lengths of a dynamic block, as runs of its code-length code; need: how many are wanted. -/
def readLens (h : Huff) (need : Nat) : Nat → List Nat → List Bool → Decoded (List Nat) (List Bool)
  | 0, _, _ => .error Eng.trunc
  | f + 1, acc, b =>
    if need ≤ acc.length then (if acc.length = need then .ok (acc, b) else .error Eng.badStream)
    else match h.next b with
      | .error e => .error e
      | .ok (s, b) =>
        if s < 16 then readLens h need f (acc ++ [s]) b
        else if s = 16 ∧ acc.isEmpty then .error Eng.badStream
        else
          let (base, extra, v) := if s = 16 then (3, 2, acc.getLastD 0) else if s = 17 then (3, 3, 0) else (11, 7, 0)
          match takeExtra (base, extra) b with
          | .error e => .error e
          | .ok (n, b) => readLens h need f (acc ++ List.replicate n v) b

/-- The 3-bit lengths of the code-length code. -/
def readShort : Nat → List Nat → List Bool → Decoded (List Nat) (List Bool)
  | 0, acc, b => .ok (acc, b)
  | n + 1, acc, b => match takeNum 3 b with
    | .ok (v, r) => readShort n (acc ++ [v]) r
    | .error e => .error e

/-- The codes of a dynamic block. -/
def dynamicCodes (b : List Bool) : Decoded (Huff × Huff) (List Bool) :=
  match takeNum 14 b with
  | .error e => .error e
  | .ok (v, b) =>
    let nl := v % 32 + 257
    let nd := v / 32 % 32 + 1
    if nl > 286 ∨ nd > 30 then .error Eng.badStream
    else match readShort (v / 1024 + 4) [] b with
      | .error e => .error e
      | .ok (short, b) =>
        let lens := (List.range 19).map (fun i => short.getD (lensOrder.idxOf i) 0)
        if !huffOk false lens then .error Eng.badStream
        else match readLens (Huff.ofLens lens) (nl + nd) (nl + nd + 1) [] b with
          | .error e => .error e
          | .ok (all, b) =>
            let l := all.take nl
            let d := all.drop nl
            if l.getD 256 0 = 0 ∨ !huffOk true l ∨ !huffOk true d then .error Eng.badStream
            else .ok ((Huff.ofLens l, Huff.ofLens d), b)

/-- The codes of a fixed block. -/
def fixedCodes : Huff × Huff :=
  (Huff.ofLens (List.replicate 144 8 ++ List.replicate 112 9 ++ List.replicate 24 7 ++ List.replicate 8 8), Huff.ofLens (List.replicate 30 5))

/-- One block after its header: stored, fixed or dynamic (R340); own: only what MASH emits (R339). -/
def inflateBlock (own : Bool) (cap ty : Nat) (acc : List Byte) (b : List Bool) : Decoded (List Byte) (List Bool) :=
  if ty = 0 then
    match takeNum 32 (b.drop (b.length % 8)) with
    | .error e => .error e
    | .ok (v, b) =>
      if v % 65536 + v / 65536 ≠ 65535 then .error Eng.badStream
      else if cap < acc.length + v % 65536 then .error Eng.overflow
      else takeBytes (v % 65536) b acc
  else if ty = 1 ∧ !own then inflateSyms fixedCodes.1 fixedCodes.2 cap (b.length + 1) acc b
  else if ty = 2 then
    match dynamicCodes b with
    | .error e => .error e
    | .ok ((l, d), b) => inflateSyms l d cap (b.length + 1) acc b
  else .error Eng.badStream

/-- The blocks of a stream up to the final one. own: the blocks are those of R339, of 32,768 bytes each but the last. -/
def inflateBlocks (own : Bool) (cap : Nat) : Nat → List Byte → List Bool → Decoded (List Byte) (List Bool)
  | 0, _, _ => .error Eng.trunc
  | f + 1, acc, b =>
    match takeNum 3 b with
    | .error e => .error e
    | .ok (h, b) =>
      match inflateBlock own cap (h / 2) acc b with
      | .error e => .error e
      | .ok (acc', b) =>
        if own ∧ (acc'.length > acc.length + 32768 ∨ (h % 2 = 0 ∧ acc'.length ≠ acc.length + 32768)) then .error Eng.badStream
        else if h % 2 = 1 then .ok (acc'.reverse, b.drop (b.length % 8))
        else inflateBlocks own cap f acc' b

/-- A whole raw stream: its output and the bits left, whole bytes of them. -/
def inflate (own : Bool) (cap : Nat) (bs : List Byte) : Decoded (List Byte) (List Bool) :=
  inflateBlocks own cap (8 * bs.length + 1) [] (bitsOf bs)

/-! ## zlib -/

/-- Adler-32 (RFC 1950). -/
def adler32 (bs : List Byte) : Nat :=
  let (a, b) := bs.foldl (fun x v => let a := (x.1 + v.toNat) % 65521; (a, (x.2 + a) % 65521)) (1, 0)
  b * 65536 + a

/-- The decoded zlib stream (R340): header, blocks, trailer, nothing behind. -/
def unzlib (cap : Nat) (bs : List Byte) : Except Nat (List Byte) :=
  match bs with
  | h :: g :: rest =>
    if h.toNat % 16 ≠ 8 ∨ h.toNat / 16 > 7 then .error Eng.badStream
    else if (h.toNat * 256 + g.toNat) % 31 ≠ 0 then .error Eng.cksum
    else if g.getLsbD 5 then .error Eng.dict
    else match inflate false cap rest with
      | .error e => .error e
      | .ok (out, b) =>
        match takeBytes 4 b [] with
        | .error e => .error e
        | .ok (sum, b) =>
          if leNat sum ≠ adler32 out then .error Eng.cksum else if !b.isEmpty then .error Eng.badStream else .ok out
  | _ => .error Eng.trunc

/-! ## LZ4 blocks -/

/-- A length of 15 or more is carried on in bytes, each added, up to one below 255. -/
def lz4Len : Nat → List Byte → Decoded Nat (List Byte)
  | _, [] => .error Eng.trunc
  | n, x :: t => if x.toNat = 255 then lz4Len (n + 255) t else .ok (n + x.toNat, t)

/-- The length field of a token with what follows it. -/
def lz4Field (n : Nat) (bs : List Byte) : Decoded Nat (List Byte) := if n = 15 then lz4Len 15 bs else .ok (n, bs)

/-- The sequences of a block; the last ends after its literals. -/
def unlz4 (cap : Nat) : Nat → List Byte → List Byte → Except Nat (List Byte)
  | 0, _, _ => .error Eng.trunc
  | _ + 1, _, [] => .error Eng.trunc
  | f + 1, acc, tok :: bs =>
    match lz4Field (tok.toNat / 16) bs with
    | .error e => .error e
    | .ok (n, bs) =>
      if cap < acc.length + min n bs.length then .error Eng.overflow
      else if bs.length < n then .error Eng.trunc
      else
        let acc := (bs.take n).reverse ++ acc
        match bs.drop n with
        | [] => .ok acc.reverse
        | [_] => .error Eng.trunc
        | o :: p :: bs =>
          let d := o.toNat + p.toNat * 256
          match lz4Field (tok.toNat % 16) bs with
          | .error e => .error e
          | .ok (m, bs) =>
            if d = 0 ∨ acc.length < d then .error Eng.badStream
            else if cap < acc.length + m + 4 then .error Eng.overflow
            else unlz4 cap f (copyBack d (m + 4) acc) bs

/-! ## UNMASH and MASH -/

/-- UNMASH (R340): the output for a format (PARAM) within a capacity, or the code of the first fault. -/
def unmashOut (param cap : Nat) (bs : List Byte) : Except Nat (List Byte) :=
  if param = 0 then
    match inflate false cap bs with
    | .error e => .error e
    | .ok (out, b) => if b.isEmpty then .ok out else .error Eng.badStream
  else if param = 1 then unzlib cap bs
  else unlz4 cap (bs.length + 1) [] bs

/-- Stored blocks of 32,768 bytes, the last with BFINAL. -/
def storedBlocks : Nat → List Byte → List Byte
  | 0, _ => []
  | f + 1, bs =>
    let k := bs.take 32768
    leBytes 1 (b2n (decide (bs.length ≤ 32768))) ++ leBytes 2 k.length ++ leBytes 2 (65535 - k.length) ++ k ++
      (if bs.length ≤ 32768 then [] else storedBlocks f (bs.drop 32768))

/-- An LZ4 block of literals alone. -/
def literalBlock (bs : List Byte) : List Byte :=
  let n := bs.length
  (if n < 15 then leBytes 1 (n * 16) else leBytes 1 0xF0 ++ List.replicate ((n - 15) / 255) 0xFF ++ leBytes 1 ((n - 15) % 255)) ++ bs

/-- The bound of MASH's output (R339). -/
def mashBound (param n : Nat) : Nat :=
  if param = 0 then n + 5 * ((n + 32767) / 32768)
  else if param = 1 then n + 5 * ((n + 32767) / 32768) + 6
  else n + (n + 254) / 255 + 16

/-- Does a candidate stand for the input as R339 says: a complete stream of its blocks, within the bound? -/
def mashFits (param : Nat) (bs out : List Byte) : Bool :=
  decide (out.length ≤ mashBound param bs.length) &&
  (if param = 0 then (match inflate true bs.length out with | .ok (d, b) => d == bs && b.isEmpty | .error _ => false)
   else (match unlz4 bs.length (out.length + 1) [] out with | .ok d => d == bs | .error _ => false))

/-- MASH (R339): which of the streams that stand for the input is produced is open (Config.mash); where that is no such stream, the plain one. -/
def mashOut (param : Nat) (bs : List Byte) : List Byte :=
  let raw (p : Nat) (plain : List Byte) : List Byte := if mashFits p bs (Config.mash p bs) then Config.mash p bs else plain
  if param = 0 then raw 0 (storedBlocks (bs.length + 1) bs)
  else if param = 1 then [0x78, 0x9C] ++ raw 0 (storedBlocks (bs.length + 1) bs) ++ (leBytes 4 (adler32 bs)).reverse
  else raw 2 (literalBlock bs)

end Sys2Proof.Machine
end

