-- ==== Sys2Proof/Machine/RegAccess.lean ====
section
/-! DEFINITION. Software's register access, field by field (R10-R21): the access codes, the SW mark, locks, and the
pairs with their latches and holding registers. -/
namespace Sys2Proof.Machine

/-- The key of a requester's latch or holding register for the pair at an address (R19, R21): logical cores, then the
debug port, PF0 and the boot ROM sequencer. -/
def latchKey (r : Requester) (a : Nat) : Nat :=
  a * 64 + (match r with
    | .core n => n % 48
    | .dap => 48
    | .pf0 => 49
    | .bootRom => 50)

/-- The world that a requester's register access carries (R13, R38): a core's own; the debug port's as AUTH authorises
(bit 3 of DEBUG.AUTH: invasive sealed-world debug); PF0 open; the boot ROM sequencer sealed. -/
def State.worldOf (s : State) : Requester → Bool
  | .core n => (s.core n).lvl == 3
  | .dap => s.rb Reg.DEBUG_AUTH.at 3
  | .pf0 => false
  | .bootRom => true

/-- The level that a requester's access counts as: a core's own, H for the debug port (R451), M for the boot ROM. -/
def State.levelOf (s : State) : Requester → Nat
  | .core n => (s.core n).lvl
  | .dap => 2
  | .pf0 => 0
  | .bootRom => 3

/-- The access tag of a requester (R38). -/
def State.tagOf (s : State) : Requester → AccessTag
  | .core n => (s.core n).tag n
  | .dap => { world := s.worldOf .dap, pid := 0, cls := 6, src := 0 }
  | .pf0 => { world := false, pid := s.rf Reg.HOSTEP_FBIND.at 5 0, cls := 2, src := 0 }
  | .bootRom => { world := true, pid := 0, cls := 7, src := 0 }

/-- The dispatch queue that a register address belongs to. -/
def pacerQueueOf (a : Nat) : Option Nat :=
  if 0x10101000 ≤ a ∧ a < 0x10101800 then some ((a - 0x10101000) / 0x20) else none

/-- Is every field of the register at an address SW beyond what its table marks: error banks 33 and 36 (R60), a sealed
interrupt source (R431), Kiln's job channels 4-7 (R356), CELALLOC[63] (its table), TRACE while sealed-owned (R504), a sealed
dispatch queue (QCFG's table)? -/
def State.allSw (s : State) (a : Nat) : Bool :=
  (decide (0x1A010000 + 33 * 0x1000 ≤ a) && decide (a < 0x1A010000 + 34 * 0x1000)) ||
  (decide (0x1A010000 + 36 * 0x1000 ≤ a) && decide (a < 0x1A010000 + 37 * 0x1000)) ||
  (Reg.INTD_SCFG.holds a && s.rb a 31) ||
  (Reg.INTD_SSTAT.holds a && s.rb (a - Reg.INTD_SSTAT.base + Reg.INTD_SCFG.base) 31) ||
  (Reg.INTD_PCFG.holds a && (s.rb a 31 || (a - Reg.INTD_PCFG.base) / 4 % 32 == 9)) ||
  (Reg.INTD_PSTAT.holds a &&
    (s.rb (a - Reg.INTD_PSTAT.base + Reg.INTD_PCFG.base) 31 || (a - Reg.INTD_PSTAT.base) / 4 % 32 == 9)) ||
  (decide (0x13100080 ≤ a) && decide (a < 0x13100100)) ||
  (a == Reg.SYSCTL_CELALLOC.at 63) ||
  (decide (0x17000000 ≤ a) && decide (a < 0x18000000) && s.rb Reg.SYSCTL_OWNER.at 9) ||
  (match pacerQueueOf a with | some q => s.rb (Reg.PACER_QCFG.at q) 30 | none => false)

/-- Is a locked field's lock bit set (R14)? -/
def State.fieldLocked (s : State) (a : Nat) (f : FieldDef) : Bool :=
  match f.lock with
  | none => false
  | some (d, b) => s.rb (Int.toNat ((a : Int) + d)) b

/-- What software reads in one field (R12, R13). -/
def readField (world : Bool) (v : W32) (f : FieldDef) : Nat :=
  if f.acc = .wo ∨ (f.sw ∧ !world) then 0 else fld v f.hi f.lo

/-- The value that a software write leaves in one field (R12-R14). -/
def State.writeField (s : State) (world : Bool) (a : Nat) (v : W32) (f : FieldDef) : Nat :=
  let old := fld (s.reg a) f.hi f.lo
  let new := fld v f.hi f.lo
  if f.sw ∧ !world then old
  else match f.acc with
    | .rw | .rwh => new
    | .ro | .wo => old
    | .w1c => old &&& (new ^^^ (2 ^ (f.hi - f.lo + 1) - 1))
    | .w1s => old ||| new
    | .rwl => if s.fieldLocked a f then old else new

/-- The value that a software write leaves in a register: each field by its code, reserved bits zero (R11, R12). -/
def State.writtenVal (s : State) (world : Bool) (a : Nat) (v : W32) (r : RegDef) : W32 :=
  r.fields.foldl (fun w f => setFld w f.hi f.lo (s.writeField world a v f)) (s.reg a)

/-- A software write of one register under R11-R14. An offset that holds no register is ignored (R11). -/
def State.writeFields (s : State) (world : Bool) (a : Nat) (v : W32) : State :=
  match regAt a with
  | none => s
  | some r => if s.allSw a && !world then s else s.setReg a (s.writtenVal world a v r)

/-- A register's value after a reset of its block: a locked RWL field keeps its value and its lock (R14, R524), unless locks are lost. -/
def State.valAfter (s : State) (locks : Bool) (a : Nat) : W32 :=
  match regAt a with
  | none => resetAt a
  | some r => r.fields.foldl (fun v f => if locks && f.acc == .rwl && s.fieldLocked a f then setFld v f.hi f.lo (fld (s.reg a) f.hi f.lo) else v) (resetAt a)

/-- A software value for a register whose RW/H fields hardware updates in the same cycle: the hardware values stand in them (R16). -/
def State.collided (s : State) (a : Nat) (v : W32) : W32 :=
  match regAt a with
  | none => v
  | some r => r.fields.foldl (fun v f => if f.acc == .rwh then setFld v f.hi f.lo (fld (s.reg a) f.hi f.lo) else v) v

/-- The part that the register at an address plays in a pair (R19). -/
def pairPartAt (a : Nat) : PairPart :=
  match regAt a with
  | none => .single
  | some r => r.pair

/-- Does a pair have a field that software writes, so that R21 holds its low word? -/
def pairWritable (a : Nat) : Bool :=
  match regAt a with
  | none => false
  | some r => r.fields.any (fun f => decide (f.acc ≠ .ro))

/-- The value held for a pair by a requester's write of NAME_LO (R21). -/
def State.held (s : State) (r : Requester) (a : Nat) : Option W32 := Sparse.get none s.hold (latchKey r a)

/-- A requester's latched high word of a pair (R19). -/
def State.latched (s : State) (r : Requester) (a : Nat) : Option W32 := Sparse.get none s.latch (latchKey r a)

/-- The holding register of a pair, set. -/
def State.setHeld (s : State) (r : Requester) (a : Nat) (v : Option W32) : State :=
  { s with hold := Sparse.set none s.hold (latchKey r a) v }

/-- The latch of a pair, set. -/
def State.setLatched (s : State) (r : Requester) (a : Nat) (v : Option W32) : State :=
  { s with latch := Sparse.set none s.latch (latchKey r a) v }

/-- A commit of both words of a pair as one update (R21): the fields' locks are those before the write. -/
def State.commitPair (s : State) (world : Bool) (a : Nat) (lo hi : W32) : State :=
  match regAt a, regAt (a + 4) with
  | some rl, some rh =>
    if s.allSw a && !world then s
    else
      let l := s.writtenVal world a lo rl
      let h := s.writtenVal world (a + 4) hi rh
      (s.setReg a l).setReg (a + 4) h
  | _, _ => s

/-! ## Who reaches a register -/

/-- May the debug port access a register (R451)? DEBUG always; TRACE under any enable; any other block under an invasive one. -/
def State.dapAllowed (s : State) (a : Nat) : Bool :=
  let inv := s.rb Reg.DEBUG_AUTH.at 1 || s.rb Reg.DEBUG_AUTH.at 3
  if 0x18000000 ≤ a ∧ a < 0x19000000 then true
  else if 0x17000000 ≤ a ∧ a < 0x18000000 then inv || s.rb Reg.DEBUG_AUTH.at 0 || s.rb Reg.DEBUG_AUTH.at 2
  else inv

/-- A register access by a requester: cores reach every register, and so does the boot ROM sequencer, which applies the
image (R533); the debug port what R451 allows; the host endpoint none: to it the region is unmapped (R36). -/
def State.byReq (s : State) (r : Requester) (a : Nat) (f : State → State) : State :=
  match r with
  | .core n => if n < numCores then f s else s
  | .bootRom => f s
  | .dap => if s.dapAllowed a then f s else s
  | .pf0 => s.recordUnmapped (s.tagOf r) a

end Sys2Proof.Machine
end

