-- ==== Sys2Proof/Machine/Keys.lean ====
section
/-! DEFINITION. Kiln's key slots (R344-R350) and MACsec protection (R327, R351). -/
namespace Sys2Proof.Machine

/-- The engine status codes of R355. -/
def Eng.badParam : Nat := 0x20
/-- Slot not VALID. -/
def Eng.noKey : Nat := 0x26
/-- Slot not granted. -/
def Eng.deny : Nat := 0x27
/-- Counter exhausted. -/
def Eng.exhaust : Nat := 0x28
/-- Input too short. -/
def Eng.short : Nat := 0x29
/-- Slot cleared during the step. -/
def Eng.keyLost : Nat := 0x2A
/-- Check failed twice. -/
def Eng.hwErr : Nat := 0x2B

/-- Is a key slot VALID? -/
def State.keyValid (s : State) (k : Nat) : Bool := s.rb (Reg.KILN_KS_CFG.at k) 0
/-- TYPE of a key slot (R344). -/
def State.keyType (s : State) (k : Nat) : Nat := s.rf (Reg.KILN_KS_CFG.at k) 3 1
/-- The key value of a slot. -/
def State.keyValue (s : State) (k : Nat) : List Byte := Sparse.get [] s.vault.keys k
/-- The length of a key by TYPE (R344); 0: reserved. -/
def keyLen (ty : Nat) : Nat :=
  if ty = 0 then 16 else if ty = 1 then 32 else if ty = 2 then 32 else if ty = 3 then 48 else if ty = 4 then 32 else if ty = 5 then 64 else 0

/-- May a requester use a slot for a command with a USE bit, its TYPE being one of tys (R345)? The code of the refusal, if any. -/
def State.keyRefusal (s : State) (k use : Nat) (tys : List Nat) (world : Bool) (pid : Nat) : Option Nat :=
  let c := s.reg (Reg.KILN_KS_CFG.at k)
  if !bit c 0 then some Eng.noKey
  else if !(fld c 3 1 ∈ tys) ∨ !bit c use ∨ bit c 13 ∨ bit c 14 then some Eng.deny
  else if world ∨ (!bit c 4 ∧ (if pid < 32 then s.rb (Reg.KILN_KS_PID_LO.at k) pid else s.rb (Reg.KILN_KS_PID_HI.at k) (pid - 32))) then none
  else some Eng.deny

/-- Bytes cut or filled with zero to a length. -/
def fitTo (n : Nat) (bs : List Byte) : List Byte := (bs ++ List.replicate (n - bs.length) 0).take n

/-- Bytes combined with a key stream. -/
def padded (pad : Nat → Byte) (bs : List Byte) : List Byte := List.zipWith (fun i b => b ^^^ pad i) (List.range bs.length) bs

/-- AES-GCM (NIST SP 800-38D): the ciphertext and its tag. -/
def gcmSeal (key iv aad p : List Byte) : List Byte :=
  let c := padded (Config.gcmPad key iv) p
  c ++ fitTo 16 (Config.gcmTag key iv aad c)

/-- AES-GCM opened: the plaintext, where the tag is right. -/
def gcmOpen (key iv aad ct : List Byte) : Option (List Byte) :=
  let c := ct.take (ct.length - 16)
  if 16 ≤ ct.length ∧ ct.drop (ct.length - 16) = fitTo 16 (Config.gcmTag key iv aad c) then some (padded (Config.gcmPad key iv) c) else none

/-- A slot is cleared (R346, R350): its key and counter are zeroed, and a started step that uses it is lost. -/
def State.clearKey (s : State) (k : Nat) : State :=
  let s := s.setRb (Reg.KILN_KS_CFG.at k) 0 false
  let s := s.setReg64 (Reg.KILN_KS_CTR_LO.at k) 0
  { s with vault := { s.vault with keys := Sparse.set [] s.vault.keys k [] },
           kiln := { s.kiln with steps := s.kiln.steps.map (fun e => if e.started ∧ e.key = some k then { e with lost := true } else e) } }

/-- All 64 slots are cleared (R350). -/
def State.clearKeys (s : State) : State := (List.range 64).foldl (fun s k => s.clearKey k) s

/-- A clear by tamper or debug unlock is recorded (R350, R360 UNIT 0x04). -/
def State.clearKeysRecorded (s : State) : State :=
  s.clearKeys.record { bank := 36, unit := 0x04, code := 0x07, sev := .contained, misc0 := 0xFF }

/-- A tamper clear ends every step in Kiln (R350). -/
def State.loseKilnSteps (s : State) : State :=
  { s with kiln := { s.kiln with steps := s.kiln.steps.map (fun e => { e with lost := true }) } }

/-- A write of KS_CFG (R346): while VALID = 1 only a write that clears VALID acts, and it clears the slot. -/
def State.writeKeyCfg (s : State) (world : Bool) (k : Nat) (v : W32) : State :=
  if !world then s
  else if s.keyValid k then (if bit v 0 then s else s.clearKey k)
  else (s.writeFields world (Reg.KILN_KS_CFG.at k) v).setRb (Reg.KILN_KS_CFG.at k) 0 false

/-- A write of KS_IVF (R346): ignored while VALID = 1. -/
def State.writeKeyIvf (s : State) (world : Bool) (k : Nat) (v : W32) : State :=
  if s.keyValid k then s else s.writeFields world (Reg.KILN_KS_IVF.at k) v

/-- SLOT_CLEAR (R346): a write of KS_CFG. -/
def execSlotClear (r : Requester) (slot : BitVec 6) (v : W32) (s : State) : Answer :=
  .next (s.byReq r (Reg.KILN_KS_CFG.at slot.toNat) (fun s => s.writeKeyCfg (s.worldOf r) slot.toNat v))

/-! ## MACsec -/

/-- n bytes of a number, most significant first. -/
def beBytes (n v : Nat) : List Byte := (leBytes n v).reverse

/-- The SecTAG of a transmitted frame (R351): EtherType 0x88E5, TCI with SC and E = C = CONF, AN, SL, PN and SCI. -/
def secTag (conf : Bool) (an len pn : Nat) (sci : List Byte) : List Byte :=
  beBytes 2 0x88E5 ++ beBytes 1 (0x20 + b2n conf * 0x0C + an % 4) ++ beBytes 1 (if len < 48 then len else 0) ++ beBytes 4 pn ++ sci

/-- A frame (DA, SA, rest) protected by SecY n with the adapter's address (R351), or the code of the failure. -/
def State.protect (s : State) (n : Nat) (frame : List Byte) : State × Except Nat (List Byte) :=
  let c := s.reg (Reg.KILN_SECY_CTL.at n)
  let k := fld c 27 22
  let pnA := Reg.KILN_SECY_TXPN.at n
  let pn := (s.reg pnA).toNat
  if (s.keyRefusal k 12 [0, 1] true 63).isSome then (s, .error (Eng.noKey + k * 2 ^ 8))
  else if pn = 0xFFFFFFFF then (s, .error (Eng.exhaust + k * 2 ^ 8))
  else
    let sci := (frame.drop 6).take 6 ++ beBytes 2 n
    let body := frame.drop 12
    let tag := secTag (bit c 30) (fld c 29 28) body.length pn sci
    let iv := sci ++ beBytes 4 pn
    let out := if bit c 30 then fitTo (body.length + 16) (gcmSeal (s.keyValue k) iv (frame.take 12 ++ tag) body)
      else body ++ fitTo 16 (gcmSeal (s.keyValue k) iv (frame.take 12 ++ tag ++ body) [])
    (s.setReg pnA (BitVec.ofNat 32 (pn + 1)), .ok (frame.take 12 ++ tag ++ out))

/-- A received MACsec frame validated by SecY n (R351): the frame without its SecTAG, or none. -/
def State.validate (s : State) (n : Nat) (f : List Byte) : State × Option (List Byte) :=
  let c := s.reg (Reg.KILN_SECY_CTL.at n)
  let b (i : Nat) : Nat := (f.getD i 0).toNat
  let an := b 14 % 4
  let sc := b 14 / 0x20 % 2 = 1
  let k := s.rf (Reg.KILN_SECY_RX.at n) (8 * an + 5) (8 * an)
  let pn := leNat ((f.drop 16).take 4).reverse
  let len := if sc then 16 else 8
  let tag := (f.drop 12).take len
  let body := f.drop (12 + len)
  let sci := if sc then (f.drop 20).take 8 else (f.drop 6).take 6 ++ beBytes 2 1
  let key := s.keyValue k
  let low := Sparse.get 0 s.vault.rxPn (n * 4 + an)
  if !bit c 31 ∨ (s.keyRefusal k 12 [0, 1] true 63).isSome ∨ pn + fld c 15 0 < low ∨ pn = 0 then (s, none)
  else
    let conf := b 14 / 4 % 4 = 3
    let r := if conf then gcmOpen key (sci ++ beBytes 4 pn) (f.take 12 ++ tag) body
      else (gcmOpen key (sci ++ beBytes 4 pn) (f.take 12 ++ tag ++ body.take (body.length - 16)) (body.drop (body.length - 16))).map
        (fun _ => body.take (body.length - 16))
    match r with
    | none => (s, none)
    | some p =>
      ({ s with vault := { s.vault with rxPn := Sparse.set 0 s.vault.rxPn (n * 4 + an) (max low (pn + 1)) } }, some (f.take 12 ++ p))

end Sys2Proof.Machine
end

