-- ==== Sys2Proof/Machine/Trace.lean ====
section
/-! DEFINITION. Split trace (chapter Split Trace): packets, the sequencer and its filter, source FIFOs and chunks,
sinks and triggers. Sources 0-47 are the ITUs, 48-95 the DTUs, 96 SWMSG and 97 the CSS (R497). -/
namespace Sys2Proof.Machine

/-- A trace source. -/
def State.tsrc (s : State) (n : Nat) : TraceSrc := Sparse.get TraceSrc.reset s.trace.srcs n

/-- A trace source, changed. -/
def State.modSrc (s : State) (n : Nat) (f : TraceSrc → TraceSrc) : State :=
  { s with trace := { s.trace with srcs := Sparse.set TraceSrc.reset s.trace.srcs n (f (s.tsrc n)) } }

/-- SRCSTAT.STATE of a source (R503): 0 IDLE, 1 ARMED, 2 TRACING, 3 SUSPENDED, 4 SLEEP. -/
def State.tstate (s : State) (n : Nat) : Nat := s.rf (Reg.TRACE_SRCSTAT.at n) 18 16

/-- SRCSTAT.STATE of a source, set. -/
def State.setTstate (s : State) (n v : Nat) : State := s.setRf (Reg.TRACE_SRCSTAT.at n) 18 16 v

/-- SRCCFG.SINK of a source. -/
def State.tsink (s : State) (n : Nat) : Nat := s.rf (Reg.TRACE_SRCCFG.at n) 26 24

/-- CTX of a core (R499): LVL, WORLD, the PID that its access tag carries, VMID and ASID. -/
def ctxOf (c : Nat) (k : Core) : Nat :=
  k.lvl + (if k.lvl = 3 then 4 else 0) + (k.tag c).pid * 8 + fld (k.srd 0x8C1) 59 48 * 2 ^ 9 + fld (k.srd 0x4C0) 15 0 * 2 ^ 21

/-- The core that an ITU or DTU belongs to (R497). -/
def srcCore (n : Nat) : Nat := if n < 48 then n else n - 48

/-- The groups of seven bits of the delta form (R501): n groups of a, lowest first, bit 7 set in all but the last. -/
def groups7 : Nat → Nat → List Byte
  | 0, _ => []
  | 1, a => [BitVec.ofNat 8 (a % 128)]
  | n + 1, a => BitVec.ofNat 8 (a % 128 + 128) :: groups7 n (a / 128)

/-- The number of groups of R501: the smallest n from 1 for which a and p agree above bit 7n - 1, at most 9. -/
def deltaLen : Nat → Nat → Nat → Nat → Nat
  | 0, n, _, _ => n
  | f + 1, n, a, p => if a / 2 ^ (7 * n) = p / 2 ^ (7 * n) then n else deltaLen f (n + 1) a p

/-- An address in delta form against a reference (R501). -/
def deltaForm (a p : Nat) : List Byte := groups7 (deltaLen 8 1 a p) a

/-- The number of 7-bit groups that a value needs. -/
def groupCount : Nat → Nat → Nat
  | 0, _ => 1
  | f + 1, a => if a < 128 then 1 else groupCount f (a / 128) + 1

/-- Packet bytes cut into full payloads of 14, with the rest (R505). -/
def cutChunks : Nat → List Byte → List (List Byte) × List Byte
  | 0, bs => ([], bs)
  | f + 1, bs =>
    if bs.length < 14 then ([], bs)
    else
      let (cs, r) := cutChunks f (bs.drop 14)
      (bs.take 14 :: cs, r)

/-- The bytes in a source's FIFO (R507). -/
def TraceSrc.held (t : TraceSrc) : Nat := (t.chunks.map List.length).sum + t.part.length

/-- Bytes enter a source's FIFO and are cut into chunks (R505). -/
def State.srcAppend (s : State) (n : Nat) (bs : List Byte) : State :=
  s.modSrc n (fun t =>
    let (cs, r) := cutChunks (bs.length + 1) (t.part ++ bs)
    { t with chunks := t.chunks ++ cs, part := r, since := t.since + bs.length })

/-- The bytes that wait for a sink from all its sources (R507). -/
def State.sinkHeld (s : State) (k : Nat) : Nat :=
  (s.trace.srcs.map (fun e => if s.tsink e.1 = k then 16 * e.2.chunks.length else 0)).sum

/-- SRCCFG.CLASS as it acts (R507): 3 acts as 2; SWMSG and CSS treat 0 as 1. -/
def State.tclass (s : State) (n : Nat) : Nat :=
  let c := min (s.rf (Reg.TRACE_SRCCFG.at n) 28 27) 2
  if n ≥ 96 ∧ c = 0 then 1 else c

/-- The bytes of a SYNC packet of a source (R499). -/
def syncBytes (reason : Nat) (pc etc : W64) (ctx : Nat) : List Byte :=
  BitVec.ofNat 8 1 :: BitVec.ofNat 8 reason :: (leBytes 8 pc.toNat ++ leBytes 8 etc.toNat ++ leBytes 8 ctx)

/-- PC and CTX of a SYNC of a source: its core's; for SWMSG and CSS, which have none, open (log entry 3). -/
def State.syncInfo (s : State) (n : Nat) (pc : W64) : State × W64 × Nat :=
  if n < 96 then (s, pc, ctxOf (srcCore n) (s.core (srcCore n)))
  else (s.took.took, BitVec.ofNat 64 s.free, s.took.free)

/-- A packet enters the FIFO of its source, or is discarded (R507): discards count, and the first packet after a
discard is preceded by OVF and a SYNC with reason 3. pc is the address that a SYNC reports. The flag says whether the
packet was taken. -/
def State.putPacket (s : State) (n : Nat) (pc : W64) (pkt : List Byte) : State × Bool :=
  if s.tsink n ≥ 5 then (s, false)
  else
    let t := s.tsrc n
    let cls := s.tclass n
    let low := s.rf (Reg.TRACE_SINKCTL.at (s.tsink n)) 7 0
    let need := pkt.length + (if t.lost = 0 then 0 else 29)
    if cls ≠ 0 ∧ (t.held + need > 512 ∨ (cls = 2 ∧ low ≠ 0 ∧ s.sinkHeld (s.tsink n) ≥ low * 64)) then
      ((s.countUp (Reg.TRACE_SRCSTAT.at n) 16 1).modSrc n (fun t => { t with lost := t.lost + 1 }), false)
    else if t.lost = 0 then (s.srcAppend n pkt, true)
    else
      let (s, p, ctx) := s.syncInfo n pc
      let ovf := BitVec.ofNat 8 6 :: leBytes 2 (min t.lost 0xFFFF)
      let s := s.srcAppend n (ovf ++ syncBytes 3 p s.clk.etc ctx)
      let s := s.modSrc n (fun t => { t with lost := 0, refPc := p, lastEtc := s.clk.etc })
      (s.srcAppend n pkt, true)

/-- A SYNC packet (R499): its address becomes the reference of R501. -/
def State.putSync (s : State) (n reason : Nat) (pc : W64) : State :=
  let (s, p, ctx) := s.syncInfo n pc
  let (s, ok) := s.putPacket n pc (syncBytes reason p s.clk.etc ctx)
  if ok then s.modSrc n (fun t => { t with refPc := p, lastEtc := s.clk.etc }) else s

/-- Pending atoms leave as one ATOM packet (R499, R500). -/
def State.flushAtoms (s : State) (n : Nat) (pc : W64) : State :=
  match (s.tsrc n).atoms with
  | [] => s
  | as =>
    let m := as.length
    let v := 128 + 2 ^ m + ((List.range m).zip as).foldl (fun a e => a + b2n e.2 * 2 ^ e.1) 0
    (s.putPacket n pc [BitVec.ofNat 8 v]).1.modSrc n (fun t => { t with atoms := [] })

/-- A timestamp before a packet, where SRCCFG.TS asks for one (R500): TS when the ETC has advanced, a SYNC with reason
5 when it has moved backward. -/
def State.putTs (s : State) (n : Nat) (pc : W64) : State :=
  if !s.rb (Reg.TRACE_SRCCFG.at n) 30 then s
  else
    let last := (s.tsrc n).lastEtc
    if s.clk.etc = last then s
    else if s.clk.etc < last then s.putSync n 5 pc
    else
      let d := s.clk.etc.toNat - last.toNat
      let (s, ok) := s.putPacket n pc (BitVec.ofNat 8 5 :: groups7 (groupCount 9 d) d)
      if ok then s.modSrc n (fun t => { t with lastEtc := s.clk.etc }) else s

/-- What a source owes before its next packet: the SYNC of R498 (reason 4), and pending atoms (R500). -/
def State.before (s : State) (n : Nat) (pc : W64) : State :=
  match (s.tsrc n).resync with
  | some r => ((s.modSrc n (fun t => { t with resync := none, atoms := [] })).putSync n r pc)
  | none => s.flushAtoms n pc

/-- A SYNC after what the source owes before it. -/
def State.startSync (s : State) (n reason : Nat) (pc : W64) : State := (s.before n pc).putSync n reason pc

/-- An ADDR packet (R500, R501). -/
def State.putAddr (s : State) (n : Nat) (pc target : W64) : State :=
  let s := (s.before n pc).putTs n pc
  let (s, ok) := s.putPacket n pc (BitVec.ofNat 8 2 :: deltaForm (fld target 63 2) (fld (s.tsrc n).refPc 63 2))
  if ok then s.modSrc n (fun t => { t with refPc := target }) else s

/-- An EXC packet with its vector and EPC (R500). -/
def State.putExc (s : State) (n vec : Nat) (epc : W64) : State :=
  let s := (s.before n epc).putTs n epc
  let (s, ok) := s.putPacket n epc
    (BitVec.ofNat 8 3 :: BitVec.ofNat 8 vec :: deltaForm (fld epc 63 2) (fld (s.tsrc n).refPc 63 2))
  if ok then s.modSrc n (fun t => { t with refPc := epc }) else s

/-- One atom (R500): a packet leaves when six have accumulated. -/
def State.putAtom (s : State) (n : Nat) (pc : W64) (taken : Bool) : State :=
  let s := match (s.tsrc n).resync with
    | some r => (s.modSrc n (fun t => { t with resync := none })).putSync n r pc
    | none => s
  let s := s.modSrc n (fun t => { t with atoms := t.atoms ++ [taken] })
  if (s.tsrc n).atoms.length ≥ 6 then s.flushAtoms n pc else s

/-- Is a level in the filter of a source (R504)? -/
def State.inFilter (s : State) (n lvl : Nat) : Bool :=
  let cfg := Reg.TRACE_SRCCFG.at n
  if lvl = 3 then s.rb cfg 23 && s.rb Reg.DEBUG_AUTH.at 2 && s.rb (Reg.TRACE_SINKCTL.at (s.tsink n)) 29
  else s.rb cfg (20 + lvl) && s.rb Reg.DEBUG_AUTH.at 0

/-- What a commit or an entry gives an ITU to report (R500). -/
inductive TEvent where
  | atom (taken : Bool)
  | addr (target : W64)
  | exc (vec : Nat) (epc handler : W64)
deriving DecidableEq, Repr

/-- The packets of one event (R500). -/
def State.putEvent (s : State) (n : Nat) (pc : W64) : TEvent → State
  | .atom b => s.putAtom n pc b
  | .addr t => s.putAddr n pc t
  | .exc v e h => (s.putExc n v e).putAddr n pc h

/-- The 64-bit value of ADDRA or ADDRB of a source. -/
def State.taddr (s : State) (n : Nat) (b : Bool) : W64 :=
  BitVec.ofNat 64 (s.reg64 (if b then Reg.TRACE_ADDRB_LO.at n else Reg.TRACE_ADDRA_LO.at n))

/-- The end of an event for a source in TRACING (R500, R503): SUSPENDED when the level has left the filter, with the
pending atoms; else a CTX packet when the context has changed. -/
def State.traceTail (s : State) (n : Nat) (ctx0 : Nat) : State :=
  let k := s.core (srcCore n)
  let ctx1 := ctxOf (srcCore n) k
  if !s.inFilter n k.lvl then (s.flushAtoms n k.pc).setTstate n 3
  else if ctx1 = ctx0 ∨ n ≥ 48 then s
  else ((s.before n k.pc).putPacket n k.pc (BitVec.ofNat 8 4 :: leBytes 8 ctx1)).1

/-- The core of a source in SLEEP commits (R503): the source is as it was, with a SYNC (reason 2) from TRACING. -/
def State.traceWake (s : State) (n : Nat) (pc : W64) : State :=
  if s.tstate n ≠ 4 then s
  else
    let p := (s.tsrc n).prior
    let s := s.setTstate n p
    if p = 2 then s.startSync n 2 pc else s

/-- A commit (commits) or an entry, as the ITU or DTU n of a core sees it (R500, R503): pc is the instruction's
address, ctx0 the context before it, evs what it reports. The core already stands after it. -/
def State.traceStep (s : State) (n : Nat) (commits : Bool) (pc : W64) (ctx0 : Nat) (evs : List TEvent) : State :=
  if s.tstate n = 0 then s
  else
    let s := if commits then s.traceWake n pc else s
    let k := s.core (srcCore n)
    let start := commits ∧ n < 48 ∧ s.tstate n = 1 ∧ pc = s.taddr n false
    let s := if start then (s.setTstate n 2).startSync n 0 pc else s
    if s.tstate n = 2 ∧ !s.inFilter n (ctx0 % 4) ∧ !s.inFilter n k.lvl then (s.flushAtoms n pc).setTstate n 3
    else if s.tstate n = 2 ∧ !s.inFilter n (ctx0 % 4) then s.startSync n 1 k.pc
    else if s.tstate n = 2 then
      let s := evs.foldl (fun s e => s.putEvent n pc e) s
      if commits ∧ n < 48 ∧ ¬ start ∧ s.taddr n true ≠ 0 ∧ pc = s.taddr n true then
        (s.flushAtoms n pc).setTstate n 1
      else s.traceTail n ctx0
    else if s.tstate n = 3 ∧ s.inFilter n k.lvl then (s.setTstate n 2).startSync n 1 k.pc
    else s

/-- A commit or an entry of a core, for both its sources. -/
def State.traceCore (s : State) (c : Nat) (commits : Bool) (pc : W64) (ctx0 : Nat) (evs : List TEvent) : State :=
  (s.traceStep c commits pc ctx0 evs).traceStep (48 + c) commits pc ctx0 []

/-- A trigger unit fires (R508): TRIG after the DATA packet, and every sink that names the unit and is neither counting
nor frozen loads SINKPOST and counts; 0 freezes it at once. -/
def State.fireTrigger (s : State) (n t : Nat) (pc : W64) : State :=
  let s := ((s.before n pc).putTs n pc)
  let s := (s.putPacket n pc [BitVec.ofNat 8 8, BitVec.ofNat 8 t]).1
  (List.range 5).foldl (fun s k =>
    let st := Reg.TRACE_SINKSTAT.at k
    if s.rb (Reg.TRACE_SINKCTL.at k) (8 + t) ∧ !s.rb st 0 ∧ !s.rb st 1 then
      let post := s.rf (Reg.TRACE_SINKPOST.at k) 27 0
      if post = 0 then
        let s := s.setRb st 1 true
        if s.rb (Reg.TRACE_SINKCTL.at k) 28 then s.raisePrivate (s.rf (Reg.TRACE_SINKCTL.at k) 21 16) 2 else s
      else
        let s := s.setRb st 0 true
        { s with trace := { s.trace with counts := Sparse.set 0 s.trace.counts k post } }
    else s) s

/-- A DATA event of the DTU of a core (R502, R508): an access of 2^lg bytes with its value, as the instruction commits. An instruction
transferred to a halted core does not commit (R498). -/
def State.traceData (s : State) (c lg : Nat) (write : Bool) (va : W64) (value : Nat) : State :=
  let n := 48 + c
  let pc := (s.core c).pc
  let s := if (s.core c).itr then s else s.traceWake n pc
  if s.tstate n ≠ 2 ∨ (s.core c).itr ∨ !s.inFilter n (s.core c).lvl then s
  else
    let a := s.taddr n false
    let b := s.taddr n true
    if ¬ ((a = 0 ∧ b = 0) ∨ (a ≤ va ∧ va ≤ b)) then s
    else
      let dval := s.rb (Reg.TRACE_SRCCFG.at n) 29
      let s := (s.before n pc).putTs n pc
      let flags := lg + b2n write * 4 + b2n dval * 8
      let (s, ok) := s.putPacket n pc
        (BitVec.ofNat 8 9 :: BitVec.ofNat 8 flags :: (deltaForm va.toNat (s.tsrc n).refData.toNat ++
          (if dval then leBytes (2 ^ lg) value else [])))
      let s := if ok then s.modSrc n (fun t => { t with refData := va }) else s
      (List.range 4).foldl (fun s t =>
        let cfg := Reg.TRACE_TRIGCFG.at t
        let msk := s.reg64 (Reg.TRACE_TRIGMSK_LO.at t)
        let val := s.reg64 (Reg.TRACE_TRIGVAL_LO.at t)
        if s.rb cfg 31 ∧ s.rf cfg 6 0 = n ∧ (if dval then (value ^^^ val) &&& msk = 0 else msk = 0) then
          s.fireTrigger n t pc
        else s) s

/-- A partial chunk leaves (R505): what the source holds of an unfilled chunk becomes a chunk. -/
def State.cutPart (s : State) (n : Nat) : State :=
  s.modSrc n (fun t => if t.part.isEmpty then t else { t with chunks := t.chunks ++ [t.part], part := [] })

/-- Sparing of a core, for its trace sources: the next packet is preceded by a SYNC with reason 4 (R498). -/
def State.traceSpare (s : State) (c : Nat) : State :=
  let f := fun (s : State) n => if s.tstate n = 0 then s else (s.flushAtoms n (s.core c).pc).modSrc n (fun t => { t with resync := some 4 })
  f (f s c) (48 + c)

/-- A packet of SWMSG or CSS (R497, R504): a source that is enabled; an event of the sealed world goes only to a sink
of the sealed world while SEAL_NINV is set, and is else discarded without a count. -/
def State.putMessage (s : State) (n : Nat) (world : Bool) (ts : Bool) (pkt : List Byte) : State :=
  if s.tstate n ≠ 2 then s
  else if world ∧ ¬ (s.rb (Reg.TRACE_SINKCTL.at (s.tsink n)) 29 ∧ s.rb Reg.DEBUG_AUTH.at 2) then s
  else
    let s := if ts then s.putTs n 0 else s
    (s.putPacket n 0 pkt).1

/-- The MSG packet of a write of SWMSG (R499, R504). -/
def State.traceMsg (s : State) (world : Bool) (ch : Nat) (v : W32) : State :=
  s.putMessage 96 world true (BitVec.ofNat 8 10 :: BitVec.ofNat 8 ch :: leBytes 4 v.toNat)

/-- The LEDGER packet of a slot's transition (R499). -/
def State.traceLedger (s : State) (world : Bool) (slot st pid : Nat) : State :=
  s.putMessage 97 world false (BitVec.ofNat 8 11 :: (leBytes 2 slot ++ [BitVec.ofNat 8 st, BitVec.ofNat 8 pid]))

/-- A write of SRCCFG (R503): EN moves the sequencer from or to IDLE. A start at a level outside the filter is taken and the unit enters SUSPENDED at
once, as at ADDRA (DEDUCED, log entry 43). -/
def State.srcEnable (s : State) (n : Nat) (was : Bool) : State :=
  let en := s.rb (Reg.TRACE_SRCCFG.at n) 31
  if !en then ((s.flushAtoms n (s.core (srcCore n)).pc).modSrc n (fun t => { t with resync := none })).setTstate n 0
  else if was then s
  else if n ≥ 96 then s.setTstate n 2
  else if n ≥ 48 ∨ s.taddr n false = 0 then
    let s := (s.setTstate n 2).startSync n 0 (s.core (srcCore n)).pc
    if s.inFilter n (s.core (srcCore n)).lvl then s else s.setTstate n 3
  else s.setTstate n 1

/-- The interrupt of a sink's FROZEN, FULL or ERR (R509). -/
def State.sinkEvent (s : State) (k : Nat) : State :=
  if s.rb (Reg.TRACE_SINKCTL.at k) 28 then s.raisePrivate (s.rf (Reg.TRACE_SINKCTL.at k) 21 16) 2 else s

/-- The next source that a sink serves (R507): the lowest class first, and in round robin by number within it. -/
def State.nextSource (s : State) (k : Nat) : Option Nat :=
  let last := Sparse.get 97 s.trace.last k
  let ready := (s.trace.srcs.filter (fun e => s.tsink e.1 == k && !e.2.chunks.isEmpty)).map (fun e => e.1)
  let pick := fun cls =>
    let r := ready.filter (fun n => s.tclass n == cls)
    match r.find? (fun n => decide (last < n)) with
    | some n => some n
    | none => r.head?
  match pick 0 with
  | some n => some n
  | none => match pick 1 with
    | some n => some n
    | none => pick 2

/-- The 16 bytes of a chunk of a source (R505). -/
def chunkBytes (n : Nat) (pl : List Byte) : List Byte :=
  (BitVec.ofNat 8 n :: BitVec.ofNat 8 (pl.length - 1) :: pl) ++ List.replicate (14 - pl.length) 0

/-- A pad chunk (R505). -/
def padChunk : List Byte := (0xFF : Byte) :: List.replicate 15 0

/-- A sink takes one chunk off the sources (R507): its 16 bytes, when it is written; a sink that is frozen or full
discards it into DISC (R506, R508), and the chunk that ends the countdown is still written. -/
def State.takeChunk (s : State) (k : Nat) : State × Option (List Byte) :=
  match s.nextSource k with
  | none => (s, none)
  | some n =>
    match (s.tsrc n).chunks with
    | [] => (s, none)
    | pl :: rest =>
      let s := s.modSrc n (fun t => { t with chunks := rest })
      let s := { s with trace := { s.trace with last := Sparse.set 97 s.trace.last k n } }
      let st := Reg.TRACE_SINKSTAT.at k
      if s.rb st 1 ∨ s.rb st 3 then
        (s.setRf st 31 16 (satAdd 16 (s.rf st 31 16) 1), none)
      else
        let s :=
          if s.rb st 0 then
            let m := Sparse.get 0 s.trace.counts k - 1
            let s := { s with trace := { s.trace with counts := Sparse.set 0 s.trace.counts k m } }
            if m = 0 then ((s.setRb st 0 false).setRb st 1 true).sinkEvent k else s
          else s
        (s, some (chunkBytes n pl))

/-- Up to m chunks taken for a sink. -/
def State.takeChunks : Nat → State → Nat → List Byte → State × List Byte
  | 0, s, _, acc => (s, acc)
  | m + 1, s, k, acc =>
    match s.takeChunk k with
    | (s, some bs) => State.takeChunks m s k (acc ++ bs)
    | (s, none) => State.takeChunks m s k acc

/-- The number of chunks that wait for a sink. -/
def State.chunksFor (s : State) (k : Nat) : Nat :=
  (s.trace.srcs.map (fun e => if s.tsink e.1 = k then e.2.chunks.length else 0)).sum

/-- The tag of a memory sink's writes (R38, R506). -/
def State.sinkTag (s : State) (k : Nat) : AccessTag :=
  let c := Reg.TRACE_SINKCTL.at k
  { world := s.rb c 29, pid := s.rf c 27 22, cls := 5, src := k }

/-- Does a sink run: enabled, and not stopped by a failed write (R506)? DESIGN CHOICE (log entry 43): it is stopped while ERR is 1; EN is software's. -/
def State.sinkRuns (s : State) (k : Nat) : Bool := s.rb (Reg.TRACE_SINKCTL.at k) 31 && !s.rb (Reg.TRACE_SINKSTAT.at k) 4

/-- A failed sink write (R506, R510): the sink stops and sets ERR, with a Deferred record. -/
def State.sinkFail (s : State) (k code : Nat) (a : Nat) : State :=
  let st := Reg.TRACE_SINKSTAT.at k
  let s := (s.setRb st 4 true).sinkEvent k
  s.record { bank := 46, unit := 0x02, code := code, sev := .deferred, addr := some a, tag := some (s.sinkTag k), misc0 := k }

/-- A sink's next write offset in bytes (R506): past its buffer's last line it continues at 0 and sets WRAPPED, or in STOP mode sets FULL. -/
def State.sinkTo (s : State) (k wp : Nat) : State :=
  let ctl := Reg.TRACE_SINKCTL.at k
  let st := Reg.TRACE_SINKSTAT.at k
  let s := s.setRf (Reg.TRACE_SINKWP.at k) 27 0 (wp / 16)
  if wp < 4096 * 2 ^ s.rf ctl 15 12 then s
  else if s.rb ctl 30 then (s.setRb st 3 true).sinkEvent k
  else (s.setRf (Reg.TRACE_SINKWP.at k) 27 0 0).setRb st 2 true

/-- A memory sink writes one line (R506): four chunks, or fewer and pad chunks at a flush. -/
def State.sinkLine (s : State) (k : Nat) (resp : Resp) : State :=
  let wpA := Reg.TRACE_SINKWP.at k
  let wp0 := s.rf wpA 27 0 * 16
  let s := if wp0 < 4096 * 2 ^ s.rf (Reg.TRACE_SINKCTL.at k) 15 12 then s else s.sinkTo k wp0
  let (s, bs) := State.takeChunks 4 s k []
  if bs.isEmpty then s
  else
    let line := bs ++ (List.replicate ((64 - bs.length) / 16) padChunk).flatten
    let wp := s.rf wpA 27 0 * 16
    let base := s.reg64 (Reg.TRACE_SINKBASE_LO.at k)
    let a := base + wp
    match (if resp = .ok then s.fabricWrite (s.sinkTag k) a line else (s, some AccErr.linkDown)) with
    | (s, some .refused) => s.sinkFail k 0x09 a
    | (s, some .unmapped) => s.sinkFail k 0x09 a
    | (s, some _) => s.sinkFail k 0x06 a
    | (s, none) => s.sinkTo k (wp + 64)

/-- A sink passes on what waits for it: up to m lines of a memory sink, every chunk of the trace port (R506). -/
def State.flushSink : Nat → State → Nat → State
  | 0, s, _ => s
  | m + 1, s, k =>
    if !s.sinkRuns k ∨ s.chunksFor k = 0 then s
    else if k = 4 then
      let (s, bs) := State.takeChunks (s.chunksFor 4) s 4 []
      if bs.isEmpty then s else s.emit .trace 4 (bs.map BitVec.toNat)
    else State.flushSink m (s.sinkLine k .ok) k

/-- Every sink passes on what waits for it, partial chunks too: the trace units flush (R485, R503). -/
def State.flushSinks (s : State) : State :=
  let s := (List.range 98).foldl (fun s n => s.cutPart n) s
  (List.range 5).foldl (fun s k => State.flushSink (s.chunksFor k) s k) s

/-- Entry of a source to SLEEP with its core (R503): its FIFO is passed to its sink first. -/
def State.traceSleep1 (s : State) (n : Nat) : State :=
  let st := s.tstate n
  if st = 1 ∨ st = 2 ∨ st = 3 then
    let pc := (s.core (srcCore n)).pc
    let s := if st = 1 then s
      else
        let s := s.before n pc
        let (s, ok) := s.putPacket n pc (BitVec.ofNat 8 7 :: leBytes 8 s.clk.etc.toNat)
        if ok then s.modSrc n (fun t => { t with lastEtc := s.clk.etc }) else s
    let s := s.cutPart n
    let s := State.flushSink (s.chunksFor (s.tsink n)) s (s.tsink n)
    (s.modSrc n (fun t => { t with prior := st })).setTstate n 4
  else s

/-- Entry of a core to NAP, DOZE, PARK or OFF, for its trace sources (R503). -/
def State.traceSleep (s : State) (c : Nat) : State := (s.traceSleep1 c).traceSleep1 (48 + c)

/-- SINK_WRITE (R506): a memory sink writes a line, the trace port sends its chunks. -/
def execSinkWrite (k : Nat) (flush : Bool) (resp : Resp) (s : State) : Host.Outcome State Fault Refusal :=
  .next (
    if k > 4 ∨ !s.sinkRuns k then s
    else
      let s := if flush then
          (List.range 98).foldl (fun s n => if s.tsink n = k then s.cutPart n else s) s
        else s
      if k = 4 then State.flushSink 1 s 4
      else if s.chunksFor k ≥ 4 ∨ flush then s.sinkLine k resp
      else s)

/-- A source's FIFO is found uncorrectable (R510): its contents are discarded as R507 discards. How many packets they held is open: at least one
where the FIFO held bytes (log entry 3). -/
def State.loseFifo (s : State) (n : Nat) : State :=
  let h := (s.tsrc n).held
  if h = 0 then s
  else
    let m := 1 + s.free % h
    ((s.took.countUp (Reg.TRACE_SRCSTAT.at n) 16 m).modSrc n (fun t => { t with chunks := [], part := [], lost := t.lost + m }))

/-- What the check code of a source's FIFO finds (R510 UNIT 0x00 and 0x01). -/
def State.fifoCheck (s : State) (n : Nat) : ArrayCheck → State
  | .ok => s
  | .corrected => s.record { bank := 46, unit := 0x00, code := 0x01, sev := .corrected, misc0 := n }
  | .bad => (s.loseFifo n).record { bank := 46, unit := 0x01, code := 0x02, sev := .deferred, misc0 := n }

/-- CHUNK_TIMEOUT (R505): 1 µs after its first byte a partial chunk leaves. chk: what the source's FIFO shows. -/
def execChunkTimeout (n : Nat) (chk : ArrayCheck) (s : State) : Host.Outcome State Fault Refusal :=
  .next (if n < 98 then (s.fifoCheck n chk).cutPart n else s)

/-- SYNC_PERIODIC (R499): every 2^(SYNCPER + 8) bytes a tracing source emits a SYNC with reason 6. -/
def execSyncPeriodic (n : Nat) (s : State) : Host.Outcome State Fault Refusal :=
  .next (
    let per := s.rf (Reg.TRACE_SRCCFG.at n) 19 16
    if n < 98 ∧ s.tstate n = 2 ∧ per ≠ 0 ∧ (s.tsrc n).since ≥ 2 ^ (per + 8) then
      let pc := (s.core (srcCore n)).pc
      ((s.before n pc).putSync n 6 pc).modSrc n (fun t => { t with since := 0 })
    else s)

end Sys2Proof.Machine
end

