-- ==== Sys2Proof/Machine/Ledger.lean ====
section
/-! DEFINITION. The ledger (chapter The Ledger and Channel Recovery): slots and their lines (R292-R294), the transitions and the balance (R295,
R299), the recovery log (R300-R302), format and recovery scan (R305, R306). -/
namespace Sys2Proof.Machine

/-! ## Access to the unit -/

/-- A ledger slot. -/
def State.slot (s : State) (n : Nat) : Slot := Sparse.get Slot.empty s.css.slots n

/-- A ledger slot, replaced in the internal copy. -/
def State.setSlot (s : State) (n : Nat) (l : Slot) : State :=
  { s with css := { s.css with slots := Sparse.set Slot.empty s.css.slots n l } }

/-- A ring pair. -/
def State.ring (s : State) (q : Nat) : RingPair := Sparse.get RingPair.empty s.css.rings q

/-- A ring pair, changed. -/
def State.modRing (s : State) (q : Nat) (f : RingPair → RingPair) : State :=
  { s with css := { s.css with rings := Sparse.set RingPair.empty s.css.rings q (f (s.ring q)) } }

/-- A subchannel. -/
def State.sub (s : State) (n : Nat) : SubCh := Sparse.get SubCh.empty s.css.subs n

/-- A subchannel, changed. -/
def State.modSub (s : State) (n : Nat) (f : SubCh → SubCh) : State :=
  { s with css := { s.css with subs := Sparse.set SubCh.empty s.css.subs n (f (s.sub n)) } }

/-- The operation in flight in a slot, if any. -/
def State.op? (s : State) (n : Nat) : Option Op := Sparse.get none s.css.ops n

/-- The operation in a slot, replaced. -/
def State.setOp (s : State) (n : Nat) (o : Option Op) : State :=
  { s with css := { s.css with ops := Sparse.set none s.css.ops n o } }

/-- The operation in a slot, changed. -/
def State.modOp (s : State) (n : Nat) (f : Op → Op) : State := s.setOp n ((s.op? n).map f)

/-- The tag of the CSS's own accesses to records and slots (R260, R292). -/
def cssTag : AccessTag := { world := false, pid := 0, cls := 1, src := 0xFF }

/-- The number of ledger slots (R292). -/
def numSlots : Nat := 8192

/-! ## Slot lines -/

/-- The 64 bytes of a slot (R294). -/
def Slot.bytes (l : Slot) : List Byte :=
  leBytes 4 (l.st % 8 + b2n l.handoff * 8 + b2n l.fwd * 16 + b2n l.mirrored * 32 + b2n l.orphan * 64 + b2n l.recovered * 128 +
    l.redisp % 16 * 2 ^ 8 + l.ocause % 16 * 2 ^ 12 + l.gen % 65536 * 2 ^ 16) ++
  leBytes 4 (l.subch % 4096 + l.ring % 4096 * 2 ^ 12 + l.pid % 64 * 2 ^ 24 + b2n l.world * 2 ^ 30) ++
  leBytes 8 l.sqe ++ leBytes 4 (l.pos % 65536 + l.sqPos % 65536 * 2 ^ 16) ++
  leBytes 4 (l.peer % 32 + l.peerSlot % 8192 * 2 ^ 5 + l.peerSt % 8 * 2 ^ 18) ++ leBytes 8 l.etc ++
  (if l.image.isEmpty then leBytes 8 l.bAddr ++ leBytes 4 l.bIdx ++ leBytes 4 (l.bPath % 256) ++ leBytes 8 l.bEtc ++ leBytes 4 l.bCount ++ leBytes 4 0
   else l.image)

/-- The slot that 64 bytes stand for (R294). -/
def Slot.ofBytes (b : List Byte) : Slot :=
  let w (o n : Nat) : Nat := leNat ((b.drop o).take n)
  let h := w 0 4; let i := w 4 4; let p := w 0x10 4; let r := w 0x14 4
  { st := h % 8, handoff := nfld h 3 3 == 1, fwd := nfld h 4 4 == 1, mirrored := nfld h 5 5 == 1, orphan := nfld h 6 6 == 1,
    recovered := nfld h 7 7 == 1, redisp := nfld h 11 8, ocause := nfld h 15 12, gen := nfld h 31 16, subch := nfld i 11 0,
    ring := nfld i 23 12, pid := nfld i 29 24, world := nfld i 30 30 == 1, sqe := w 8 8, pos := nfld p 15 0,
    sqPos := nfld p 31 16, peer := nfld r 4 0, peerSlot := nfld r 17 5, peerSt := nfld r 20 18, etc := w 0x18 8,
    bAddr := w 0x20 8, bIdx := w 0x28 4, bPath := nfld (w 0x2C 4) 7 0, bEtc := w 0x30 8, bCount := w 0x38 4,
    image := if h % 8 = 4 ∨ h % 8 = 5 then b.drop 0x20 else [], fgen := 0 }

/-- Has a slot line a nonzero bit that R294 shows as zero? -/
def slotReserved (b : List Byte) : Bool :=
  let w (o n : Nat) : Nat := leNat ((b.drop o).take n)
  w 4 4 / 2 ^ 31 != 0 || w 0x14 4 / 2 ^ 21 != 0 ||
  (decide (w 0 4 % 8 < 4) && (w 0x2C 4 / 256 != 0 || w 0x3C 4 != 0))

/-- The address of a slot under the base taken (R292). -/
def State.slotAddr (s : State) (n : Nat) : Nat := s.css.base + n * 0x40

/-- A slot's line is written through (R293). A refused write is Fatal (R312 UNIT 0x11). -/
def State.writeSlot (s : State) (n : Nat) : State :=
  match s.fabricWrite cssTag (s.slotAddr n) (s.slot n).bytes with
  | (s, none) => s
  | (s, some _) =>
    s.record { bank := 34, unit := 0x11, code := 0x09, sev := .fatal, addr := some (s.slotAddr n), tag := some cssTag, misc0 := n }

/-! ## Transitions and balance -/

/-- Is a slot's operation in flight: POSTED, ACCEPTED or DISPATCHED? -/
def inFlight (st : Nat) : Bool := decide (1 ≤ st) && decide (st ≤ 3)

/-- The count of slots of a ring pair in flight. -/
def State.ringInFlight (s : State) (q : Nat) : Nat := (s.css.slots.filter (fun e => e.2.ring == q && inFlight e.2.st)).length

/-- The failing invariants of R299, bit k for B(k+1). -/
def State.balance (s : State) : Nat :=
  let c (i : Nat) : Nat := s.rf (Reg.CSS_LCNT.at i) 13 0
  let b1 := c 0 + c 1 + c 2 + c 3 + c 4 + c 5 == numSlots
  let b2 := (s.reg64 Reg.CSS_LALLOC_LO.at + 2 ^ 64 - s.reg64 Reg.CSS_LFREED_LO.at) % 2 ^ 64 == numSlots - c 0
  let b3 := c 1 + c 2 + c 3 == s.rf Reg.CSS_STAT.at 29 16
  let b4 := s.css.rings.all (fun e => e.2.reserved == s.ringInFlight e.1) &&
    s.css.slots.all (fun e => !inFlight e.2.st || (s.ring e.2.ring).reserved == s.ringInFlight e.2.ring)
  b2n (!b1) + b2n (!b2) * 2 + b2n (!b3) * 4 + b2n (!b4) * 8

/-- The balance is checked after a transition (R299): a failure is Fatal and its bit set in LBAL. -/
def State.checkBalance (s : State) (n : Nat) : State :=
  let f := s.balance
  if f = 0 then s
  else
    (s.setRf Reg.CSS_LBAL.at 3 0 (s.rf Reg.CSS_LBAL.at 3 0 ||| f)).record
      { bank := 34, unit := 0x10, code := 0x0A, sev := .fatal, tag := some cssTag, misc0 := n, misc1 := f }

/-- The LEDGER packet of a transition of a slot to the state it now shows (R497, R499). -/
def State.traceSlot (s : State) (n : Nat) : State := s.traceLedger (s.slot n).world n (s.slot n).st (s.slot n).pid

/-- A transition of a slot to a state (R295), its fields changed by f: trace packet, counters, line and balance. -/
def State.moveSlot (s : State) (n dest : Nat) (f : Slot → Slot) : State :=
  let old := s.slot n
  let new := { f old with st := dest }
  let s := (s.setSlot n new).traceSlot n
  let s := s.setRf (Reg.CSS_LCNT.at old.st) 13 0 (s.rf (Reg.CSS_LCNT.at old.st) 13 0 - 1)
  let s := s.setRf (Reg.CSS_LCNT.at dest) 13 0 (s.rf (Reg.CSS_LCNT.at dest) 13 0 + 1)
  let s := if old.st = 0 ∧ dest = 1 then s.setReg64 Reg.CSS_LALLOC_LO.at (s.reg64 Reg.CSS_LALLOC_LO.at + 1) else s
  let s := if dest = 0 then s.setReg64 Reg.CSS_LFREED_LO.at (s.reg64 Reg.CSS_LFREED_LO.at + 1) else s
  let s := match inFlight old.st, inFlight dest with
    | false, true => (s.setRf Reg.CSS_STAT.at 29 16 (s.rf Reg.CSS_STAT.at 29 16 + 1)).modRing new.ring (fun r => { r with reserved := r.reserved + 1 })
    | true, false => (s.setRf Reg.CSS_STAT.at 29 16 (s.rf Reg.CSS_STAT.at 29 16 - 1)).modRing new.ring (fun r => { r with reserved := r.reserved - 1 })
    | _, _ => s
  (s.writeSlot n).checkBalance n

/-- A slot changes without a transition (PEER, FWD and ORPHAN): the line is written. -/
def State.touchSlot (s : State) (n : Nat) (f : Slot → Slot) : State := (s.setSlot n (f (s.slot n))).writeSlot n

/-- DISPATCHED to DISPATCHED (R295): a further hand-off, report or re-dispatch; the balance is checked (R299). -/
def State.restateSlot (s : State) (n : Nat) (f : Slot → Slot) : State :=
  ((s.touchSlot n f).traceSlot n).checkBalance n

/-- REPORTED to FREE when FWD = 0 (R295). The line is written without the record image (R294); ID, POS and PEER stay (R310). -/
def State.freeSlotOf (s : State) (n : Nat) : State :=
  let l := s.slot n
  if l.st = 5 ∧ !l.fwd then s.moveSlot n 0 (fun l => { l with image := [] }) else s

/-- ENDED to REPORTED (R295), and on to FREE where nothing is outstanding. -/
def State.reportSlot (s : State) (n : Nat) : State :=
  if (s.slot n).st = 4 then (s.moveSlot n 5 (fun l => l)).freeSlotOf n else s

/-- FWD is cleared (R307, R310): a REPORTED slot is freed. -/
def State.clearFwd (s : State) (n : Nat) : State := (s.touchSlot n (fun l => { l with fwd := false })).freeSlotOf n

/-! ## The recovery log -/

/-- The base of the recovery log (R300). -/
def State.logBase (s : State) : Nat := s.rf Reg.CSS_RLOGBASE_LO.at 31 18 * 2 ^ 18 + s.rf Reg.CSS_RLOGBASE_HI.at 11 0 * 2 ^ 32

/-- The size of the log; none: LOG2 outside 4-12, so the log counts as full (R302). -/
def State.logSize (s : State) : Option Nat :=
  let n := s.rf Reg.CSS_RLOGCFG.at 3 0
  if 4 ≤ n ∧ n ≤ 12 then some (2 ^ n) else none

/-- May an entry be written now (R300, R302)? -/
def State.logRoom (s : State) : Bool :=
  match s.logSize with
  | none => false
  | some n => !s.css.logStop && (s.rf Reg.CSS_RLOG_TAIL.at 15 0 + 0x10000 - s.rf Reg.CSS_RLOG_HEAD.at 15 0) % 0x10000 != n

/-- The 64 bytes of an entry (R300, R306, R310). -/
def State.logImage (s : State) : LogEntry → List Byte
  | .orphan n => (s.slot n).bytes
  | .lost n => ({ s.slot n with ocause := 8 }.bytes.take 32) ++ List.replicate 32 0
  | .resolution n p b => ({ s.slot n with ocause := 7, peerSt := p }.bytes.take 32) ++ (b ++ List.replicate 32 0).take 32

/-- What an entry's being system-visible does to its slot (R295, R306, R310). -/
def State.logged (s : State) : LogEntry → State
  | .orphan n => s.reportSlot n
  | .lost n => ((s.setSlot n Slot.empty).writeSlot n).traceSlot n
  | .resolution n _ _ => s.clearFwd n

/-- The orphans that wait, in LSTAT (R301). -/
def State.countOrphans (s : State) : State :=
  s.setRf Reg.CSS_LSTAT.at 13 0 (s.css.log.filter (fun e => match e with | .orphan _ => true | _ => false)).length

/-- Waiting entries are written in order while the log has room (R300-R302). -/
def State.drainLog : Nat → State → State
  | 0, s => s
  | f + 1, s =>
    match s.css.log with
    | [] => s
    | e :: rest =>
      if !s.logRoom then s
      else
        let tail := s.rf Reg.CSS_RLOG_TAIL.at 15 0
        let a := s.logBase + tail % (s.logSize.getD 16) * 64
        match s.fabricWrite cssTag a (s.logImage e) with
        | (s, some _) =>
          let s := { s with css := { s.css with logStop := true } }
          s.record { bank := 34, unit := 0x14, code := 0x09, sev := .contained, addr := some a, tag := some cssTag,
                     misc0 := match e with | .orphan n | .lost n | .resolution n _ _ => n }
        | (s, none) =>
          let s := { s with css := { s.css with log := rest } }
          let s := s.setRf Reg.CSS_RLOG_TAIL.at 15 0 ((tail + 1) % 0x10000)
          let s := if s.rb Reg.CSS_RLOGCFG.at 15 then s.raiseShared (s.rf Reg.CSS_RLOGCFG.at 25 16) else s
          State.drainLog f (s.logged e)

/-- The counters after a format or scan (R306): LCNT by state, LALLOC, LFREED. A lost slot counts as FREE: freeing it is no transition. -/
def State.setCounts (s : State) : State :=
  let kept := s.css.slots.filter (fun e => e.2.st != 0 && !(s.css.log.contains (.lost e.1)))
  let c (i : Nat) : Nat := (kept.filter (fun e => e.2.st == i)).length
  let free := numSlots - kept.length
  let s := (List.range' 1 5).foldl (fun s i => s.setRf (Reg.CSS_LCNT.at i) 13 0 (c i)) s
  let s := s.setRf (Reg.CSS_LCNT.at 0) 13 0 free
  (s.setReg64 Reg.CSS_LALLOC_LO.at (numSlots - free)).setReg64 Reg.CSS_LFREED_LO.at 0

/-- The log is worked on, and the waiting orphans are counted. A recovery scan ends when its entries are written (R305). -/
def State.workLog (s : State) : State :=
  let s := (State.drainLog s.css.log.length s).countOrphans
  if s.rb Reg.CSS_LSTAT.at 31 ∧ s.css.log.isEmpty then s.setCounts.setRb Reg.CSS_LSTAT.at 31 false else s

/-- An entry is queued for the log. -/
def State.addLog (s : State) (e : LogEntry) : State := { s with css := { s.css with log := s.css.log ++ [e] } }.workLog

/-- A slot becomes an orphan (R301). -/
def State.orphanSlot (s : State) (n cause : Nat) : State :=
  (s.touchSlot n (fun l => { l with orphan := true, ocause := cause })).addLog (.orphan n)

/-! ## Format and recovery scan -/

/-- LBASE as written. -/
def State.lbase (s : State) : Nat := s.rf Reg.CSS_LBASE_LO.at 31 19 * 2 ^ 19 + s.rf Reg.CSS_LBASE_HI.at 11 0 * 2 ^ 32

/-- Does LBASE lie in the populated QDR window (R292)? -/
def State.lbaseOk (s : State) : Bool := decide (0x800000000 ≤ s.lbase) && decide (s.lbase + 0x80000 ≤ 0x800000000 + s.qdrSize)

/-- Format (R305): every slot FREE with zero fields. -/
def State.formatLedger (s : State) : State :=
  let s := { s with css := { s.css with slots := [] } }
  (((List.range numSlots).foldl (fun s n => s.writeSlot n) s).setCounts).setRb Reg.CSS_LSTAT.at 31 false

/-- The record image that the scan makes (R306): PHASE 0, CCDIDX and RESID from BODY (R298). -/
def scanImage (n : Nat) (l : Slot) (status resid : Nat) (etc : W64) : List Byte :=
  leBytes 4 (l.subch % 4096 + nfld l.sqe 23 12 * 2 ^ 12 + status * 2 ^ 24) ++ leBytes 4 (l.gen % 65536) ++ leBytes 4 resid ++
  leBytes 4 l.bIdx ++ leBytes 8 etc.toNat ++ leBytes 4 0 ++ leBytes 4 (n + l.bPath % 256 * 2 ^ 16)

/-- A VL2 message (R385): TYPE 0 MIRROR, 1 MACK, 2 MREF, 3 CANCEL; submitter slot, peer slot, state, GEN, ETC and image. -/
def ledgerFlit (ty dst sub peer st gen : Nat) (etc : W64) (image : List Byte) : Flit :=
  { vl := 2, ty := ty, dst := dst, src := 0, tag := 0, info := 0,
    payload := pad64 (leBytes 2 sub ++ leBytes 2 peer ++ leBytes 1 st ++ leBytes 1 0 ++ leBytes 2 gen ++ leBytes 8 etc.toNat ++
      List.replicate 16 0 ++ image) }

/-- A message of the ledger leaves by the route table; a MIRROR or CANCEL is kept until its answer arrives (R386). -/
def State.sendLedger (s : State) (f : Flit) : State :=
  let f := { f with src := s.devIndex }
  let s := if f.ty = 0 ∨ f.ty = 3 then { s with relay := { s.relay with mirrors := s.relay.mirrors ++ [f] } } else s
  s.sendTo f

/-- The mirror update of a MIRRORED slot (R307): the submitting device's slot, this slot and its state. -/
def State.sendMirror (s : State) (n st : Nat) : State :=
  let l := s.slot n
  s.sendLedger (ledgerFlit 0 l.peer l.peerSlot n st l.fgen s.clk.etc l.image)

/-- The scan ends an operation (R306). A MIRRORED slot sends its ENDED update. -/
def State.scanEnd (s : State) (n : Nat) (l : Slot) (status resid : Nat) : State :=
  let l' := { l with st := 4, recovered := true, orphan := true, ocause := 6, image := scanImage n l status resid s.clk.etc }
  let s := ((s.setSlot n l').writeSlot n).traceSlot n
  let s := { s with css := { s.css with log := s.css.log ++ [LogEntry.orphan n] } }
  let s := if l.mirrored then s.sendMirror n 4 else s
  let a := Reg.CSS_LSCAN_END.at
  if status = 0x43 then s.setRf a 29 16 (s.rf a 29 16 + 1) else s.setRf a 13 0 (s.rf a 13 0 + 1)

/-- A lost slot (R306): logged with BODY zero, then freed; a Contained record. -/
def State.scanLost (s : State) (n : Nat) (l : Slot) : State :=
  let s := s.setSlot n { l with ocause := 8, image := [], bAddr := 0, bIdx := 0, bPath := 0, bEtc := 0, bCount := 0 }
  let s := { s with css := { s.css with log := s.css.log ++ [LogEntry.lost n] } }
  let a := Reg.CSS_LSCAN_LOST.at
  (s.setRf a 13 0 (s.rf a 13 0 + 1)).record
    { bank := 34, unit := 0x13, code := 0x02, sev := .contained, addr := some (s.slotAddr n), tag := some cssTag, misc0 := n }

/-- The scan of one slot (R306). -/
def State.scanSlot (s : State) (n : Nat) : State :=
  match s.fabricRead cssTag (s.slotAddr n) 64 with
  | (s, .error _) => s.scanLost n Slot.empty
  | (s, .ok b) =>
    let l := Slot.ofBytes b
    if l.st > 5 ∨ slotReserved b then s.scanLost n l
    else if l.st = 0 then s
    else if l.st = 1 ∨ l.st = 2 then s.scanEnd n l 0x1F 0
    else if l.st = 3 then (if l.handoff then s.scanEnd n l 0x43 l.bCount else s.scanEnd n l 0x1F 0)
    else if l.st = 4 then
      let s := (s.setSlot n { l with orphan := true, ocause := if l.orphan then l.ocause else 6 }).writeSlot n
      let s := { s with css := { s.css with log := s.css.log ++ [LogEntry.orphan n] } }
      s.setRf Reg.CSS_LSCAN_LOST.at 29 16 (s.rf Reg.CSS_LSCAN_LOST.at 29 16 + 1)
    else if l.fwd then
      let s := s.setSlot n l
      { s with relay := { s.relay with waiting := if l.peer ∈ s.relay.waiting then s.relay.waiting else s.relay.waiting ++ [l.peer] } }
    else ((s.setSlot n { l with st := 0 }).writeSlot n).traceSlot n

/-- The recovery scan (R306): the slots in turn, then the counters; the log follows, and waits while it is full. The counters are set once more
when it ends. -/
def State.recoverLedger (s : State) : State :=
  let s := { s with css := { s.css with slots := [] } }.setRb Reg.CSS_LSTAT.at 31 true
  let s := (s.setReg Reg.CSS_LSCAN_END.at 0).setReg Reg.CSS_LSCAN_LOST.at 0
  (((List.range numSlots).foldl (fun s n => s.scanSlot n) s).setCounts).workLog

end Sys2Proof.Machine
end

