-- ==== Sys2Proof/Machine/SmartDriver.lean ====
section
/-! DEFINITION. Adapters: the checks that a held step meets before its medium (R313, R320, R323, R331), frame-drop injection (R336) and the
exchanges of smart-driver ports (R328-R331). -/
namespace Sys2Proof.Machine

/-- The adapter of a path. -/
def State.adapter (s : State) (p : Nat) : Adapter := Sparse.get Adapter.reset s.adpt p

/-- The adapter of a path, changed. -/
def State.modAdapter (s : State) (p : Nat) (f : Adapter → Adapter) : State :=
  { s with adpt := Sparse.set Adapter.reset s.adpt p (f (s.adapter p)) }

/-- Is a path a CAN controller (R35)? -/
def isCan (p : Nat) : Bool := decide (p < 0x18)
/-- Is a path a 10BASE-T1S, 10 or 25 Gbit/s Ethernet MAC? -/
def isEth (p : Nat) : Bool := decide (0x18 ≤ p) && decide (p < 0x3C)
/-- Is a path a 10 or 25 Gbit/s MAC? -/
def isFast (p : Nat) : Bool := decide (0x28 ≤ p) && decide (p < 0x3C)
/-- Is a path a smart-driver port? -/
def isSd (p : Nat) : Bool := decide (0x3C ≤ p) && decide (p < 0x4C)

/-- An AEVT bit is set, and VEC raised when IEN = 1 (ACTL). -/
def State.adapterEvent (s : State) (p b : Nat) : State :=
  let s := s.setRb (Reg.ADPT_AEVT.at p) b true
  if s.rb (Reg.ADPT_ACTL.at p) 4 then s.raiseShared (s.rf (Reg.ADPT_ACTL.at p) 25 16) else s

/-- The error counters and the bus-off state are cleared (R333, ISO 11898-1). -/
def State.canClear (s : State) (p : Nat) : State := (s.setRf (Reg.ADPT_CANSTAT.at p) 23 8 0).setRf (Reg.ADPT_CANSTAT.at p) 1 0 0

/-- A frame in a direction meets the injector (R336; dir 0 receive, 1 transmit): does it drop it? -/
def State.dropFrame (s : State) (p dir : Nat) : State × Bool :=
  let a := Reg.ADPT_FINJ.at p
  if !s.rb a 31 ∨ s.rf a 30 30 ≠ dir then (s, false)
  else
    let n := (s.adapter p).inj + 1
    if n < max 1 (s.rf a 15 0) then (s.modAdapter p (fun x => { x with inj := n }), false)
    else
      let c := s.rf a 23 16
      let s := (s.modAdapter p (fun x => { x with inj := 0 })).countUp (Reg.ADPT_INJCNT.at p) 32 1
      (if c = 0 then s else if c = 1 then (s.setRf a 23 16 0).setRb a 31 false else s.setRf a 23 16 (c - 1), true)

/-! ## Checks -/

/-- The header words and data of the CAN frame that a step transmits (R320). -/
def AdStep.canFrame (st : AdStep) : Nat × Nat × Nat × List Byte :=
  if st.cmd = 0xA then (nfld st.arg 31 0, nfld st.arg 63 32, 0, st.data)
  else
    let w (o : Nat) : Nat := leNat ((st.data.drop o).take 4)
    (w 0, w 4, w 8, st.data.drop 16)

/-- Does DEVADDR grant a CAN identifier (R316)? -/
def canMatches (devaddr w0 : Nat) : Bool :=
  nfld devaddr 29 29 == nfld w0 29 29 && ((nfld w0 28 0 ^^^ nfld devaddr 28 0) &&& nfld devaddr 60 32) == 0

/-- May LEN occur with FMT (R320)? -/
def canLenOk (fmt len : Nat) : Bool :=
  if fmt = 0 then decide (len ≤ 8)
  else if fmt = 1 then decide (len ≤ 8) || len ∈ [12, 16, 20, 24, 32, 48, 64]
  else decide (1 ≤ len) && decide (len ≤ 2048)

/-- Is a CAN image invalid (R320 BADIMAGE)? ESI and TS are ignored on transmit. -/
def State.canBad (s : State) (p : Nat) (st : AdStep) : Bool :=
  let (w0, w1, af, _) := st.canFrame
  let fmt := nfld w1 31 30
  let len := nfld w1 27 16
  let cfg := s.reg (Reg.ADPT_CANCFG.at p)
  fmt == 3 || (fmt == 1 && !bit cfg 0) || (fmt == 2 && !bit cfg 1) || !canLenOk fmt len ||
  (nfld w0 30 30 == 1 && fmt != 0) || (nfld w0 29 29 == 1 && fmt == 2) ||
  (fmt != 2 && (nfld w1 15 0 != 0 || nfld w1 28 28 != 0 || af != 0)) || (fmt != 1 && nfld w1 29 29 == 1) ||
  ((nfld w0 29 29 == 0) && nfld w0 28 11 != 0) ||
  (if st.cmd = 0xA then st.count != len else decide (st.count < 16) || st.count != 16 + len)

/-- The template registers of an Ethernet path (R323). -/
def State.tplCtl (s : State) (p t : Nat) : W32 := s.reg (Reg.ADPT_TPL_CTL.at (p - 0x18) t)

/-- Why an adapter refuses a step before its medium (R313, R320, R323, R331): its DEVSTAT.CODE. -/
def State.stepError (s : State) (p : Nat) (st : AdStep) : Option Nat :=
  let d := (s.sub st.sub).devaddr
  if isCan p then
    (if nfld d 31 30 ≠ 0 ∨ nfld d 63 61 ≠ 0 then some 0x01
     else if st.cmd = 9 ∨ st.cmd = 0xA then
       (if s.canBad p st then some 0x02
        else if !canMatches d st.canFrame.1 then some 0x03 else none)
     else none)
  else if isEth p then
    (if d / 64 ≠ 0 then some 0x01
     else if st.cmd = 9 then
       (if st.param % 2 = 1 then
          (if !bit (s.tplCtl p d) 18 then some 0x05
           else if st.count > (if st.data.getD 12 0 = 0x81 ∧ st.data.getD 13 0 = 0x00 then 1518 else 1514) then some 0x04 else none)
        else if st.count > 1500 then some 0x04 else none)
     else if st.cmd = 0xA then (if st.arg = 1 then none else some 0x06)
     else none)
  else
    (if d / 4 ≠ 0 then some 0x01
     else if st.cmd = 0xA then
       (if !(nfld st.arg 7 0 ∈ [1, 4, 5]) ∨ nfld st.arg 63 16 ≠ 0 then some 0x06 else if st.count > 255 then some 0x04 else none)
     else if st.cmd = 0xB then none
     else if st.count > 255 then some 0x04 else none)

/-! ## Smart-driver exchanges -/

/-- CRC-16 of R329: polynomial 0x1021, initial value 0xFFFF, no reflection. -/
def crc16 (bs : List Byte) : Nat :=
  bs.foldl (fun acc b => (List.range 8).foldl (fun a _ => if a ≥ 0x8000 then ((a * 2) % 65536) ^^^ 0x1021 else (a * 2) % 65536) (acc ^^^ (b.toNat * 256))) 0xFFFF

/-- A command's bytes (R329). -/
def sdCommand (opc seq reg : Nat) (payload : List Byte) : List Byte :=
  let b := leBytes 1 0xA5 ++ leBytes 1 (opc % 16 * 16 + seq % 16) ++ leBytes 1 payload.length ++ leBytes 1 reg ++ payload
  b ++ beBytes 2 (crc16 b)

/-- OPC, REG and payload of a step (R331). -/
def AdStep.sdOrder (st : AdStep) : Nat × Nat × List Byte :=
  if st.cmd = 9 then (1, st.param, st.data)
  else if st.cmd = 0xA then (nfld st.arg 7 0, nfld st.arg 15 8, st.data)
  else if st.cmd = 8 then (2, st.param, leBytes 1 st.count)
  else (3, 0, [])

/-- An exchange goes onto the wires: chip select, then the bytes; an injected drop corrupts the CRC (R336). -/
def State.sdSend (s : State) (p : Nat) (x : SdExchange) : State :=
  let (s, bad) := s.dropFrame p 1
  let bs := if bad then x.bytes.take (x.bytes.length - 1) ++ [(x.bytes.getLastD 0) ^^^ 0xFF] else x.bytes
  (s.modAdapter p (fun a => { a with xchg := some { x with bad := false } })).emit .adapter p (x.cs :: bs.map BitVec.toNat)

/-- A new command goes to a chip select with the next SEQ (R330). -/
def State.sdCommandTo (s : State) (p cs opc reg : Nat) (payload : List Byte) (slot : Option Nat) : State :=
  let seq := (Sparse.get 0 (s.adapter p).seq cs + 1) % 16
  let s := s.modAdapter p (fun a => { a with seq := Sparse.set 0 a.seq cs seq })
  s.sdSend p { cs := cs, opc := opc, seq := seq, bytes := sdCommand opc seq reg payload, slot := slot, bad := false }

/-- The NOP with which a chip select begins (R330, R333). -/
def State.sdGreet (s : State) (p cs : Nat) : State :=
  (s.modAdapter p (fun a => { a with fresh := Sparse.set true a.fresh cs false })).sdCommandTo p cs 4 0 [] none

/-- The first enabled chip select of a port that has not begun with its NOP yet. -/
def State.sdUngreeted (s : State) (p : Nat) : Option Nat :=
  (List.range 4).find? (fun cs => s.rb (Reg.ADPT_SDCFG.at (p - 0x3C)) (20 + cs) && Sparse.get true (s.adapter p).fresh cs)

/-- Has each enabled chip select answered its NOP (R333)? -/
def State.sdReady (s : State) (p : Nat) : Bool := (s.sdUngreeted p).isNone && (s.adapter p).xchg.isNone

/-- An idle port starts the first held step (R314); after an adapter reset a chip select begins with a NOP (R330), and while the path recovers each
enabled one does (R333). -/
def State.startSd (s : State) (p : Nat) : State :=
  let a := s.adapter p
  if !isSd p ∨ a.xchg.isSome then s
  else if s.rf (Reg.ADPT_PATHSTAT.at p) 1 0 = 3 then
    match s.sdUngreeted p with
    | some cs => s.sdGreet p cs
    | none => s
  else match a.steps.find? (fun st => (s.stepError p st).isNone) with
    | none => s
    | some st =>
      let cs := (s.sub st.sub).devaddr % 4
      if Sparse.get true a.fresh cs then
        s.sdGreet p cs
      else
        let (opc, reg, payload) := st.sdOrder
        s.sdCommandTo p cs opc reg payload (some st.slot)

end Sys2Proof.Machine
end

