-- ==== Sys2Proof/Machine/Channel.lean ====
section
/-! DEFINITION. The channel subsystem's shared operations (chapter Channel Subsystem): memory accesses of operations (R282), CCDs and their checks
(R272-R279), completion records and rings (R264-R271), the ending of an operation (R285, R295-R301), subchannel
states, hand-off to a path, generations and migration (R286-R290). -/
namespace Sys2Proof.Machine

/-! ## Fields -/

/-- The path number at an index of a subchannel's list (R260). -/
def SubCh.pathAt (c : SubCh) (i : Nat) : Nat := nfld c.paths (8 * i + 7) (8 * i)
/-- The current path of a subchannel. -/
def SubCh.path (c : SubCh) : Nat := c.pathAt c.idx
/-- WORLD of a subchannel. -/
def SubCh.world (c : SubCh) : Bool := nfld c.cfg 1 1 == 1
/-- The code of a subchannel state (R262). -/
def ScState.code : ScState → Nat
  | .disabled => 0 | .idle => 1 | .active => 2 | .aborting => 3 | .migrating => 4 | .nopath => 5
/-- The owner PID of a ring pair (R264). -/
def RingPair.pid (r : RingPair) : Nat := nfld r.cfg 13 8
/-- The world of a ring pair. -/
def RingPair.world (r : RingPair) : Bool := nfld r.cfg 1 1 == 1
/-- The number of SQ entries. -/
def RingPair.sqSize (r : RingPair) : Nat := 2 ^ nfld r.cfg 19 16
/-- The number of CQ entries. -/
def RingPair.cqSize (r : RingPair) : Nat := 2 ^ nfld r.cfg 23 20
/-- Command code of a CCD. -/
def Ccd.cmd (c : Ccd) : Nat := nfld c.w0 3 0
/-- JOIN of a CCD. -/
def Ccd.join (c : Ccd) : Bool := nfld c.w0 8 8 == 1
/-- NEXT of a CCD. -/
def Ccd.next (c : Ccd) : Bool := nfld c.w0 9 9 == 1
/-- SHORTOK of a CCD. -/
def Ccd.shortOk (c : Ccd) : Bool := nfld c.w0 10 10 == 1
/-- MARK of a CCD. -/
def Ccd.mark (c : Ccd) : Bool := nfld c.w0 11 11 == 1
/-- IDEMP of a CCD. -/
def Ccd.idemp (c : Ccd) : Bool := nfld c.w0 12 12 == 1
/-- PARAM of a CCD. -/
def Ccd.param (c : Ccd) : Nat := nfld c.w0 23 16
/-- COUNT = LAST (R279). -/
def countLast : Nat := 0xFFFFFFFF

/-- The CCD that 32 bytes stand for (R272). -/
def Ccd.ofBytes (b : List Byte) : Ccd :=
  let w (o n : Nat) : Nat := leNat ((b.drop o).take n)
  { w0 := w 0 4, count := w 4 4, addr := w 8 8, arg := w 0x10 8, aux := w 0x18 4, w7 := w 0x1C 4 }

/-- The PCIe function of a ring pair: 0 for a pair that belongs to no function (R264, R408). -/
def fnOfRing (q : Nat) : Nat := if q < 0x400 then q / 4 else 0

/-- STATE of a path (R258). -/
def State.pathState (s : State) (p : Nat) : Nat := s.rf (Reg.ADPT_PATHSTAT.at p) 1 0

/-- Does a path take steps: ONLINE, and a peer path bound too (R258, R381)? 0xFF names none. DESIGN CHOICE (log entry 26): an ONLINE path whose binding is
cleared takes no step, and leaves ONLINE by a fence only. -/
def State.pathUp (s : State) (p : Nat) : Bool :=
  decide (p < 0x60) && s.pathState p == 1 && (decide (p < 0x4C) || s.rb (Reg.RELAY_PEERPATH.at (p - 0x4C)) 31)

/-- May the CSS dispatch: not stopped by the Fatal sequence (R58)? -/
def State.cssStopped (s : State) : Bool := s.rb Reg.CSS_STAT.at 1

/-- Completion of a CSS.CMD operation with a result (R263), where one runs. -/
def State.cmdDone (s : State) (res : Nat) : State :=
  if s.rb Reg.CSS_CMD.at 31 then (s.setRf Reg.CSS_CMD.at 30 28 res).setRb Reg.CSS_CMD.at 31 false else s

/-- A report is discarded and counted (R286); the count wraps. -/
def State.stale (s : State) : State :=
  s.setReg Reg.CSS_STALECNT.at (s.reg Reg.CSS_STALECNT.at + 1)

/-! ## Memory accesses of operations -/

/-- The tag of an operation's CCD reads and buffer accesses (R282). -/
def State.opTag (s : State) (n : Nat) : AccessTag :=
  let l := s.slot n
  { world := l.world, pid := l.pid, cls := 1, src := (s.sub l.subch).path }

/-- The status of a failed access (R282). -/
def errStatus : AccErr → Nat
  | .refused => 0x16 | .poisoned => 0x18 | _ => 0x17

/-- The answer of a read: bytes, a failure's status, or not yet. -/
inductive Got where
  | ok (bs : List Byte) | fail (status : Nat) | wait
deriving DecidableEq, Repr

/-- May a function's requests leave for the host (R411, R414)? -/
def State.fnOpen (s : State) (f : Nat) : Bool :=
  s.rb Reg.HOSTEP_LINKSTAT.at 0 && (s.hostFn f).bme && !(s.hostFn f).d3

/-- A read outside the device that an operation has already asked for, by address and length, with its answer if it has come. -/
def gotAt (a len : Nat) : List (Nat × Nat × Option ExtRes) → Option (Option ExtRes)
  | [] => none
  | (b, n, r) :: t => if b = a ∧ n = len then some r else gotAt a len t

/-- The answer of a read reaches the entry that asked for it. -/
def gotPut (a len : Nat) (x : ExtRes) : List (Nat × Nat × Option ExtRes) → List (Nat × Nat × Option ExtRes)
  | [] => []
  | (b, n, r) :: t => if b = a ∧ n = len ∧ r = none then (b, n, some x) :: t else (b, n, r) :: gotPut a len x t

/-- An operation has asked for a read outside the device. -/
def State.asked (s : State) (n a len : Nat) : State := s.modOp n (fun o => { o with got := o.got ++ [(a, len, none)] })

/-- A back-read of n bytes of the submitter's memory for a forwarded step (R384), one BRD per line. -/
def State.backRead (s : State) (n a len : Nat) : State :=
  let l := s.slot n
  match s.routeTo l.peer with
  | none => s.modOp n (fun o => { o with got := o.got ++ [(a, len, some (.fail 0x17))] })
  | some p =>
    (s.asked n a len).request p
      { vl := 0, ty := 4, dst := l.peer, src := 0, tag := 0, info := len,
        payload := pad64 (leBytes 8 a ++ leBytes 2 l.peerSlot ++ leBytes 2 n ++ leBytes 2 l.fgen) } none (.op n a len false)

/-- One read of an operation (R282): own memory at once; host memory by a request that a completion answers; a forwarded
step's own buffers by back-reads of at most a line (back). -/
def State.opRead1 (s : State) (n : Nat) (back : Bool) (a len : Nat) : State × Got :=
  let o := s.op? n
  match (match o with | some o => gotAt a len o.got | none => none) with
  | some (some (.bytes bs)) => (s, .ok bs)
  | some (some (.fail e)) => (s, .fail e)
  | some none => (s, .wait)
  | none =>
    if back then (s.backRead n a len, .wait)
    else if s.isHost a then
      let f := fnOfRing (s.slot n).ring
      if s.fnOpen f then ((s.asked n a len).hostRead f (.op n a len) a len, .wait) else (s, .fail 0x17)
    else match State.fabricReadLong (pieces len) s (s.opTag n) a len [] with
      | (s, .ok bs) => (s, .ok bs)
      | (s, .error (e, _)) => (s, .fail (errStatus e))

/-- A read of an operation: back-reads go line by line, host reads by the Max Read Request Size (R408), and all are asked for before the answer waits. -/
def State.opRead : Nat → State → Nat → Bool → Nat → Nat → List Byte → Bool → State × Got
  | 0, s, _, _, _, _, acc, w => (s, if w then .wait else .ok acc)
  | f + 1, s, n, back, a, len, acc, w =>
    if len = 0 then (s, if w then .wait else .ok acc)
    else
      let k := if back then min len (64 - a % 64)
        else if s.isHost a then min len (min (s.readMax (fnOfRing (s.slot n).ring)) (4096 - a % 4096)) else len
      match s.opRead1 n back a k with
      | (s, .fail e) => (s, .fail e)
      | (s, .wait) => State.opRead f s n back (a + k) (len - k) acc true
      | (s, .ok bs) => State.opRead f s n back (a + k) (len - k) (acc ++ bs) w

/-- The number of lines that a read can touch. -/
def lineFuel (len : Nat) : Nat := len / 64 + 2

/-- The bytes of several pieces, in order. -/
def State.gather (s : State) (n : Nat) (back : Bool) : List (Nat × Nat) → List Byte → Bool → State × Got
  | [], acc, w => (s, if w then .wait else .ok acc)
  | (a, len) :: t, acc, w =>
    match State.opRead (lineFuel len) s n back a len [] false with
    | (s, .fail e) => (s, .fail e)
    | (s, .wait) => s.gather n back t acc true
    | (s, .ok bs) => s.gather n back t (acc ++ bs) w

/-- A back-write of bytes that lie in one line to the submitter's memory (R384): BWR with its WRD. -/
def State.backWrite (s : State) (n a : Nat) (bs : List Byte) : State :=
  let l := s.slot n
  match s.routeTo l.peer with
  | none => s.modOp n (fun o => { o with got := o.got ++ [(a, bs.length, some (.fail 0x17))] })
  | some p =>
    let s := s.request p { vl := 0, ty := 5, dst := l.peer, src := 0, tag := 0, info := bs.length,
                           payload := pad64 (leBytes 8 a ++ leBytes 2 l.peerSlot ++ leBytes 2 n ++ leBytes 2 l.fgen) }
               (some (lineImage a bs)) (.op n a bs.length true)
    s.modOp n (fun o => { o with out := o.out + 1 })

/-- Back-writes line by line. -/
def State.backWrites : Nat → State → Nat → Nat → List Byte → State
  | 0, s, _, _, _ => s
  | f + 1, s, n, a, bs =>
    if bs.isEmpty then s
    else State.backWrites f (s.backWrite n a (bs.take (64 - a % 64))) n (a + (64 - a % 64)) (bs.drop (64 - a % 64))

/-- Bytes of an operation go to memory (R282): the status of a failure, if any. -/
def State.opWrite (s : State) (n : Nat) (back : Bool) (a : Nat) (bs : List Byte) : State × Option Nat :=
  if bs.isEmpty then (s, none)
  else if back then (State.backWrites (lineFuel bs.length) s n a bs, none)
  else if s.isHost a then
    let f := fnOfRing (s.slot n).ring
    if s.fnOpen f then (s.hostWrite f a bs, none) else (s, some 0x17)
  else match State.fabricWriteLong (pieces bs.length) s (s.opTag n) a bs with
    | (s, none) => (s, none)
    | (s, some e) => (s, some (errStatus e))

/-- Bytes are laid into pieces in order, up to the first failure. -/
def State.scatter (s : State) (n : Nat) (back : Bool) : List (Nat × Nat) → List Byte → State × Option Nat
  | [], _ => (s, none)
  | (a, len) :: t, bs =>
    match s.opWrite n back a (bs.take len) with
    | (s, some e) => (s, some e)
    | (s, none) => s.scatter n back t (bs.drop len)

/-! ## CCD checks -/

/-- The largest COUNT of a command (R273). -/
def maxCount (cmd : Nat) : Nat :=
  if cmd < 3 then 0 else if cmd = 0xA ∨ cmd = 0xB then 256 else 2 ^ 24

/-- The smallest COUNT of a command (R273). -/
def minCount (cmd : Nat) : Nat := if cmd < 3 ∨ cmd = 0xA then 0 else 1

/-- The bytes that a CCD names, LAST resolved (R279). -/
def Ccd.len (c : Ccd) (last : Option Nat) : Nat := if c.count = countLast then last.getD 0 else c.count

/-- The summed COUNT of a chain. -/
def chainLen (last : Option Nat) (cs : List Ccd) : Nat := (cs.map (fun c => c.len last)).foldl (· + ·) 0

/-- Does a CCD break a format rule of R279? head: the chain so far ([] for a first CCD); jobs: the direct-only commands are allowed
(R356). -/
def ccdBad (a : Nat) (c : Ccd) (head : List Ccd) (last : Option Nat) (nread : Nat) (jobs : Bool) : Bool :=
  let cmd := c.cmd
  a % 32 != 0 || nfld c.w0 7 4 != 0 || nfld c.w0 15 13 != 0 || nfld c.w0 31 24 != 0 || c.addr / 2 ^ 44 != 0 || c.w7 != 0 ||
  (if jobs then !(cmd == 4 || cmd == 5 || cmd == 3 || cmd == 6 || cmd == 7 || cmd == 0xC || cmd == 0xD) else decide (0xC ≤ cmd)) ||
  (if c.count = countLast then last.isNone || c.join || !head.isEmpty || decide (cmd < 3)
   else decide (c.count < minCount cmd) || decide (maxCount cmd < c.count)) ||
  (c.join && (decide (cmd < 3) || cmd == 0xA || c.next || c.shortOk)) ||
  (match head with | [] => false | h :: _ => h.cmd != cmd) ||
  (head.isEmpty && ((cmd == 1 && (decide (2 < c.param) || c.arg % 32 != 0)) || (cmd == 2 && decide (1 < c.param)))) ||
  decide (256 ≤ nread) ||
  (!head.isEmpty && decide (maxCount cmd < chainLen last (head ++ [c])))

/-- The pieces of a chain: address and bytes. -/
def chainPieces (last : Option Nat) (cs : List Ccd) : List (Nat × Nat) := cs.map (fun c => (c.addr, c.len last))

/-! ## Rings and completion records -/

/-- The tag of a ring's accesses (R271). -/
def RingPair.tag (r : RingPair) : AccessTag := { world := r.world, pid := r.pid, cls := 1, src := 0xFE }

/-- A ring's VEC is raised (R270): an edge event for core rings, an MSI-X message for host rings. -/
def State.raiseRing (s : State) (q : Nat) : State :=
  let r := s.ring q
  let s := s.modRing q (fun r => { r with since := 0 })
  if nfld r.intr 15 15 = 0 then s
  else if q < 0x400 then s.hostRaise (q / 4) (nfld r.intr 9 0)
  else if q < 0x500 then s.raiseShared (nfld r.intr 9 0)
  else s

/-- A record has been written: coalescing (R270). -/
def State.noteRecord (s : State) (q : Nat) (now : Bool) : State :=
  let r := s.ring q
  let n := r.since + 1
  let s := s.modRing q (fun r => { r with since := n })
  if now ∨ nfld r.intr 23 16 ≤ n then s.raiseRing q else s

/-- CQ_TAIL passes the positions that are written. -/
def advanceTail : Nat → Nat → Nat → List Nat → Nat × List Nat
  | 0, t, _, w => (t, w)
  | f + 1, t, e, w => if t ≠ e ∧ t ∈ w then advanceTail f ((t + 1) % 65536) e (w.filter (fun x => x != t)) else (t, w)

/-- A CQ position is written, or passed over. -/
def State.cqWritten (s : State) (q pos : Nat) : State :=
  s.modRing q (fun r =>
    let (t, w) := advanceTail (r.written.length + 1) r.cqTail r.cqNext (r.written ++ [pos])
    { r with cqTail := t, written := w })

/-- The status word, GEN and PHASE words, and the rest of a completion record (R268). -/
def recordImage (sub tag status gen pos log2 resid idx : Nat) (etc : W64) (devstat slot path : Nat) : List Byte :=
  leBytes 4 (sub % 4096 + tag % 4096 * 2 ^ 12 + status % 256 * 2 ^ 24) ++
  leBytes 4 (gen % 65536 + (1 - nfld pos log2 log2) * 2 ^ 31) ++ leBytes 4 resid ++ leBytes 4 idx ++ leBytes 8 etc.toNat ++
  leBytes 4 devstat ++ leBytes 4 (slot % 8192 + path % 256 * 2 ^ 16)

/-- The context record of a ring pair (R265). -/
def State.ringRecord (s : State) (q : Nat) : Nat :=
  s.rf Reg.CSS_RCBASE_LO.at 31 18 * 2 ^ 18 + s.rf Reg.CSS_RCBASE_HI.at 11 0 * 2 ^ 32 + q * 0x40

/-- The ETC in a slot's record image: that of its ENDED transition. -/
def imageEtc (im : List Byte) : Nat := leNat ((im.drop 0x10).take 8)

/-- Insertion by the time of the ENDED transition. -/
def insertEnded {α : Type} (t : Nat) (x : α) : List (Nat × α) → List (Nat × α)
  | [] => [(t, x)]
  | (u, y) :: r => if u ≤ t then (u, y) :: insertEnded t x r else (t, x) :: (u, y) :: r

/-- ENDED slots become orphans in the order of their ENDED transitions (R301). -/
def State.orphanWhere (s : State) (ok : Nat → Slot → Bool) (cause : Nat) : State :=
  let l := s.css.slots.foldl (fun l e =>
    if ok e.1 e.2 && e.2.st == 4 && !e.2.orphan then insertEnded (imageEtc e.2.image) e.1 l else l) []
  l.foldl (fun s e => s.orphanSlot e.2 cause) s

/-- FSTATD shows whether a function still has records that wait for Bus Master Enable (R411). -/
def State.showHeld (s : State) (f : Nat) : State :=
  s.setRb (Reg.HOSTEP_FSTATD.at f) 2 ((List.range' (4 * f) 4).any (fun q => !(s.ring q).held.isEmpty))

/-- The operations of ring pairs whose records go to the log are marked (R301). -/
def State.markOps (s : State) (ok : Slot → Bool) (cause : Nat) : State :=
  s.css.ops.foldl (fun s e =>
    if ok (s.slot e.1) then
      s.modOp e.1 (fun o => { o with ocause := if o.ocause = 0 ∨ (o.ocause = 2 ∧ cause ≠ 2) then cause else o.ocause })
    else s) s

/-- An RP_DISABLE or RP_FLUSH completes when the pair's last operation has ended and its record is written (R263). -/
def State.checkClosed (s : State) (q : Nat) : State :=
  let r := s.ring q
  if r.closing = 0 ∨ s.ringInFlight q ≠ 0 ∨ !r.held.isEmpty then s
  else
    let s := s.modRing q (fun r => { r with enabled := false, closing := 0 })
    if r.closing = 1 then s.cmdDone 0
    else
      let pg := Sparse.get RingPage.reset s.host.pages q
      { s with host := { s.host with pages := Sparse.set RingPage.reset s.host.pages q { pg with busy := false, result := 0 } } }

/-- A ring fault (R267, R271): the ring pair is fenced, and for a VF every ring pair of the VF; the operations whose records go to the log are
marked (a VF's are ended by the sweep below), and records not yet written become orphans: of a VF, all that are ENDED (R301). The Contained
record is written at the sweep's end, when what the pairs held has returned (R50); a fault of a pair already fenced writes its own (R55). -/
def State.ringFault (s : State) (q : Nat) : State :=
  let s := { s with css := { s.css with faults := s.css.faults ++ [q] } }
  if (s.ring q).fenced then s
  else
    let vf := decide (q < 0x400) && decide (4 ≤ q)
    let qs := if vf then List.range' (q / 4 * 4) 4 else [q]
    let cause := if vf then 3 else 2
    let waiting (n : Nat) : Bool := (s.ring q).held.any (fun h => h.final && h.slot == n)
    let s := qs.foldl (fun s q => s.modRing q (fun r => { r with fenced := true, held := [] })) s
    let s := if vf then (s.modFn (q / 4) (fun f => { f with fenced := true })).setRb (Reg.HOSTEP_FSTATD.at (q / 4)) 5 true else s
    let s := s.markOps (fun l => qs.contains l.ring) cause
    let s := s.orphanWhere (fun n l => qs.contains l.ring && (vf || waiting n)) cause
    let s := if q < 0x400 then s.showHeld (q / 4) else s
    qs.foldl (fun s q => s.checkClosed q) s

/-- The records of the ring faults since the last sweep (R50, R267). -/
def State.recordFaults (s : State) : State :=
  let qs := s.css.faults
  qs.foldl (fun s q =>
    s.record { bank := 34, unit := 0x00, code := 0x07, sev := .contained, fence := true, tag := some (s.ring q).tag, misc0 := q })
    { s with css := { s.css with faults := [] } }

/-- 32 bytes go into a CQ position of a ring pair (R268). false: the write failed. Host memory takes a posted write. -/
def State.cqPut (s : State) (q pos : Nat) (b : List Byte) : State × Bool :=
  let r := s.ring q
  let a := r.cqBase + pos % r.cqSize * 32
  if s.isHost a then
    (if s.fnOpen (fnOfRing q) then (s.hostWrite (fnOfRing q) a b, true) else (s, false))
  else match s.fabricWrite r.tag a b with
    | (s, none) => (s, true)
    | (s, some _) => (s, false)

/-- Why the record of an operation goes to the recovery log (R301): 0 where it does not. -/
def State.orphanCause (s : State) (n : Nat) (marked : Nat) : Nat :=
  let l := s.slot n
  if marked ≠ 0 then marked
  else if s.fenced l.pid then 4
  else if (s.ring l.ring).fenced then 2
  else 0

/-- Do a ring's records wait for Bus Master Enable (R411, R414)? -/
def State.ringHolds (s : State) (q : Nat) : Bool := s.isHost (s.ring q).cqBase && decide (q < 0x400) && !s.fnOpen (q / 4)

/-- A record waits for Bus Master Enable (R411). -/
def State.holdRecord (s : State) (q : Nat) (h : HeldRec) : State :=
  (s.modRing q (fun r => { r with held := r.held ++ [h] })).setRb (Reg.HOSTEP_FSTATD.at (q / 4)) 2 true

/-- The record of an ENDED slot is delivered (R268, R271, R301, R411): to the log, held, or into the CQ. The counters of a pair that was
fenced (OCAUSE 2) stay as they are: they may since be those of a new ring (R265). -/
def State.deliver (s : State) (n cause : Nat) : State :=
  let l := s.slot n
  let q := l.ring
  if cause = 2 then (s.orphanSlot n cause).checkClosed q
  else if cause ≠ 0 then ((s.orphanSlot n cause).cqWritten q l.pos).checkClosed q
  else if s.ringHolds q then s.holdRecord q { slot := n, pos := l.pos, image := l.image, final := true }
  else match s.cqPut q l.pos l.image with
    | (s, true) => ((s.cqWritten q l.pos).noteRecord q false).checkClosed q
    | (s, false) => ((s.orphanSlot n 1).ringFault q).checkClosed q

/-- A PROGRESS record (R269, R277): into a CQ entry beyond the reservations, held as any record (R411), or skipped and counted in MARKSKIP. -/
def State.progress (s : State) (n : Nat) : State :=
  let l := s.slot n
  let q := l.ring
  let r := s.ring q
  match s.op? n with
  | none => s
  | some o =>
    if s.orphanCause n o.ocause ≠ 0 then s
    else if (r.cqNext + 65536 - r.cqHead) % 65536 ≥ r.cqSize then
      let s := s.modRing q (fun r => { r with markskip := (r.markskip + 1) % 2 ^ 32 })
      let (s, _) := s.fabricWrite cssTag (s.ringRecord q + 0x18) (leBytes 4 ((r.markskip + 1) % 2 ^ 32))
      s.raiseRing q
    else
      let pos := r.cqNext
      let im := recordImage l.subch (nfld l.sqe 23 12) 0x02 (s.sub l.subch).gen pos (nfld r.cfg 23 20) 0 o.idx s.clk.etc 0 n 0
      let s := s.modRing q (fun r => { r with cqNext := (pos + 1) % 65536 })
      if s.ringHolds q then s.holdRecord q { slot := n, pos := pos, image := im, final := false }
      else match s.cqPut q pos im with
        | (s, true) => (s.cqWritten q pos).noteRecord q true
        | (s, false) => s.ringFault q

/-! ## Subchannels -/

/-- The address of a subchannel record (R260). -/
def State.subRecord (s : State) (n : Nat) : Nat :=
  s.rf Reg.CSS_SCBASE_LO.at 31 18 * 2 ^ 18 + s.rf Reg.CSS_SCBASE_HI.at 11 0 * 2 ^ 32 + n * 0x40

/-- The record CODE of a failed access to a subchannel record (R291). -/
def recCode : AccErr → Nat
  | .refused => 0x09 | .unmapped => 0x08 | .poisoned => 0x0B | _ => 0x07

/-- A subchannel record is lost while enabled (R291), by the CODE of the failed write: the subchannel becomes DISABLED and a Contained record is
written. A command that waits on it ends: SC_ABORT with OK, a drain with BADSTATE. -/
def State.loseSub (s : State) (n code : Nat) : State :=
  let c := s.sub n
  let s := (s.modSub n (fun c => { c with st := .disabled, drain := none, lost := true })).record
    { bank := 34, unit := 0x01, code := code, sev := .contained, addr := some (s.subRecord n), tag := some cssTag, misc0 := n }
  match c.st with
  | .aborting => s.cmdDone 0
  | .migrating => s.cmdDone 1
  | _ => s

/-- The CSS words of a subchannel record are written (R260). A failure loses the subchannel (R291): it becomes DISABLED and
its operations are ended by the sweep; a migration or abort that waits on it ends (log entry 43). -/
def State.writeSub (s : State) (n : Nat) : State :=
  let c := s.sub n
  let b := leBytes 4 (c.st.code + c.idx * 2 ^ 8 + min c.queue.length 8 * 2 ^ 16) ++ leBytes 4 c.gen ++ leBytes 4 c.done ++ leBytes 4 c.ended
  match s.fabricWrite cssTag (s.subRecord n + 0x20) b with
  | (s, none) => s
  | (s, some e) =>
    if c.st = .disabled then s
    else s.loseSub n (recCode e)

/-- GEN increments (R286). -/
def State.bumpGen (s : State) (n : Nat) : State := s.modSub n (fun c => { c with gen := (c.gen + 1) % 65536 })

/-- The index of the first ONLINE listed path after an index, in the order A, B, C, D, wrapping (R287). -/
def State.nextPath (s : State) (c : SubCh) (i : Nat) : Option Nat :=
  ((List.range' 1 3).map (fun k => (i + k) % 4)).find? (fun j => s.pathUp (c.pathAt j))

/-- Is some listed path ONLINE? -/
def State.anyPath (s : State) (c : SubCh) : Bool := (List.range 4).any (fun j => s.pathUp (c.pathAt j))

/-- An operation leaves its subchannel's queue (R262): the last one takes ACTIVE to IDLE, and ABORTING to IDLE or NOPATH, which
ends SC_ABORT. -/
def State.leaveQueue (s : State) (sc n : Nat) : State :=
  let c := s.sub sc
  let qu := c.queue.filter (fun x => x != n)
  let s := s.modSub sc (fun c => { c with queue := qu })
  if !qu.isEmpty ∨ n ∉ c.queue then s
  else match c.st with
    | .active => s.modSub sc (fun c => { c with st := .idle })
    | .aborting => (s.modSub sc (fun c => { c with st := if s.anyPath c then .idle else .nopath })).cmdDone 0
    | _ => s

/-! ## Ending an operation -/

/-- A handed-off step leaves its path: reported, withdrawn or lost. PATHSTAT.ACTIVE counts down. -/
def State.withdraw (s : State) (p n : Nat) : State :=
  let st := Reg.ADPT_PATHSTAT.at p
  let s := s.modAdapter p (fun a => { a with steps := a.steps.filter (fun x => x.slot != n) })
  s.setRf st 31 16 (s.rf st 31 16 - 1)

/-- The peer is asked to cancel a forwarded step that ended otherwise (R309, R385). -/
def State.cancelFwd (s : State) (n : Nat) : State :=
  let l := s.slot n
  if l.fwd then s.sendLedger (ledgerFlit 3 l.peer n l.peerSlot l.st l.gen s.clk.etc []) else s

/-- The summed COUNT of an operation's step, LAST resolved. -/
def Op.count (o : Op) : Nat := chainLen o.last o.chain

/-- The residual of a step that has begun and transferred nothing (R276). -/
def Op.fullResid (o : Op) : Nat :=
  match o.phase, o.chain with
  | .ready, _ | .fetch, _ => 0
  | _, [] => 0
  | _, c :: _ => if c.cmd < 4 then 0 else if c.cmd < 8 then c.aux else o.count

/-- The engine step of an operation that ends: a waiting one is dropped, and one that has started runs to its end for nobody (R337). -/
def dropSteps (n : Nat) (es : List EngStep) : List EngStep :=
  (es.filter (fun e => e.started || e.who != .op n)).map (fun e => if e.who = .op n then { e with who := .op numSlots } else e)

/-- The same in both engines. -/
def State.dropEngine (s : State) (n : Nat) : State :=
  { s with mash := { s.mash with steps := dropSteps n s.mash.steps }, kiln := { s.kiln with steps := dropSteps n s.kiln.steps } }

/-- The answers of an operation's reads and writes outside the device are for nobody once it has ended: the tags stay taken until they
come. -/
def State.dropReads (s : State) (n : Nat) : State :=
  let reads := s.host.reads.map (fun e => (e.1, e.2.map (fun r => match r.who with
    | .op m a k => if m = n then { r with who := .op numSlots a k } else r
    | _ => r)))
  let reqs := s.relay.reqs.map (fun e => (e.1, e.2.map (fun r => match r.who with
    | .op m a k w => if m = n then { r with who := .op numSlots a k w } else r
    | _ => r)))
  { s with host := { s.host with reads := reads }, relay := { s.relay with reqs := reqs } }

/-- An operation ends (R285, R295, R296): counters, record image, ENDED, the record's delivery, the queue. keepFwd: the ending is
the peer's ENDED update. A subchannel that was never enabled has no counters (log entry 21). -/
def State.endOp (s : State) (n status resid devstat : Nat) (keepFwd : Bool := false) : State :=
  match s.op? n with
  | none => s
  | some o =>
    let l := s.slot n
    let sc := l.subch
    let s := if o.phase = .handed ∨ o.phase = .backWrite then s.withdraw o.path n else s
    let s := (if o.phase = .engine then s.dropEngine n else s).dropReads n
    let s := if keepFwd then s else s.cancelFwd n
    let s := if (s.sub sc).st = .disabled ∧ (s.sub sc).timeout = 0 then s
      else s.modSub sc (fun c => if status = 0 ∨ status = 1 then { c with done := (c.done + 1) % 2 ^ 32 } else { c with ended := (c.ended + 1) % 2 ^ 32 })
    let im := recordImage l.subch (nfld l.sqe 23 12) status (s.sub sc).gen l.pos (nfld (s.ring l.ring).cfg 23 20) resid o.idx s.clk.etc devstat n o.path
    let s := s.moveSlot n 4 (fun l => { l with handoff := false, image := im })
    let s := (s.setOp n none).leaveQueue sc n
    let s := if (s.sub sc).st = .disabled ∧ ((s.sub sc).timeout = 0 ∨ (s.sub sc).lost) then s else s.writeSub sc
    let s := if l.mirrored then s.sendMirror n 4 else s
    s.deliver n (s.orphanCause n o.ocause)

/-- Frames stored for a subchannel that has left an adapter's match set are discarded into RXUNCL (R318). -/
def State.purgeSub (s : State) (sc : Nat) : State :=
  s.adpt.foldl (fun s e =>
    if (s.sub sc).st ≠ .disabled ∧ (s.sub sc).path = e.1 then s
    else
      let gone := (e.2.store.filter (fun x => x.1 == sc)).length
      if gone = 0 then s
      else (s.modAdapter e.1 (fun a => { a with store := a.store.filter (fun x => x.1 != sc) })).countUp (Reg.ADPT_RXUNCL.at e.1) 32 gone) s

/-! ## Hand-off and interruption -/

/-- Has an adapter room for a step (R314)? Relay peer paths have no such limit. -/
def State.pathRoom (s : State) (p cmd : Nat) : Bool :=
  decide (0x4C ≤ p) ||
  decide (((s.adapter p).steps.filter (fun x => (x.cmd == 8) == (cmd == 8))).length < 8)

/-- Does a path authorise the operation's partition (R259)? -/
def State.pathAuth (s : State) (p : Nat) (l : Slot) : Bool :=
  l.world || (if l.pid < 32 then s.rb (Reg.ADPT_PAUTH_LO.at p) l.pid else s.rb (Reg.ADPT_PAUTH_HI.at p) (l.pid - 32))

/-- The slot's fields at a hand-off (R294, R295). -/
def State.dispatchSlot (s : State) (n : Nat) (o : Op) (p : Nat) (fwd : Bool) (peer : Nat) : State :=
  let g := (s.sub (s.slot n).subch).gen
  let f (l : Slot) : Slot :=
    { l with handoff := true, fwd := fwd, gen := g, redisp := o.redisp, bAddr := o.at_, bIdx := o.idx, bPath := p,
             bEtc := s.clk.etc.toNat, bCount := o.count,
             peer := if fwd then peer else l.peer, peerSlot := if fwd then 0 else l.peerSlot, peerSt := if fwd then 0 else l.peerSt }
  if (s.slot n).st = 3 then s.restateSlot n f else s.moveSlot n 3 f

/-- The FWD payload of a step (R382). -/
def fwdPayload (c : Ccd) (sub ring slot gen pa : Nat) : List Byte :=
  pad64 (leBytes 4 c.w0 ++ leBytes 4 c.count ++ leBytes 8 c.addr ++ leBytes 8 c.arg ++ leBytes 4 c.aux ++ leBytes 4 c.w7 ++
    leBytes 4 (sub % 4096 + ring % 256 * 2 ^ 12) ++ leBytes 4 (slot % 8192 + gen % 65536 * 2 ^ 16) ++ leBytes 8 pa)

/-- A device step is handed to the subchannel's current path, which is ONLINE (R259, R282, R309, R314, R381, R382). Without room,
data or the peer's acknowledgement it stays where it is. -/
def State.handOff (s : State) (n : Nat) : State :=
  match s.op? n with
  | none => s
  | some o =>
    match o.chain with
    | [] => s
    | c :: _ =>
      let l := s.slot n
      let sub := s.sub l.subch
      let p := sub.path
      let relay := decide (0x4C ≤ p)
      let again := match o.phase with | .redispatch _ => true | _ => false
      let rd := if again then o.redisp + 1 else o.redisp
      if s.cssStopped ∨ !s.pathRoom p c.cmd then s
      else if !s.pathAuth p l then s.endOp n 0x10 o.count 0
      else if relay ∧ sub.devaddr / 2 ^ 12 ≠ 0 then s.endOp n 0x1A o.count 1
      else if l.mirrored ∧ !o.peerOk then
        (if o.asked then s else (s.modOp n (fun o => { o with asked := true })).sendMirror n 3)
      else
        let (s, g) := if relay ∨ c.cmd = 8 ∨ c.cmd = 0xB then (s, Got.ok [])
          else s.gather n l.mirrored (chainPieces o.last o.chain) [] false
        match g with
        | .wait => s
        | .fail e => s.endOp n e o.count 0
        | .ok data =>
          let o := { o with redisp := rd, phase := .handed, path := p, got := [] }
          let s := s.setOp n (some o)
          if relay then
            let b := s.reg (Reg.RELAY_PEERPATH.at (p - 0x4C))
            let peer := fld b 4 0
            let s := s.dispatchSlot n o p true peer
            let s := s.setRf (Reg.ADPT_PATHSTAT.at p) 31 16 (s.rf (Reg.ADPT_PATHSTAT.at p) 31 16 + 1)
            s.request (fld b 10 8)
              { vl := 0, ty := 3, dst := peer, src := 0, tag := 0, info := 0,
                payload := fwdPayload c (sub.devaddr % 4096) (fld b 23 16) n sub.gen o.at_ } none (.fwd n sub.gen)
          else
            let s := s.dispatchSlot n o p false 0
            let st : AdStep := { slot := n, gen := sub.gen, sub := l.subch, cmd := c.cmd, param := c.param, arg := c.arg, count := o.count, data := data }
            let s := s.modAdapter p (fun a => { a with steps := a.steps ++ [st] })
            (s.setRf (Reg.ADPT_PATHSTAT.at p) 31 16 (s.rf (Reg.ADPT_PATHSTAT.at p) 31 16 + 1)).startSd p

/-- The head operation of a subchannel, if any. -/
def State.headOp (s : State) (sc : Nat) : Option (Nat × Op) :=
  match (s.sub sc).queue with
  | [] => none
  | n :: _ => (s.op? n).map (fun o => (n, o))

/-- The slot whose step is handed off and unreported on a subchannel, if any. -/
def State.handedSlot (s : State) (sc : Nat) : Option (Nat × Op) :=
  match s.headOp sc with
  | some (n, o) => if o.phase = .handed ∨ o.phase = .backWrite then some (n, o) else none
  | none => none

/-- An interrupted dispatch that waits is handed to the current path where it is ONLINE (R288). -/
def State.redispatch (s : State) (sc : Nat) : State :=
  match s.headOp sc with
  | some (n, o) =>
    match o.phase with
    | .redispatch _ => if (s.sub sc).st = .active ∧ s.pathUp (s.sub sc).path then s.handOff n else s
    | _ => s
  | none => s

/-- A handed-off step whose report is lost, GEN having moved on (R288): it waits to be handed off again where IDEMP and IRETRY allow, else
the operation ends with the cause's status. -/
def State.interrupt (s : State) (n status : Nat) : State :=
  match s.op? n with
  | none => s
  | some o =>
    let c := s.sub (s.slot n).subch
    let ok : Bool := match o.chain with
      | [] => false
      | d :: _ => d.idemp && decide (o.redisp < nfld c.cfg 27 24) && !o.abort && c.st != .aborting
    if ok then
      let s := (s.withdraw o.path n).cancelFwd n
      (s.modOp n (fun o => { o with phase := .redispatch status })).writeSub (s.slot n).subch
    else s.endOp n status o.count 0

/-- The switch of a migration (R287): the current path and GEN change, and the subchannel is ACTIVE or IDLE again (R262). -/
def State.switchTo (s : State) (sc i : Nat) : State :=
  let s := s.modSub sc (fun c => { c with idx := i, gen := (c.gen + 1) % 65536, drain := none, st := if c.queue.isEmpty then .idle else .active })
  (s.purgeSub sc).writeSub sc

/-- A drain's wait has ended (R287): the switch, or BADRECORD when its target has left ONLINE. -/
def State.drainEnd (s : State) (sc res : Nat) : State :=
  let c := s.sub sc
  match c.st, c.drain with
  | .migrating, some (i, ok) =>
    if ok ∧ s.pathUp (c.pathAt i) then ((s.switchTo sc i).cmdDone res).redispatch sc
    else
      let s := s.modSub sc (fun c => { c with drain := none, st := if c.queue.isEmpty then .idle else .active })
      ((s.writeSub sc).cmdDone 2).redispatch sc
  | _, _ => s

/-! ## Fences, resets and lost records -/

/-- An operation ends by a fence, reset or lost record (R297): FLUSHED, or INDET_RESET with a new GEN where its step was handed
off or waits for a re-dispatch. A drain that waited for the step goes on (R287). -/
def State.endReset (s : State) (n : Nat) : State :=
  match s.op? n with
  | none => s
  | some o =>
    match o.phase with
    | .handed | .backWrite =>
      let sc := (s.slot n).subch
      ((s.bumpGen sc).endOp n 0x43 o.count 0).drainEnd sc 0
    | .redispatch _ => s.endOp n 0x43 o.count 0
    | _ => s.endOp n 0x1F o.fullResid 0

/-- Does an operation wait to be ended by the sweep: its VF or partition is fenced, or its subchannel record is lost? -/
def State.doomed (s : State) (e : Nat × Option Op) : Bool :=
  match e.2 with
  | none => false
  | some o => o.ocause == 3 || o.ocause == 4 || (s.sub (s.slot e.1).subch).lost

/-- Operations of fenced functions and partitions and of lost subchannels end (R291, R304). -/
def State.sweepOps : Nat → State → State
  | 0, s => s
  | f + 1, s =>
    match s.css.ops.find? s.doomed with
    | none => s
    | some e => State.sweepOps f (s.endReset e.1)

/-- The sweep after a command: the doomed operations end; a lost subchannel with none left is DISABLED; then ring faults are recorded (R50). -/
def State.sweep (s : State) : State :=
  let s := State.sweepOps (s.css.ops.length + 1) s
  (s.css.subs.foldl (fun s e => if e.2.lost then (s.modSub e.1 (fun c => { c with lost := false, queue := [] })).purgeSub e.1 else s) s).recordFaults

/-! ## Steps -/

/-- The result of reading a CCD. -/
inductive CcdGot where
  | ok (c : Ccd) | fail (status : Nat) | wait
deriving DecidableEq, Repr

/-- The CCD at an address is read for an operation and checked (R279, R280 check 5, R282). -/
def State.readCcd (s : State) (n a : Nat) (head : List Ccd) (last : Option Nat) (nread : Nat) (first : Option Ccd) : State × CcdGot :=
  let l := s.slot n
  let (s, g) := match first with
    | some c => (s, CcdGot.ok c)
    | none =>
      if a % 32 ≠ 0 ∨ nread ≥ 256 then (s, CcdGot.fail 0x15)
      else match State.opRead 2 s n l.mirrored a 32 [] false with
        | (s, .ok b) => (s, CcdGot.ok (Ccd.ofBytes b))
        | (s, .fail e) => (s, CcdGot.fail e)
        | (s, .wait) => (s, CcdGot.wait)
  match g with
  | .ok c =>
    if ccdBad a c head last nread false ∨ (l.mirrored ∧ c.cmd < 8) then (s, .fail 0x15)
    else if nfld (s.sub l.subch).cfg (8 + c.cmd) (8 + c.cmd) = 0 then (s, .fail 0x12)
    else (s, .ok c)
  | g => (s, g)

/-- The operation goes on to the CCD at an address (R275): read and checked, its step is ready; a failure ends the
operation with CCDIDX naming it. -/
def State.nextStep (s : State) (n a : Nat) : State :=
  let s := s.modOp n (fun o => { o with at_ := a, phase := .fetch, chain := [], marked := false, redisp := 0 })
  match s.op? n with
  | none => s
  | some o =>
    match s.readCcd n a [] o.last o.nread none with
    | (s, .wait) => s
    | (s, .fail e) => (s.modOp n (fun o => { o with idx := o.nread })).endOp n e 0 0
    | (s, .ok c) => s.modOp n (fun o => { o with chain := [c], idx := o.nread, nread := o.nread + 1, phase := .ready, got := [] })

/-- A step ends without error (R275, R276): LENGTH, the end of the program, or the next step. -/
def State.endStep (s : State) (n resid : Nat) (diff : Bool) (devstat : Nat) : State :=
  match s.op? n with
  | none => s
  | some o =>
    match o.chain.getLast? with
    | none => s
    | some c =>
      if diff ∧ !c.shortOk then s.endOp n 0x19 resid devstat
      else if c.next ∧ !o.abort ∧ !(s.slot n).mirrored then
        (s.modOp n (fun o => { o with resid := resid, diff := diff, got := [] })).nextStep n (o.at_ + 32 * o.chain.length)
      else s.endOp n (if diff then 0x01 else 0x00) resid devstat

/-- After the report of a step its subchannel's drain, if one waits, ends (R287). -/
def State.afterReport (s : State) (sc : Nat) : State := s.drainEnd sc 0

/-- A handed-off step is reported (R286): it leaves the path, and HANDOFF clears. -/
def State.reported (s : State) (n : Nat) (o : Op) : State :=
  let s := s.withdraw o.path n
  let s := s.restateSlot n (fun l => { l with handoff := false })
  s.modOp n (fun o => { o with phase := .begun })

/-- A report that the action took place: bytes transferred, whether excess was discarded, DEVSTAT (R276, R285). -/
def State.deviceDone (s : State) (n bytes : Nat) (excess : Bool) (devstat : Nat) : State :=
  match s.op? n with
  | none => s
  | some o =>
    let sc := (s.slot n).subch
    let s := s.reported n o
    ((s.endStep n (o.count - bytes) (bytes != o.count || excess) devstat).afterReport sc).sweep

/-- A report of a failure (R285), or "not sent" (R290). -/
def State.deviceFail (s : State) (n status devstat : Nat) : State :=
  match s.op? n with
  | none => s
  | some o =>
    let sc := (s.slot n).subch
    ((s.reported n o).endOp n status o.count devstat |>.afterReport sc).sweep

/-- The rest of a JOIN chain is read (R274). none: it is not yet complete, or the operation has ended. -/
def State.joinChain : Nat → State → Nat → State × Bool
  | 0, s, _ => (s, false)
  | f + 1, s, n =>
    match s.op? n with
    | none => (s, false)
    | some o =>
      match o.chain.getLast? with
      | none => (s, false)
      | some c =>
        if !c.join then (s, true)
        else match s.readCcd n (o.at_ + 32 * o.chain.length) o.chain o.last o.nread none with
          | (s, .wait) => (s, false)
          | (s, .fail e) => ((s.modOp n (fun o => { o with idx := o.nread })).endOp n e 0 0, false)
          | (s, .ok d) => State.joinChain f (s.modOp n (fun o => { o with chain := o.chain ++ [d], idx := o.nread, nread := o.nread + 1, got := [] })) n

/-- A device step is ready (R262, R289): the current path takes it, another listed path after a switch, or the
subchannel enters NOPATH. -/
def State.deviceReady (s : State) (sc n : Nat) : State :=
  let c := s.sub sc
  if c.st ≠ .active then s
  else if s.pathUp c.path then s.handOff n
  else match s.nextPath c c.idx with
    | some i => (s.switchTo sc i).handOff n
    | none => (s.modSub sc (fun c => { c with st := .nopath })).writeSub sc

/-- An engine step waits in Mash or Kiln (R337). -/
def State.enqueueEngine (s : State) (n : Nat) (o : Op) (c : Ccd) : State :=
  let e : EngStep := { who := .op n, ccd := c, pieces := chainPieces o.last o.chain, count := o.count, tag := s.opTag n, started := false,
                       iv := 0, key := none, lost := false, err := none }
  let s := s.modOp n (fun o => { o with phase := .engine })
  if c.cmd = 4 ∨ c.cmd = 5 then { s with mash := { s.mash with steps := s.mash.steps ++ [e] } }
  else { s with kiln := { s.kiln with steps := s.kiln.steps ++ [e] } }

/-- A step that has begun is carried on: its chain, then its action (R273). -/
def State.runStep (s : State) (sc n : Nat) : State :=
  match State.joinChain 257 s n with
  | (s, false) => s
  | (s, true) =>
    match s.op? n with
    | none => s
    | some o =>
      match o.chain with
      | [] => s
      | c :: _ =>
        if c.cmd = 0 then s.endStep n 0 false 0
        else if c.cmd = 1 then
          let take := c.param = 0 ∨ (c.param = 1 ∧ o.resid ≠ 0) ∨ (c.param = 2 ∧ o.resid = 0)
          if take then (s.modOp n (fun o => { o with resid := 0, diff := false })).nextStep n c.arg else s.endStep n 0 false 0
        else if c.cmd = 2 then
          let till := if c.param = 0 then c.arg else s.clk.etc.toNat + c.arg
          if till ≤ s.clk.etc.toNat then s.endStep n 0 false 0 else s.modOp n (fun o => { o with phase := .wait till })
        else if c.cmd < 8 then s.enqueueEngine n o c
        else s.deviceReady sc n

/-- The head operation of a subchannel comes to its step of a command: begun with its MARK record (R277), carried on, or handed
off again. Another command, or another state of the operation, is left as it is. -/
def State.ccdStep (s : State) (sc cmd : Nat) : State :=
  match s.headOp sc with
  | none => s
  | some (n, o) =>
    match o.chain with
    | [] => s
    | c :: _ =>
      if c.cmd ≠ cmd ∨ s.cssStopped then s
      else match o.phase with
        | .ready =>
          let s := s.modOp n (fun o => { o with phase := .begun, marked := true })
          let s := if c.mark ∧ !o.marked then s.progress n else s
          (s.runStep sc n).sweep
        | .begun => (s.runStep sc n).sweep
        | .redispatch _ => (s.redispatch sc).sweep
        | _ => s

end Sys2Proof.Machine
end

