-- ==== Sys2Proof/Machine/ChannelCmd.lean ====
section
/-! DEFINITION. The commands of the channel subsystem: doorbells (R267), reading and accepting SQ entries (R269, R280), CSS.CMD (R261-R265),
steps (R273), timeouts (R283, R289), path fences and recovery (R258, R287, R303), the enable (R305) and the log's registers (R300, R302). -/
namespace Sys2Proof.Machine

/-! ## Doorbells -/

/-- A write of SQ_TAIL (R267, R405). -/
def State.writeSqTail (s : State) (q v : Nat) : State :=
  let r := s.ring q
  let old := (r.sqTail + 65536 - r.sqHead) % 65536
  let new := (v + 65536 - r.sqHead) % 65536
  if !r.enabled then s
  else if new > r.sqSize ∨ new < old then (s.ringFault q).sweep
  else s.modRing q (fun r => { r with sqTail := v })

/-- Does a CQ_HEAD that moves from one count to another pass a position? -/
def passes (old new pos : Nat) : Bool := decide ((pos + 65536 - old) % 65536 < (new + 65536 - old) % 65536)

/-- A write of CQ_HEAD (R267, R295): the slots whose records are returned become REPORTED. -/
def State.writeCqHead (s : State) (q v : Nat) : State :=
  let r := s.ring q
  if !r.enabled then s
  else if (r.cqTail + 65536 - v) % 65536 > (r.cqTail + 65536 - r.cqHead) % 65536 then (s.ringFault q).sweep
  else
    let s := s.modRing q (fun r => { r with cqHead := v })
    s.css.slots.foldl (fun s e =>
      if e.2.ring = q ∧ e.2.st = 4 ∧ !e.2.orphan ∧ !e.2.mirrored ∧ passes r.cqHead v e.2.pos ∧ !r.held.any (fun h => h.slot == e.1) then s.reportSlot e.1 else s) s

/-- SQ_TAIL_WRITE (R267): a core's doorbell page, or the ring page of a host function; Relay ring pairs have none. -/
def execSqTailWrite (r : Requester) (q : Nat) (v : W32) (s : State) : Answer :=
  .next (if q < 0x400 then s.barWrite (q / 4) (fun s => s.writeSqTail q (fld v 15 0))
    else if q < 0x500 then s.byReq r (Reg.CSS_SQ_TAIL.at (q - 0x400)) (fun s => s.writeSqTail q (fld v 15 0)) else s)

/-- CQ_HEAD_WRITE (R267). -/
def execCqHeadWrite (r : Requester) (q : Nat) (v : W32) (s : State) : Answer :=
  .next (if q < 0x400 then s.barWrite (q / 4) (fun s => s.writeCqHead q (fld v 15 0))
    else if q < 0x500 then s.byReq r (Reg.CSS_CQ_HEAD.at (q - 0x400)) (fun s => s.writeCqHead q (fld v 15 0)) else s)

/-! ## Reading and acceptance -/

/-- May the SQ of a ring pair be read now (R269, R305, R411)? Not while a sleep entry drains the CSS (R485), while an entry of it waits for its
first CCD (R280: in SQ order), or, in memory, while the owner's partition is fenced (R304). -/
def State.readable (s : State) (q : Nat) : Bool :=
  let r := s.ring q
  !s.boot.sleep && r.enabled && !r.fenced && r.closing == 0 && (decide (0x500 ≤ q) || !s.fenced r.pid) &&
  !s.css.ops.any (fun e => (s.slot e.1).ring == q && (s.slot e.1).st == 1) &&
  (if q < 0x500 then r.sqTail != r.sqHead else !r.fwds.isEmpty) &&
  decide ((r.cqNext + 65536 - r.cqHead) % 65536 < r.cqSize) &&
  !(r.asked && r.got.isNone) && (!s.isHost r.sqBase || decide (0x500 ≤ q) || s.fnOpen (fnOfRing q))

/-- Does the CSS read rings: EN = 1, not stopped, no format or scan running (R305)? -/
def State.cssRuns (s : State) : Bool := s.rb Reg.CSS_CTL.at 0 && !s.cssStopped && !s.rb Reg.CSS_LSTAT.at 31

/-- The ring pair whose turn it is (R280): the next readable one after the last served. -/
def State.nextRing (s : State) : Option Nat :=
  let qs := (s.css.rings.map (fun e => e.1)).filter s.readable
  match qs.find? (fun q => decide (s.css.rr < q)) with
  | some q => some q
  | none => qs.head?

/-- A FREE slot (R269): which of them is open (log entry 3). -/
def State.freeLedgerSlot (s : State) : Option Nat :=
  if s.rf (Reg.CSS_LCNT.at 0) 13 0 = 0 then none
  else
    let k := s.free % numSlots
    (List.range numSlots).findSome? (fun i => let n := (i + k) % numSlots; if (s.slot n).st = 0 then some n else none)

/-- The first four checks of R280, by their status. -/
def State.refuses (s : State) (l : Slot) (r : RingPair) : Option Nat :=
  let c := s.sub l.subch
  if s.fenced l.pid then some 0x14
  else if c.st = .disabled ∨ c.world != r.world then some 0x11
  else if !c.world ∧ nfld c.auth l.pid l.pid = 0 then some 0x10
  else if c.queue.length ≥ nfld c.cfg 6 4 + 1 then some 0x13
  else if l.sqe / 2 ^ 63 ≠ 0 then some 0x15
  else none

/-- Check 5 of R280 and, where it passes, acceptance: ACCEPTED, in the queue of its subchannel. A read of host memory may
have to be answered first; the other checks are then made once more. -/
def State.acceptOp (s : State) (n : Nat) (first : Option Ccd) : State :=
  let a := nfld (s.slot n).sqe 62 24 * 32
  match s.readCcd n a [] none 0 first with
  | (s, .wait) => s
  | (s, .fail e) => s.endOp n e 0 0
  | (s, .ok c) =>
    match s.refuses (s.slot n) (s.ring (s.slot n).ring) with
    | some e => s.endOp n e 0 0
    | none =>
    let s := s.modOp n (fun o => { o with chain := [c], nread := 1, phase := .ready, got := [] })
    let s := s.moveSlot n 2 (fun l => l)
    let s := if (s.slot n).mirrored then s.sendMirror n 2 else s
    let sc := (s.slot n).subch
    let s := s.modSub sc (fun c => { c with queue := c.queue ++ [n], st := if c.st = .idle then .active else c.st })
    let s := s.writeSub sc
    if (s.sub sc).st = .aborting then s.endOp n 0x1D 0 0 else s

/-- An operation not begun, at its first CCD (R280). -/
def Op.start (a : Nat) : Op :=
  { at_ := a, chain := [], nread := 0, idx := 0, last := none, resid := 0, diff := false, path := 0xFF, redisp := 0, marked := false,
    phase := .fetch, ocause := 0, abort := false, got := [], peerOk := false, asked := false, out := 0, rep := (0, false, 0) }

/-- An SQ entry has been read: a slot is POSTED (R295) and the checks made (R280). -/
def State.postEntry (s : State) (q sqe : Nat) (f : Option FwdEntry) : State :=
  match s.freeLedgerSlot with
  | none => s
  | some n =>
    let r := s.ring q
    let s := s.took
    let l : Slot :=
      { Slot.empty with
        st := 0, mirrored := f.isSome, subch := nfld sqe 11 0, ring := q, pid := r.pid, world := r.world, sqe := sqe, pos := r.cqNext,
        sqPos := r.sqHead, peer := (f.map (·.dev)).getD 0, peerSlot := (f.map (·.slot)).getD 0, fgen := (f.map (·.gen)).getD 0,
        etc := s.clk.etc.toNat, bAddr := nfld sqe 62 24 * 32, bPath := 0xFF }
    let s := s.modRing q (fun r => { r with sqHead := (r.sqHead + 1) % 65536, cqNext := (r.cqNext + 1) % 65536, asked := false, got := none,
                                            fwds := r.fwds.drop 1 })
    let s := { s with css := { s.css with rr := q } }
    let s := s.moveSlot n 1 (fun _ => l)
    let s := s.setOp n (some (Op.start (match f with | some f => f.pa | none => nfld sqe 62 24 * 32)))
    match s.refuses l r with
    | some e => s.endOp n e 0 0
    | none => s.acceptOp n (f.map (·.ccd))

/-- SQ_ENTRY_READ (R269, R280): the CSS serves the ring pair whose turn it is. -/
def execSqEntryRead (s : State) : Answer :=
  .next (if !s.cssRuns ∨ s.freeLedgerSlot.isNone then s
    else match s.nextRing with
      | none => s
      | some q =>
        let r := s.ring q
        if 0x500 ≤ q then
          (match r.fwds with
           | [] => s
           | f :: _ => (s.postEntry q f.sqe (some f)).sweep)
        else
          let a := r.sqBase + r.sqHead % r.sqSize * 8
          match r.got with
          | some (.bytes bs) => (s.postEntry q (leNat bs) none).sweep
          | some (.fail _) => ((s.modRing q (fun r => { r with got := none, asked := false })).ringFault q).sweep
          | none =>
            if s.isHost a then (s.modRing q (fun r => { r with asked := true })).hostRead (fnOfRing q) (.ring q) a 8
            else match s.fabricRead r.tag a 8 with
              | (s, .ok bs) => (s.postEntry q (leNat bs) none).sweep
              | (s, .error _) => (s.ringFault q).sweep)

/-- An operation goes on after an answer from outside the device. -/
def State.resumeOp (s : State) (n : Nat) : State :=
  match s.op? n with
  | none => s
  | some o =>
    let sc := (s.slot n).subch
    if (s.slot n).st = 1 then (s.acceptOp n none).sweep
    else match o.phase with
      | .fetch => (s.nextStep n o.at_).sweep
      | .begun => (s.runStep sc n).sweep
      | .redispatch _ => (s.redispatch sc).sweep
      | _ => s

/-- The answer of a read outside the device reaches its operation or ring pair (R282, R409). -/
def State.extAnswer (s : State) (who : ReadFor) (r : ExtRes) : State :=
  match who with
  | .op n a k => (s.modOp n (fun o => { o with got := gotPut a k r o.got })).resumeOp n
  | .ring q => s.modRing q (fun k => { k with got := some r })
  | .core _ _ => s
  | .back d t =>
    s.sendTo { vl := 1, ty := 0, dst := d, src := s.devIndex, tag := t,
               info := match r with | .bytes _ => 0 | .fail e => if e = 0x18 then 2 else 1,
               payload := pad64 (match r with | .bytes bs => bs | .fail _ => []) }

/-! ## CSS.CMD -/

/-- Is a subchannel record refused as BADRECORD (R261)? -/
def subRecordBad (b : List Byte) : Bool :=
  let u (o n : Nat) : Nat := leNat ((b.drop o).take n)
  let cfg := u 0 4
  let p (i : Nat) : Nat := nfld (u 4 4) (8 * i + 7) (8 * i)
  decide (cfg % 2 = 0) || (cfg ||| 0x0F0FFF73) != 0x0F0FFF73 || u 0x18 4 == 0 || u 0x18 4 / 2 ^ 24 != 0 || u 0x1C 4 != 0 ||
  u 0x30 16 != 0 || p 0 == 0xFF || (List.range 4).any (fun i => p i != 0xFF && decide (0x60 ≤ p i))

/-- Is a ring context record refused as BADRECORD (R265)? -/
def ringRecordBad (b : List Byte) : Bool :=
  let u (o n : Nat) : Nat := leNat ((b.drop o).take n)
  let cfg := u 0 4
  let sl := nfld cfg 19 16
  let cl := nfld cfg 23 20
  decide (cfg % 2 = 0) || (cfg ||| 0x00FF3F03) != 0x00FF3F03 || decide (sl < 4 ∨ 12 < sl ∨ cl < sl ∨ 12 < cl) ||
  u 8 8 % (8 * 2 ^ sl) != 0 || u 0x10 8 % (32 * 2 ^ cl) != 0 || leNat (b.drop 0x1C) != 0

/-- SC_ENABLE (R261): its result. -/
def State.scEnable (s : State) (w : Bool) (t : Nat) : State × Nat :=
  let c := s.sub t
  if c.st ≠ .disabled then (s, if c.world ∧ !w then 5 else 1)
  else match s.fabricRead cssTag (s.subRecord t) 64 with
    | (s, .error e) =>
      (s.record { bank := 34, unit := 0x01, code := recCode e, sev := .contained, addr := some (s.subRecord t), tag := some cssTag, misc0 := t }, 4)
    | (s, .ok b) =>
      let u (o n : Nat) : Nat := leNat ((b.drop o).take n)
      let cfg := u 0 4
      let paths := u 4 4
      if nfld cfg 1 1 = 1 ∧ !w then (s, 5)
      else if subRecordBad b then (s, 2)
      else
        let s := s.modSub t (fun _ =>
          { st := .idle, cfg := cfg, paths := paths, auth := u 8 8, devaddr := u 0x10 8, timeout := u 0x18 4, idx := 0,
            gen := (u 0x24 2 + 1) % 65536, done := u 0x28 4, ended := u 0x2C 4, queue := [], drain := none, lost := false })
        (s.writeSub t, 0)

/-- The world rule of R261 for a subchannel that is enabled. -/
def SubCh.denies (c : SubCh) (w : Bool) : Bool := c.st != .disabled && c.world && !w

/-- SC_DISABLE (R262): its result. -/
def State.scDisable (s : State) (w : Bool) (t : Nat) : State × Nat :=
  let c := s.sub t
  if c.denies w then (s, 5)
  else if c.st = .idle ∨ (c.st = .nopath ∧ c.queue.isEmpty) then (((s.modSub t (fun c => { c with st := .disabled })).purgeSub t).writeSub t, 0)
  else (s, 1)

/-- SC_MIGRATE_DRAIN and SC_MIGRATE_FORCE (R262, R263, R287): the result; none: a drain waits. -/
def State.scMigrate (s : State) (w : Bool) (t pidx : Nat) (force : Bool) : State × Option Nat :=
  let c := s.sub t
  if c.denies w then (s, some 5)
  else if c.st ≠ .idle ∧ c.st ≠ .active then (s, some 1)
  else if !s.pathUp (c.pathAt pidx) then (s, some 2)
  else match s.handedSlot t, force with
    | some _, false => ((s.modSub t (fun c => { c with st := .migrating, drain := some (pidx, true) })).writeSub t, none)
    | some (n, _), true => (((s.switchTo t pidx).interrupt n 0x42).redispatch t, some 0)
    | none, _ => ((s.switchTo t pidx).redispatch t, some 0)

/-- SC_ABORT ends what has not been handed off and asks for the withdrawal of the step that has (R290). -/
def State.abortOp (s : State) (n : Nat) : State :=
  match s.op? n with
  | none => s
  | some o =>
    match o.phase with
    | .handed | .backWrite => s.modOp n (fun o => { o with abort := true })
    | .redispatch st => s.endOp n st o.count 0
    | _ => s.endOp n 0x1D o.fullResid 0

/-- SC_ABORT (R262, R290): the result; none: it waits for a report. -/
def State.scAbort (s : State) (w : Bool) (t : Nat) : State × Option Nat :=
  let c := s.sub t
  if c.denies w then (s, some 5)
  else if c.st ≠ .active ∧ c.st ≠ .nopath then (s, some 1)
  else
    let s := (s.modSub t (fun c => { c with st := .aborting })).writeSub t
    if c.queue.isEmpty then ((s.modSub t (fun c => { c with st := .nopath })).writeSub t, some 0)
    else (c.queue.foldl (fun s n => s.abortOp n) s, none)

/-- RP_ENABLE (R265): its result. A pair that is enabled and not fenced answers BADSTATE. -/
def State.rpEnable (s : State) (w : Bool) (q : Nat) : State × Nat :=
  let r := s.ring q
  if r.enabled ∧ r.world ∧ !w then (s, 5)
  else if r.enabled ∧ !r.fenced then (s, 1)
  else match s.fabricRead cssTag (s.ringRecord q) 64 with
    | (s, .error _) => (s, 4)
    | (s, .ok b) =>
      let u (o n : Nat) : Nat := leNat ((b.drop o).take n)
      let cfg := u 0 4
      if nfld cfg 1 1 = 1 ∧ !w then (s, 5)
      else if ringRecordBad b then (s, 2)
      else
        ((s.dropRingReads q).modRing q (fun r =>
          { RingPair.empty with enabled := true, cfg := cfg, intr := u 4 4, sqBase := u 8 8, cqBase := u 0x10 8, markskip := u 0x18 4,
                                reserved := r.reserved }), 0)

/-- RP_DISABLE and RP_FLUSH (R263): the result; none: it waits for the pair's operations. by: 1 CSS.CMD, 2 RPCMD. -/
def State.rpClose (s : State) (w : Bool) (q : Nat) (flush : Bool) (byWhom : Nat) : State × Option Nat :=
  let r := s.ring q
  if r.enabled ∧ r.world ∧ !w then (s, some 5)
  else if !r.enabled ∨ r.closing ≠ 0 then (s, some 1)
  else
    let s := s.modRing q (fun r => { r with closing := byWhom })
    let s := if flush then s.css.ops.foldl (fun s e => if (s.slot e.1).ring = q then s.endReset e.1 else s) s else s
    (s.checkClosed q, none)

/-- The operation that CSS.CMD names (R263). -/
def State.runCmd (s : State) (w : Bool) : State :=
  let c := s.reg Reg.CSS_CMD.at
  let t := fld c 11 0
  let fin (x : State × Nat) : State := x.1.cmdDone x.2
  let wait (x : State × Option Nat) : State := match x.2 with | some r => x.1.cmdDone r | none => x.1
  match fld c 23 20 with
  | 0x1 => fin (s.scEnable w t)
  | 0x2 => fin (s.scDisable w t)
  | 0x3 => wait (s.scMigrate w t (fld c 17 16) false)
  | 0x4 => wait (s.scMigrate w t (fld c 17 16) true)
  | 0x5 => wait (s.scAbort w t)
  | 0x8 => if t > 0x5FF then s.cmdDone 5 else fin (s.rpEnable w t)
  | 0x9 => if t > 0x5FF then s.cmdDone 5 else wait (s.rpClose w t false 1)
  | 0xA => if t > 0x5FF then s.cmdDone 5 else wait (s.rpClose w t true 1)
  | _ => s.cmdDone 7

/-- A write of CSS.CMD (R263): ignored while GO = 1. -/
def State.writeCmd (s : State) (w : Bool) (v : W32) : State :=
  if s.rb Reg.CSS_CMD.at 31 then s
  else
    let s := s.writeFields w Reg.CSS_CMD.at v
    if bit v 31 then (s.runCmd w).sweep else s

/-- The CSS.CMD word of an operation. -/
def cmdWord (op pidx t : Nat) : W32 := BitVec.ofNat 32 (2 ^ 31 + op * 2 ^ 20 + pidx * 2 ^ 16 + t)

/-- A requester's write of CSS.CMD. -/
def State.command (s : State) (r : Requester) (v : W32) : State := s.byReq r Reg.CSS_CMD.at (fun s => s.writeCmd (s.worldOf r) v)

/-- SC_ENABLE (R261, R263). -/
def execScEnable (r : Requester) (t : BitVec 12) (s : State) : Answer := .next (s.command r (cmdWord 0x1 0 t.toNat))
/-- SC_DISABLE (R263). -/
def execScDisable (r : Requester) (t : BitVec 12) (s : State) : Answer := .next (s.command r (cmdWord 0x2 0 t.toNat))
/-- SC_MIGRATE_DRAIN (R287). -/
def execScMigrateDrain (r : Requester) (t : BitVec 12) (pidx : BitVec 2) (s : State) : Answer :=
  .next (s.command r (cmdWord 0x3 pidx.toNat t.toNat))
/-- SC_MIGRATE_FORCE (R287). -/
def execScMigrateForce (r : Requester) (t : BitVec 12) (pidx : BitVec 2) (s : State) : Answer :=
  .next (s.command r (cmdWord 0x4 pidx.toNat t.toNat))
/-- SC_ABORT (R290). -/
def execScAbort (r : Requester) (t : BitVec 12) (s : State) : Answer := .next (s.command r (cmdWord 0x5 0 t.toNat))
/-- RP_ENABLE (R265). -/
def execRpEnable (r : Requester) (t : BitVec 12) (s : State) : Answer := .next (s.command r (cmdWord 0x8 0 t.toNat))
/-- RP_DISABLE (R263). -/
def execRpDisable (r : Requester) (t : BitVec 12) (s : State) : Answer := .next (s.command r (cmdWord 0x9 0 t.toNat))
/-- RP_FLUSH (R263). -/
def execRpFlush (r : Requester) (t : BitVec 12) (s : State) : Answer := .next (s.command r (cmdWord 0xA 0 t.toNat))
/-- BADOP (R263): an OP that the table does not assign. Any other OP is the row of its own name. -/
def execBadop (r : Requester) (op : BitVec 4) (t : BitVec 12) (s : State) : Answer :=
  .next (if op.toNat ∈ [1, 2, 3, 4, 5, 8, 9, 10] then s else s.command r (cmdWord op.toNat 0 t.toNat))

/-! ## Steps -/

/-- NOP (R273). -/
def execCcdNop (sc : Nat) (s : State) : Answer := .next (s.ccdStep sc 0x0)
/-- BRANCH (R273). -/
def execBranch (sc : Nat) (s : State) : Answer := .next (s.ccdStep sc 0x1)
/-- WAIT (R273). -/
def execCcdWait (sc : Nat) (s : State) : Answer := .next (s.ccdStep sc 0x2)
/-- READ (R273, R317). -/
def execCcdRead (sc : Nat) (s : State) : Answer := .next (s.ccdStep sc 0x8)
/-- WRITE (R273, R315). -/
def execCcdWrite (sc : Nat) (s : State) : Answer := .next (s.ccdStep sc 0x9)
/-- CONTROL (R273). -/
def execControl (sc : Nat) (s : State) : Answer := .next (s.ccdStep sc 0xA)
/-- SENSE (R273, R332). -/
def execSense (sc : Nat) (s : State) : Answer := .next (s.ccdStep sc 0xB)

/-- WAIT_EXPIRY (R273): the ETC has reached the time of a WAIT step. -/
def execWaitExpiry (sc : Nat) (s : State) : Answer :=
  .next (match s.headOp sc with
    | some (n, o) =>
      match o.phase with
      | .wait t => if t ≤ s.clk.etc.toNat ∧ !s.cssStopped then (s.endStep n 0 false 0).sweep else s
      | _ => s
    | none => s)

/-! ## Timeouts -/

/-- The timeout of a handed-off step (R283, R287, R288, R290). -/
def State.timeoutStep (s : State) (sc : Nat) : State :=
  match s.handedSlot sc with
  | none => s
  | some (n, o) =>
    let s := s.bumpGen sc
    match (s.sub sc).st with
    | .aborting => s.endOp n 0x40 o.count 0
    | .migrating => (s.interrupt n 0x40).drainEnd sc 3
    | _ => (s.interrupt n 0x40).redispatch sc

/-- STEP_TIMEOUT (R283): TIMEOUT µs have passed since the hand-off, or since SC_ABORT (R290). -/
def execStepTimeout (sc : Nat) (s : State) : Answer := .next (s.timeoutStep sc).sweep

/-- NOPATH_TIMEOUT (R289): every held operation ends. -/
def execNopathTimeout (sc : Nat) (s : State) : Answer :=
  .next (if (s.sub sc).st ≠ .nopath then s
    else ((s.sub sc).queue.foldl (fun s n =>
      match s.op? n with
      | none => s
      | some o => match o.phase with
        | .redispatch _ => s.endOp n 0x41 o.count 0
        | _ => s.endOp n 0x1E o.fullResid 0) s).sweep)

/-- COALESCING_TIMEOUT (R270): COALUS µs after the first record since the last raise. -/
def execCoalescingTimeout (q : Nat) (s : State) : Answer := .next (if (s.ring q).since = 0 then s else s.raiseRing q)

/-! ## Paths -/

/-- A fence reaches one subchannel whose current path it is (R262, R287-R290). -/
def State.fenceSub (s : State) (sc status : Nat) : State :=
  let c := s.sub sc
  let h := s.handedSlot sc
  let cut (s : State) : State := match h with | some (n, _) => s.interrupt n status | none => s
  let leave (s : State) (res : Option Nat) : State :=
    let s := match s.nextPath c c.idx with
      | some i => (cut (s.switchTo sc i)).redispatch sc
      | none =>
        let s := s.modSub sc (fun c => { c with st := .nopath, drain := none })
        let s := if h.isSome then s.bumpGen sc else s
        (cut (s.writeSub sc)).writeSub sc
    match res with | some r => s.cmdDone r | none => s
  match c.st with
  | .idle | .active => leave s none
  | .migrating =>
    match c.drain with
    | some (i, true) => if s.pathUp (c.pathAt i) then ((cut (s.switchTo sc i)).cmdDone 0).redispatch sc else leave s (some 2)
    | _ => leave s (some 2)
  | .aborting => match h with | some (n, o) => (s.bumpGen sc).endOp n status o.count 0 | none => s
  | _ => s

/-- A path is fenced (R52, R258): STATE, CAUSE, and every subchannel on it. peer: the fence comes from loss of the Relay peer (R297). -/
def State.fencePath (s : State) (p cause : Nat) (peer : Bool) : State :=
  let st := Reg.ADPT_PATHSTAT.at p
  let s := ((s.setRf st 1 0 2).setRf st 15 8 cause).setRb (Reg.ADPT_PATHCTL.at p) 8 true
  (s.css.subs.foldl (fun s e =>
    let c := s.sub e.1
    if c.st = .disabled then s
    else
      let s := match c.drain with
        | some (i, _) => if c.pathAt i = p then s.modSub e.1 (fun c => { c with drain := some (i, false) }) else s
        | none => s
      if c.path = p then s.fenceSub e.1 (if peer then 0x44 else 0x41) else s) s).sweep

/-- May a fault or software fence a path: is it ONLINE or RECOVERING (R258)? -/
def State.canFence (s : State) (p : Nat) : Bool := s.pathState p == 1 || s.pathState p == 3

/-- The path becomes ONLINE, and subchannels in NOPATH that list it migrate to it (R262, R289, R303). -/
def State.onlinePath (s : State) (p : Nat) : State :=
  let s := s.setRf (Reg.ADPT_PATHSTAT.at p) 1 0 1
  (s.css.subs.foldl (fun s e =>
    let c := s.sub e.1
    if c.st ≠ .nopath then s
    else match (List.range 4).find? (fun i => c.pathAt i == p) with
      | some i => (s.switchTo e.1 i).redispatch e.1
      | none => s) s).sweep

/-- The record of an adapter fault (R335), marked as fenced. DESIGN CHOICE (log entry 43): a protocol error, for which R335 gives no UNIT, writes
none. -/
def State.adapterRecord (s : State) (p : Nat) (why : PathFault) : State :=
  let e (u c : Nat) : ErrRec :=
    { bank := 34, unit := u, code := c, sev := .contained, fence := true,
      tag := some { world := false, pid := 0, cls := 1, src := p } }
  match why with
  | .link => s.record (e 0x40 0x07)
  | .buffer => s.record (e 0x42 0x02)
  | .logic => s.record (e 0x43 0x05)
  | .protocol => s
  | .corrected => s.record { e 0x41 0x01 with sev := .corrected, fence := false }

/-- CAUSE of a fault (PATHSTAT). -/
def pathCause : PathFault → Nat
  | .buffer | .logic => 2 | .link => 3 | .protocol => 4 | .corrected => 0

/-- PATH_FENCE (R258, R333, R335): a path that is ONLINE or RECOVERING is fenced; then the fault is recorded (R50). -/
def execPathFence (p : Nat) (why : PathFault) (s : State) : Answer :=
  .next (if p ≥ 0x60 then s
    else
      let s := if s.canFence p ∧ why ≠ .corrected then s.fencePath p (pathCause why) false else s
      if p < 0x4C then s.adapterRecord p why else s)

/-- May a Relay peer path be ONLINE (R381): bound, its port up, and the peer not lost? -/
def State.peerPathOk (s : State) (p : Nat) : Bool :=
  let b := s.reg (Reg.RELAY_PEERPATH.at (p - 0x4C))
  bit b 31 && (s.portState (fld b 10 8) == 3 || s.portState (fld b 10 8) == 4) && !(fld b 4 0 ∈ s.relay.lost)

/-- A write of PATHCTL (R258, R303). -/
def State.writePathCtl (s : State) (p : Nat) (v : W32) : State :=
  let ctl := Reg.ADPT_PATHCTL.at p
  let st := Reg.ADPT_PATHSTAT.at p
  let state := s.pathState p
  let s :=
    if bit v 0 then
      (let s := s.setRb ctl 0 true
       if state ≠ 0 then s
       else if isSd p then ((s.setRf st 1 0 3).modAdapter p (fun a => { a with fresh := [] })).startSd p
       else s.setRf st 1 0 3)
    else if state = 1 ∨ s.rf st 31 16 ≠ 0 then s
    else ((s.setRb ctl 0 false).setRb ctl 8 false).setRf st 1 0 0
  if bit v 8 ∧ (state = 1 ∨ (state = 3 ∧ s.pathState p = 3)) then s.fencePath p 1 false else s

/-- PATHCTL_FENCE (R258): a write of FENCE = 1 that leaves EN as it is. -/
def execPathctlFence (r : Requester) (p : Nat) (s : State) : Answer :=
  .next (if p < 0x60 then s.byReq r (Reg.ADPT_PATHCTL.at p) (fun s =>
    s.writePathCtl p (BitVec.ofNat 32 (0x100 + s.rf (Reg.ADPT_PATHCTL.at p) 0 0))) else s)

/-- PATHCTL_EN (R303). -/
def execPathctlEn (r : Requester) (p : Nat) (en : Bool) (s : State) : Answer :=
  .next (if p < 0x60 then s.byReq r (Reg.ADPT_PATHCTL.at p) (fun s => s.writePathCtl p (BitVec.ofNat 32 (b2n en))) else s)

/-- The adapter's side of a re-established link (R319, R333): a CAN controller leaves bus-off with its counters clear (ISO 11898-1), and an
Ethernet or T1S link changes state. -/
def State.linkBack (s : State) (p : Nat) : State :=
  if isCan p then (if s.rf (Reg.ADPT_CANSTAT.at p) 1 0 = 2 then s.canClear p else s)
  else if isEth p then s.adapterEvent p 2
  else s

/-- PATH_ONLINE (R303, R333, R381): a RECOVERING path's adapter has re-established its link; of a smart-driver port, each enabled chip select has
answered its NOP. -/
def execPathOnline (p : Nat) (s : State) : Answer :=
  .next (if p < 0x60 ∧ s.pathState p = 3 ∧ (p < 0x4C ∨ s.peerPathOk p) ∧ (!isSd p ∨ s.sdReady p) then (s.linkBack p).onlinePath p else s)

/-! ## Enable, log and scrub -/

/-- STAT.RUN follows EN and STOPPED. -/
def State.refreshRun (s : State) : State := s.setRb Reg.CSS_STAT.at 0 (s.rb Reg.CSS_CTL.at 0 && !s.cssStopped)

/-- A write of CSS.CTL (R292, R305): EN = 1 runs format or recover first after a reset; it is ignored while LBASE lies outside the
populated QDR window or MODE is 2 or 3. -/
def State.writeCtl (s : State) (w : Bool) (v : W32) : State :=
  let ctl := Reg.CSS_CTL.at
  let en := s.rb ctl 0
  let s := (s.writeFields w ctl v).setRb ctl 0 en
  if !bit v 0 then (s.setRb ctl 0 false).refreshRun
  else
    let s := s.setRb Reg.CSS_LSTAT.at 30 (!s.lbaseOk)
    let mode := s.rf Reg.CSS_LCTL.at 17 16
    if !s.lbaseOk ∨ 2 ≤ mode then s
    else
      let s := (s.setRb ctl 0 true).refreshRun
      if en ∨ !s.css.fresh then s
      else
        let s := { s with css := { s.css with fresh := false, base := s.lbase } }
        if mode = 0 then s.formatLedger else s.recoverLedger

/-- CSS_ENABLE (R305). -/
def execCssEnable (r : Requester) (s : State) : Answer :=
  .next (s.byReq r Reg.CSS_CTL.at (fun s => s.writeCtl (s.worldOf r) (setFld (s.reg Reg.CSS_CTL.at) 0 0 1)))

/-- CSS_DISABLE (R305). -/
def execCssDisable (r : Requester) (s : State) : Answer :=
  .next (s.byReq r Reg.CSS_CTL.at (fun s => s.writeCtl (s.worldOf r) (setFld (s.reg Reg.CSS_CTL.at) 0 0 0)))

/-- A write of RLOG_HEAD (R300): waiting entries are written. -/
def State.writeLogHead (s : State) (w : Bool) (v : W32) : State := (s.writeFields w Reg.CSS_RLOG_HEAD.at v).workLog

/-- A write of RLOGCFG (R302): a stopped log resumes. -/
def State.writeLogCfg (s : State) (w : Bool) (v : W32) : State :=
  let s := s.writeFields w Reg.CSS_RLOGCFG.at v
  { s with css := { s.css with logStop := false } }.workLog

/-- RLOG_HEAD_WRITE (R300). -/
def execRlogHeadWrite (r : Requester) (v : W32) (s : State) : Answer :=
  .next (s.byReq r Reg.CSS_RLOG_HEAD.at (fun s => s.writeLogHead (s.worldOf r) v))
/-- RLOGCFG_WRITE (R302). -/
def execRlogcfgWrite (r : Requester) (v : W32) (s : State) : Answer :=
  .next (s.byReq r Reg.CSS_RLOGCFG.at (fun s => s.writeLogCfg (s.worldOf r) v))

/-- LEDGER_SCRUB (R312 UNIT 0x12): the slot's line is rewritten from the internal copy. -/
def execLedgerScrub (slot : Nat) (s : State) : Answer :=
  .next (if slot < numSlots ∧ !s.css.fresh then
    (s.writeSlot slot).record { bank := 34, unit := 0x12, code := 0x02, sev := .corrected, addr := some (s.slotAddr slot), tag := some cssTag, misc0 := slot }
  else s)

/-! ## Response timeouts -/

/-- An access of the CSS timed out: a write of a subchannel record loses the subchannel (R291), a slot's write is Fatal and a log write stops the
log (R302, R312), an access to a ring is a ring fault (R271), whose record not yet returned at that place goes to the log. -/
def State.cssTimeout (s : State) (t : AccessTag) (addr : Nat) : State :=
  if t = cssTag then
    if s.css.base ≤ addr ∧ addr < s.css.base + 0x80000 ∧ !s.css.fresh then
      s.record { bank := 34, unit := 0x11, code := 0x06, sev := .fatal, addr := some addr, tag := some t, misc0 := (addr - s.css.base) / 64 }
    else if s.logBase ≤ addr ∧ addr < s.logBase + s.logSize.getD 0 * 64 then
      { s with css := { s.css with logStop := true } }.record
        { bank := 34, unit := 0x14, code := 0x06, sev := .contained, addr := some addr, tag := some t }
    else match s.css.subs.find? (fun e => e.2.st != .disabled && s.subRecord e.1 / 64 == addr / 64) with
      | some e => (s.loseSub e.1 0x06).sweep
      | none => s
  else match s.css.rings.find? (fun e =>
      e.2.enabled && e.2.tag == t && ((decide (e.2.sqBase ≤ addr) && decide (addr < e.2.sqBase + e.2.sqSize * 8)) ||
        (decide (e.2.cqBase ≤ addr) && decide (addr < e.2.cqBase + e.2.cqSize * 32)))) with
    | none => s
    | some e =>
      let hit (l : Slot) : Bool :=
        l.ring == e.1 && decide (e.2.cqBase ≤ addr) && decide (e.2.cqBase + l.pos % e.2.cqSize * 32 = addr / 32 * 32)
      ((s.orphanWhere (fun _ l => hit l) 1).ringFault e.1).sweep

/-- RESPONSE_TIMEOUT (R241, UNIT 0x07): Fatal; for an access of the CSS, its own handling follows. -/
def execResponseTimeout (k : Nat) (t : AccessTag) (addr : Nat) (s : State) : Answer :=
  .next (
    match s.decode addr with
    | .tier ctrl off =>
      if ctrl = k then
        (s.record
          { bank := ctrlBank k, unit := 0x07, code := 0x06, sev := .fatal, addr := some addr, tag := some t,
            misc0 := s.localAddr ctrl off }).cssTimeout t addr
      else s
    | _ => s)

/-! ## Partition fences -/

/-- A partition is fenced (R54, R304): the operations of its ring pairs end and go to the log with OCAUSE 4, as do its ENDED slots (R301). -/
def State.fencePartition (s : State) (pid : Nat) : State :=
  let mine (l : Slot) : Bool := l.pid == pid
  let held := (s.css.rings.map (fun e => e.2.held.filter (fun h => mine (s.slot h.slot)))).flatten
  let s := s.css.rings.foldl (fun s e => s.modRing e.1 (fun r => { r with held := r.held.filter (fun h => !mine (s.slot h.slot)) })) s
  let s := ((s.markOps mine 4).sweep).orphanWhere (fun _ l => mine l) 4
  let s := held.foldl (fun s h => (s.cqWritten (s.slot h.slot).ring h.pos).checkClosed (s.slot h.slot).ring) s
  held.foldl (fun s h => if (s.slot h.slot).ring < 0x400 then s.showHeld ((s.slot h.slot).ring / 4) else s) s

/-- Every partition whose PFENCE bit a change has set is fenced. -/
def State.fenceNew (s before : State) : State :=
  ((List.range' 1 63).filter (fun p => s.fenced p && !before.fenced p)).foldl (fun s p => s.fencePartition p) s

end Sys2Proof.Machine
end

