-- ==== Sys2Proof/Machine/Adapter.lean ====
section
/-! DEFINITION. The vehicle I/O adapters (chapter Vehicle I/O Adapters): reports (R286, R315, R332), received frames (R316-R318, R322, R325), sent frames
(R314, R319, R323, R324), gate cycles (R324), smart-driver responses (R330, R331), link loss and reset (R333). -/
namespace Sys2Proof.Machine

/-! ## Delivering data to a step -/

/-- Is this the step in progress that a report names (R286)? -/
def State.inProgress (s : State) (p n : Nat) : Option Op :=
  match s.handedSlot (s.slot n).subch with
  | some (m, o) => if m = n ∧ o.path = p then some o else none
  | none => none

/-- Data that a device delivered to a step goes to its buffers, and the step is reported (R276, R282). The bytes that a failing step wrote are
undefined (R285): free values. A forwarded step's back-writes are answered first (R384). -/
def State.deliverData (s : State) (n : Nat) (bs : List Byte) : State :=
  match s.op? n with
  | none => s
  | some o =>
    let m := o.count
    let excess := decide (m < bs.length)
    let len := min m bs.length
    let short := match o.chain.getLast? with | some c => !c.shortOk | none => true
    let put (s : State) (bs : List Byte) : State × Option Nat := s.scatter n (s.slot n).mirrored (chainPieces o.last o.chain) bs
    let (s, r) :=
      if (put s (bs.take m)).2 = none ∧ !((len != m || excess) && short) then put s (bs.take m)
      else (let (s, fb) := s.freeBytes len; put s fb)
    match r with
    | some e => s.deviceFail n e 0
    | none =>
      match s.op? n with
      | none => s
      | some o =>
        if o.out ≠ 0 then
          let s := s.modAdapter o.path (fun a => { a with steps := a.steps.filter (fun st => st.slot != n) })
          s.modOp n (fun o => { o with phase := .backWrite, rep := (len, excess, 0) })
        else s.deviceDone n len excess 0

/-! ## Stored frames -/

/-- The size of an adapter's receive store (R318): frames for CAN, bytes otherwise. -/
def storeSize (p : Nat) : Nat :=
  if isCan p then 256 else if p < 0x28 then 32 * 1024 else if p < 0x38 then 256 * 1024 else 512 * 1024

/-- Has the store room for an image? -/
def State.storeRoom (s : State) (p len : Nat) : Bool :=
  let st := (s.adapter p).store
  if isCan p then decide (st.length < 256)
  else decide ((st.map (fun x => x.2.length)).foldl (· + ·) 0 + len ≤ storeSize p)

/-- The oldest frame stored for a subchannel, taken out of the store. -/
def takeFrame (sub : Nat) : List (Nat × List Byte) → Option (List Byte × List (Nat × List Byte))
  | [] => none
  | x :: t => if x.1 = sub then some (x.2, t) else (takeFrame sub t).map (fun y => (y.1, x :: y.2))

/-- A frame image for a subchannel (R316, R318): to a READ that waits, which takes an older stored one first; else into the store, else dropped. -/
def State.storeFrame (s : State) (p sub : Nat) (image : List Byte) : State :=
  let a := s.adapter p
  match a.steps.find? (fun st => st.sub == sub && st.cmd == 8 && (s.stepError p st).isNone) with
  | some st =>
    (match takeFrame sub a.store with
     | some (b, rest) => (s.modAdapter p (fun a => { a with store := rest ++ [(sub, image)] })).deliverData st.slot b
     | none => s.deliverData st.slot image)
  | none =>
    if (a.store.filter (fun x => x.1 == sub)).length ≥ max 1 (s.rf (Reg.ADPT_ACTL.at p) 15 8) ∨ !s.storeRoom p image.length then
      (s.countUp (Reg.ADPT_RXDROP.at p) 32 1).adapterEvent p 0
    else s.modAdapter p (fun a => { a with store := a.store ++ [(sub, image)] })

/-! ## CAN -/


/-- TEC and REC give the error state (CANSTAT, ISO 11898-1). -/
def State.canState (s : State) (p : Nat) : State :=
  let a := Reg.ADPT_CANSTAT.at p
  let was := s.rf a 1 0
  let now := if s.rf a 15 8 ≥ 128 ∨ s.rf a 23 16 ≥ 128 then 1 else 0
  if was = 2 then s
  else
    let s := s.setRf a 1 0 now
    if now = 1 ∧ was = 0 then s.adapterEvent p 3 else s

/-- One failed transmission (ISO 11898-1): TEC up by 8, but not for a missing acknowledge while error passive. true: bus-off. -/
def State.canTxError (s : State) (p lec : Nat) : State × Bool :=
  let a := Reg.ADPT_CANSTAT.at p
  let s := s.setRf a 6 4 lec
  let tec := s.rf a 15 8 + (if lec = 3 ∧ s.rf a 1 0 = 1 then 0 else 8)
  if tec ≥ 256 then ((s.setRf a 15 8 255).setRf a 1 0 2, true) else ((s.setRf a 15 8 tec).canState p, false)

/-- Failed transmissions in turn. -/
def State.canTxErrors (s : State) (p : Nat) : List (BitVec 3) → State × Bool
  | [] => (s, false)
  | e :: t =>
    match s.canTxError p e.toNat with
    | (s, true) => (s, true)
    | (s, false) => s.canTxErrors p t

/-- The order of a CAN frame on the bus (R314): its arbitration field as a number, dominant bits 0. -/
def canOrder (w0 : Nat) : Nat :=
  let id := nfld w0 28 0
  if nfld w0 29 29 = 1 then nfld id 28 18 * 2 ^ 21 + 2 ^ 20 + 2 ^ 19 + nfld id 17 0 * 2 + nfld w0 30 30
  else nfld id 10 0 * 2 ^ 21 + nfld w0 30 30 * 2 ^ 20

/-- The first step of the lowest arbitration field. -/
def firstCan : List AdStep → Option AdStep
  | [] => none
  | x :: t => match firstCan t with
    | none => some x
    | some y => if canOrder y.canFrame.1 < canOrder x.canFrame.1 then some y else some x

/-- The image of a received CAN frame (R320): the fields of another format than its own are zero. -/
def canImage (w0 w1 af ts : Nat) (data : List Byte) : List Byte :=
  let fmt := nfld w1 31 30
  let flags := (if fmt = 0 then nfld w0 30 30 * 2 ^ 30 else 0) + (if fmt = 1 then nfld w0 31 31 * 2 ^ 31 else 0)
  let xl := if fmt = 2 then w1 % 2 ^ 16 + nfld w1 28 28 * 2 ^ 28 else if fmt = 1 then nfld w1 29 29 * 2 ^ 29 else 0
  leBytes 4 (nfld w0 29 0 + flags) ++ leBytes 4 (xl + data.length * 2 ^ 16 + fmt * 2 ^ 30) ++ leBytes 4 (if fmt = 2 then af else 0) ++ leBytes 4 ts ++ data

/-- Is a received CAN frame of a format that CANCFG enables and a length it allows (R318, R320)? -/
def State.canAccepts (s : State) (p w1 len : Nat) : Bool :=
  let fmt := nfld w1 31 30
  let cfg := s.reg (Reg.ADPT_CANCFG.at p)
  fmt != 3 && (fmt != 1 || bit cfg 0) && (fmt != 2 || bit cfg 1) && canLenOk fmt len

/-- The lowest-numbered enabled subchannel on a path that a predicate on DEVADDR accepts (R316). -/
def State.matchSub (s : State) (p : Nat) (ok : Nat → Bool) : Option Nat :=
  (s.css.subs.find? (fun e => e.2.st != .disabled && e.2.path == p && ok e.2.devaddr)).map (fun e => e.1)

/-- A received CAN frame (R316-R318). -/
def State.canReceive (s : State) (p w0 w1 af : Nat) (data : List Byte) (ts : W64) (bad : Nat) : State :=
  let a := Reg.ADPT_CANSTAT.at p
  if bad ≠ 0 ∨ !s.canAccepts p w1 data.length then
    let s := s.setRf a 6 4 (if bad = 0 then 2 else bad)
    ((s.setRf a 23 16 (min 255 (s.rf a 23 16 + 1))).canState p).countUp (Reg.ADPT_RXBAD.at p) 32 1
  else
    let rec' := s.rf a 23 16
    let s := if rec' > 127 then (s.took.setRf a 23 16 (119 + s.free % 9)).canState p
      else (s.setRf a 23 16 (rec' - 1)).canState p
    match s.matchSub p (fun d => canMatches d w0) with
    | none => s.countUp (Reg.ADPT_RXUNCL.at p) 32 1
    | some sub => s.storeFrame p sub (canImage w0 w1 af ts.toNat data)

/-! ## Ethernet and 10BASE-T1S -/

/-- The fields of an Ethernet frame: tagged, VID, EtherType, bytes before the payload. -/
def ethFields (f : List Byte) : Bool × Nat × Nat × Nat :=
  let be (o : Nat) : Nat := (f.getD o 0).toNat * 256 + (f.getD (o + 1) 0).toNat
  if be 12 = 0x8100 then (true, be 14 % 4096, be 16, 18) else (false, 0, be 12, 14)

/-- The MAC address of a path, as a number whose bits [7:0] are the first byte on the wire (ETHMAC). -/
def State.ethMac (s : State) (p : Nat) : Nat :=
  (s.reg (Reg.ADPT_ETHMAC_LO.at (p - 0x18))).toNat + s.rf (Reg.ADPT_ETHMAC_HI.at (p - 0x18)) 15 0 * 2 ^ 32

/-- A template's destination address. -/
def State.tplDa (s : State) (p t : Nat) : Nat :=
  (s.reg (Reg.ADPT_TPL_DA_LO.at (p - 0x18) t)).toNat + s.rf (Reg.ADPT_TPL_DA_HI.at (p - 0x18) t) 15 0 * 2 ^ 32

/-- The six bytes of an address on the wire: most significant first. -/
def macBytes (a : Nat) : List Byte := beBytes 6 a

/-- A destination as a number. -/
def daOf (f : List Byte) : Nat := leNat (f.take 6).reverse

/-- Is the destination the MAC's own address, broadcast or multicast (R322)? -/
def State.ethForUs (s : State) (p : Nat) (f : List Byte) : Bool :=
  daOf f == s.ethMac p || (f.getD 0 0).toNat % 2 == 1

/-- Is a received frame malformed (R318, R322): double tag, MAC control, too short or too long? -/
def ethBad (f : List Byte) : Bool :=
  let (tag, _, ety, h) := ethFields f
  decide (f.length < 14) || (tag && ety == 0x8100) || ety == 0x8808 || decide (1500 + h < f.length)

/-- Does a frame match a valid template (R322)? secy: the SecY it came through, 0 for none. -/
def State.tplMatches (s : State) (p t secy : Nat) (f : List Byte) : Bool :=
  let (tag, vid, ety, _) := ethFields f
  let c := s.tplCtl p t
  let hi := s.reg (Reg.ADPT_TPL_DA_HI.at (p - 0x18) t)
  bit c 16 && fld c 15 0 == ety && bit hi 31 == tag && (!tag || fld hi 27 16 == vid) &&
  (!bit c 17 || s.tplDa p t == daOf f) && (if isFast p then fld c 27 24 == secy else true)

/-- Policing under R325: MAXSDU, then the token bucket; true: the frame passes. The length counts the FCS. -/
def State.police (s : State) (p t len : Nat) : State × Bool :=
  let r := s.reg (Reg.ADPT_TPL_POL.at (p - 0x18) t)
  let sdu := if fld r 7 0 = 0 then 1518 else fld r 7 0 * 8
  let cir := fld r 31 16
  if len > sdu then (s, false)
  else if cir = 0 then (s, true)
  else
    let cap := fld r 15 8 * 64 * 8 * 1000
    let now := s.clk.etc.toNat
    let have_ := match Sparse.get none (s.adapter p).tokens t with
      | none => cap
      | some (b, at_) => min cap (b + (now - at_) * cir)
    let need := len * 8 * 1000
    let left := if need ≤ have_ then have_ - need else have_
    (s.modAdapter p (fun a => { a with tokens := Sparse.set none a.tokens t (some (left, now)) }), decide (need ≤ have_))

/-- The SecYs that a path's valid templates name (R327). -/
def State.secysOf (s : State) (p : Nat) : List Nat :=
  (List.range' 1 15).filter (fun n => (List.range 64).any (fun t => bit (s.tplCtl p t) 16 && fld (s.tplCtl p t) 27 24 == n))

/-- A received frame through the SecYs that the path's templates name (R327, R351): the SecY and the plain frame. A path that uses no SecY takes every
frame as it is. -/
def State.unprotect (s : State) (p : Nat) (f : List Byte) : State × Option (Nat × List Byte) :=
  let secys := s.secysOf p
  if !isFast p ∨ (ethFields f).2.2.1 ≠ 0x88E5 ∨ secys.isEmpty then (s, some (0, f))
  else
    (List.range' 1 15).foldl (fun acc n =>
      match acc with
      | (s, some r) => (s, some r)
      | (s, none) =>
        if secys.contains n then
          match s.validate n f with
          | (s, some g) => (s, some (n, g))
          | (s, none) => (s, none)
        else (s, none)) (s, none)

/-- A received Ethernet or T1S frame (R316-R318, R322, R325). -/
def State.ethReceive (s : State) (p : Nat) (f : List Byte) (ts : W64) (bad : Nat) : State :=
  if bad ≠ 0 ∨ ethBad f then s.countUp (Reg.ADPT_RXBAD.at p) 32 1
  else if !s.ethForUs p f then s.countUp (Reg.ADPT_RXUNCL.at p) 32 1
  else match s.unprotect p f with
    | (s, none) => s.countUp (Reg.ADPT_RXBAD.at p) 32 1
    | (s, some (secy, f)) =>
      match (List.range 64).find? (fun t => s.tplMatches p t secy f) with
      | none => s.countUp (Reg.ADPT_RXUNCL.at p) 32 1
      | some t =>
        match s.police p t (f.length + 4) with
        | (s, false) => s.countUp (Reg.ADPT_RXPOL.at p) 32 1
        | (s, true) =>
          match s.matchSub p (fun d => d == t) with
          | none => s.countUp (Reg.ADPT_RXUNCL.at p) 32 1
          | some sub => s.storeFrame p sub (leBytes 4 (f.length % 2 ^ 11 + t * 2 ^ 24) ++ leBytes 4 0 ++ leBytes 8 ts.toNat ++ f)

/-- FRAME_RECEIVE (R316-R318): a frame ends on the medium; ts: the ETC at its start or SFD; bad: the error its checks find
(CANSTAT.LEC's codes), 0 for none. Only an ONLINE path receives. The Fatal sequence stops transmission alone (R334). -/
def execFrameReceive (path : Nat) (f : RxFrame) (ts : W64) (bad : BitVec 3) (s : State) : Answer :=
  .next (if path ≥ 0x3C ∨ s.pathState path ≠ 1 then s
    else
      let (s, drop) := s.dropFrame path 0
      let b := if drop then 6 else bad.toNat
      match f with
      | .can w0 w1 af data => if isCan path then s.canReceive path w0 w1 af data ts b else s
      | .eth bytes => if isEth path then s.ethReceive path bytes ts b else s)

/-- The frame that a template or a raw image makes (R323): addresses, tag, EtherType and payload, padded to 60 bytes. -/
def State.ethFrame (s : State) (p : Nat) (st : AdStep) : List Byte :=
  let t := (s.sub st.sub).devaddr % 64
  let hi := s.reg (Reg.ADPT_TPL_DA_HI.at (p - 0x18) t)
  let f := if st.param % 2 = 1 then st.data.take 6 ++ macBytes (s.ethMac p) ++ st.data.drop 12
    else macBytes (s.tplDa p t) ++ macBytes (s.ethMac p) ++
      (if bit hi 31 then beBytes 2 0x8100 ++ beBytes 2 (fld hi 30 28 * 2 ^ 13 + fld hi 27 16) else []) ++
      beBytes 2 (fld (s.tplCtl p t) 15 0) ++ st.data
  fitTo (max 60 f.length) f

/-- The gates that are open (R324). -/
def State.openGates (s : State) (p : Nat) : Nat :=
  let c := s.reg (Reg.ADPT_QBVCTL.at (p - 0x28))
  if !isFast p ∨ !bit c 31 then 0xFF
  else s.rf (Reg.ADPT_GCL.at (p - 0x28) (fld c 28 28) (s.adapter p).entry) 7 0

/-- The traffic class of a step: its template's PCP (R324). -/
def State.stepClass (s : State) (p : Nat) (st : AdStep) : Nat :=
  s.rf (Reg.ADPT_TPL_DA_HI.at (p - 0x18) ((s.sub st.sub).devaddr % 64)) 30 28

/-- The first step of the highest traffic class. -/
def State.firstClass (s : State) (p : Nat) : List AdStep → Option AdStep
  | [] => none
  | x :: t => match s.firstClass p t with
    | none => some x
    | some y => if s.stepClass p x < s.stepClass p y then some y else some x

/-- The transmit-side step that is served next (R314). -/
def State.nextSend (s : State) (p : Nat) : Option AdStep :=
  let l := (s.adapter p).steps.filter (fun st => (st.cmd == 9 || st.cmd == 0xA) && (s.stepError p st).isNone)
  if isCan p then firstCan l
  else if isFast p then s.firstClass p (l.filter (fun st => nfld (s.openGates p) (s.stepClass p st) (s.stepClass p st) == 1))
  else l.head?

/-- A CAN frame goes out after failed attempts (R315, R319): bus-off fences the path. -/
def State.canSend (s : State) (p : Nat) (st : AdStep) (errs : List (BitVec 3)) : State :=
  let (s, drop) := s.dropFrame p 1
  let errs := if drop then errs ++ [4] else errs
  match s.canTxErrors p errs with
  | (s, true) => (s.fencePath p 3 false).adapterRecord p .link
  | (s, false) =>
    let a := Reg.ADPT_CANSTAT.at p
    let s := (s.setRf a 15 8 (s.rf a 15 8 - 1)).canState p
    let (w0, w1, af, data) := st.canFrame
    (s.emit .adapter p (w0 :: w1 :: af :: data.map BitVec.toNat)).deviceDone st.slot st.count false 0

/-- An Ethernet or T1S frame goes out (R315, R323, R327). -/
def State.ethSend (s : State) (p : Nat) (st : AdStep) (sfd : W32) : State :=
  let t := (s.sub st.sub).devaddr % 64
  let secy := if isFast p then fld (s.tplCtl p t) 27 24 else 0
  let f := s.ethFrame p st
  let (s, r) := if secy = 0 then (s, Except.ok f) else s.protect secy f
  match r with
  | .error c => s.deviceFail st.slot 0x1B c
  | .ok f =>
    let (s, drop) := s.dropFrame p 1
    (s.emit .adapter p (b2n drop :: f.map BitVec.toNat)).deviceDone st.slot st.count false (if nfld st.param 1 1 = 1 then sfd.toNat else 0)

/-- FRAME_SENT (R315): the frame whose turn it is completes on the medium after failed attempts; sfd: the ETC at its SFD. -/
def execFrameSent (path : Nat) (errs : List (BitVec 3)) (sfd : W32) (s : State) : Answer :=
  .next (if path ≥ 0x3C ∨ s.pathState path ≠ 1 ∨ s.cssStopped then s
    else match s.nextSend path with
      | none => s
      | some st => if isCan path then s.canSend path st errs else if st.cmd = 9 then s.ethSend path st sfd else s)

/-! ## Reports -/

/-- The 16 bytes of SENSE on CAN, T1S and Ethernet (R332). Link up and the rate are the medium's: open where no register shows them
(log entry 3). -/
def State.senseBytes (s : State) (p sub : Nat) : State × List Byte :=
  let stored := ((s.adapter p).store.filter (fun x => x.1 == sub)).length
  let tail := leBytes 4 stored ++ leBytes 8 s.clk.etc.toNat
  if isCan p then (s, leBytes 4 (s.reg (Reg.ADPT_CANSTAT.at p)).toNat ++ tail)
  else (s.took, leBytes 4 (1 + (if p < 0x28 then 6 else s.free % 6) * 2) ++ tail)

/-- What an adapter reports of a step that it holds: a refusal, SENSE, a stored frame, no frame, the discard order; a step whose
medium has not answered, or whose turn has not come (R314), is not reported. -/
def State.serveStep (s : State) (p : Nat) (st : AdStep) : State :=
  match s.stepError p st with
  | some c => s.deviceFail st.slot 0x1A c
  | none =>
    if isSd p then s
    else if st.cmd = 0xB then
      let (s, b) := s.senseBytes p st.sub
      s.deliverData st.slot b
    else if st.cmd = 8 then
      match takeFrame st.sub (s.adapter p).store with
      | some (b, rest) => (s.modAdapter p (fun a => { a with store := rest })).deliverData st.slot b
      | none => if st.param = 0 then s.deviceDone st.slot 0 false 0 else s
    else if st.cmd = 0xA ∧ isEth p ∧ (s.nextSend p).map (·.slot) = some st.slot then
      let gone := ((s.adapter p).store.filter (fun x => x.1 == st.sub)).length
      let s := (s.modAdapter p (fun a => { a with store := a.store.filter (fun x => x.1 != st.sub) })).countUp (Reg.ADPT_RXUNCL.at p) 32 gone
      s.deviceDone st.slot st.count false 0
    else s

/-- Has a smart-driver port asserted its chip select for a step (R315)? -/
def State.sdStarted (s : State) (p n : Nat) : Bool :=
  match (s.adapter p).xchg with
  | some x => x.slot == some n
  | none => false

/-- PATH_REPORT (R258, R286, R315): a report of a path for a slot and GEN. A path that is FENCED or RECOVERING, another GEN or another slot:
discarded and counted. notSent answers SC_ABORT. -/
def execPathReport (path slot gen : Nat) (notSent : Bool) (s : State) : Answer :=
  .next (if path ≥ 0x4C then s
    else if s.pathState path = 2 ∨ s.pathState path = 3 then s.stale
    else match s.inProgress path slot with
      | none => s.stale
      | some o =>
        if gen ≠ (s.sub (s.slot slot).subch).gen then s.stale
        else match (s.adapter path).steps.find? (fun st => st.slot == slot) with
          | none => s
          | some st =>
            if notSent then (if o.abort ∧ !s.sdStarted path slot then s.deviceFail slot 0x1D 0x08 else s)
            else s.serveStep path st)

/-- READ_WAIT_EXPIRY (R317): a READ's wait has ended without a frame: 0 bytes. -/
def execReadWaitExpiry (path slot : Nat) (s : State) : Answer :=
  .next (if path ≥ 0x3C then s
    else match s.inProgress path slot with
      | none => s
      | some _ =>
        match (s.adapter path).steps.find? (fun st => st.slot == slot && st.cmd == 8) with
        | none => s
        | some st => if (takeFrame st.sub (s.adapter path).store).isSome then s.serveStep path st else s.deviceDone slot 0 false 0)

/-! ## Link loss, reset, gates -/

/-- LINK_LOSS (R333): bus-off, a lost beacon or PHY link down fences the path with CAUSE 3 and is then recorded (R50); smart-driver ports have
none, and a path that is OFFLINE loses no link that it uses. -/
def execLinkLoss (path : Nat) (s : State) : Answer :=
  .next (if path ≥ 0x3C then s
    else
      let s := if isCan path then s.setRf (Reg.ADPT_CANSTAT.at path) 1 0 2 else s.adapterEvent path 2
      if s.pathState path = 0 then s
      else (if s.canFence path then s.fencePath path 3 false else s).adapterRecord path .link)

/-- ACTL.RST (R333): ignored unless the path is FENCED or OFFLINE. Stored frames go into RXUNCL; CAN counters clear; a smart-driver port
starts anew (R330). -/
def State.resetAdapter (s : State) (p : Nat) : State :=
  if s.pathState p ≠ 0 ∧ s.pathState p ≠ 2 then s
  else
    let n := (s.adapter p).store.length
    let s := s.countUp (Reg.ADPT_RXUNCL.at p) 32 n
    let s := s.modAdapter p (fun a => { a with store := [], xchg := none, fresh := [] })
    if isCan p then s.canClear p else s

/-- A write of ACTL. -/
def State.writeActl (s : State) (w : Bool) (p : Nat) (v : W32) : State :=
  let s := (s.writeFields w (Reg.ADPT_ACTL.at p) v).setRb (Reg.ADPT_ACTL.at p) 0 false
  if bit v 0 then s.resetAdapter p else s

/-- ADAPTER_RESET (R333): a write of RST = 1 that leaves the other fields as they are. -/
def execAdapterReset (r : Requester) (path : Nat) (s : State) : Answer :=
  .next (if path < 0x4C then s.byReq r (Reg.ADPT_ACTL.at path) (fun s => s.writeActl (s.worldOf r) path (setFld (s.reg (Reg.ADPT_ACTL.at path)) 0 0 1)) else s)

/-- A write of QBVCTL (R324): a NEXT other than CUR waits for a cycle start. -/
def State.writeQbv (s : State) (w : Bool) (p : Nat) (v : W32) : State :=
  let a := Reg.ADPT_QBVCTL.at (p - 0x28)
  let s := s.writeFields w a v
  s.setRb a 30 (s.rb a 29 != s.rb a 28)

/-- The entry of a list of intervals at a time after the cycle's start: after a shorter list, its last (R324). -/
def gateAt : List Nat → Nat → Nat → Nat
  | [], _, i => i - 1
  | t :: r, x, i => if x < t then i else gateAt r (x - t) (i + 1)

/-- The list positions of the gated MACs are recomputed from an adopted count (R324). -/
def State.gatesFollow (s : State) : State :=
  (List.range' 0x28 20).foldl (fun s p =>
    let c := s.reg (Reg.ADPT_QBVCTL.at (p - 0x28))
    let cycle := s.rf (Reg.ADPT_QBVCYCLE.at (p - 0x28)) 29 0
    if !bit c 31 ∨ cycle = 0 then s
    else
      let len := if bit c 28 then fld c 24 16 else fld c 8 0
      let x := (s.clk.etc.toNat + cycle - s.rf (Reg.ADPT_QBVOFS.at (p - 0x28)) 29 0 % cycle) % cycle
      let ts := (List.range len).map (fun i => s.rf (Reg.ADPT_GCL.at (p - 0x28) (fld c 28 28) i) 31 8)
      s.modAdapter p (fun a => { a with entry := gateAt ts x 0 })) s

/-- QBV_CYCLE_START (R324): the first entry runs; a pending switch takes effect. -/
def execQbvCycleStart (path : Nat) (s : State) : Answer :=
  .next (if !isFast path then s
    else
      let a := Reg.ADPT_QBVCTL.at (path - 0x28)
      let s := s.modAdapter path (fun x => { x with entry := 0 })
      if s.rb a 30 then ((s.setRb a 28 (s.rb a 29)).setRb a 30 false).adapterEvent path 5 else s)

/-- GCL_ENTRY_END (R324): the next entry; after the last its gates hold. -/
def execGclEntryEnd (path : Nat) (s : State) : Answer :=
  .next (if !isFast path then s
    else
      let c := s.reg (Reg.ADPT_QBVCTL.at (path - 0x28))
      let len := if bit c 28 then fld c 24 16 else fld c 8 0
      s.modAdapter path (fun x => { x with entry := if x.entry + 1 < len then x.entry + 1 else x.entry }))

/-- May software write an adapter configuration register now (R324, R333)? -/
def State.adapterWritable (s : State) (a : Nat) : Bool :=
  let p := (a - 0x12000000) / 0x10000
  let off := (a - 0x12000000) % 0x10000
  if off < 0x200 ∨ (0x1000 ≤ off ∧ off < 0x1400 ∧ off % 0x10 = 0xC) then true
  else if 0x2000 ≤ off then
    let c := s.reg (Reg.ADPT_QBVCTL.at (p - 0x28))
    if (off - 0x2000) / 0x400 = fld c 28 28 then !bit c 31 && !s.rb (Reg.ADPT_PATHCTL.at p) 0 else true
  else !s.rb (Reg.ADPT_PATHCTL.at p) 0

/-! ## Smart-driver ports -/

/-- Is a response well-formed and does it echo the command (R329, R330)? -/
def sdGood (x : SdExchange) (b : List Byte) : Bool :=
  let n := (b.getD 3 0).toNat
  b.getD 0 0 == 0x5A && b.getD 1 0 == BitVec.ofNat 8 (x.opc * 16 + x.seq) && b.length == 6 + n &&
  leNat (b.drop (4 + n)).reverse == crc16 (b.take (4 + n))

/-- SD_RESPONSE (R330, R331): a response on a smart-driver port. -/
def execSdResponse (path : Nat) (bytes : List Byte) (s : State) : Answer :=
  .next (if !isSd path ∨ s.cssStopped then s
    else match (s.adapter path).xchg with
      | none => s
      | some x =>
        let (s, drop) := s.dropFrame path 0
        let stat := (bytes.getD 2 0).toNat
        if drop ∨ !sdGood x bytes ∨ stat = 3 then s.modAdapter path (fun a => { a with xchg := some { x with bad := true } })
        else
          let payload := (bytes.drop 4).take (bytes.getD 3 0).toNat
          let s := s.modAdapter path (fun a => { a with xchg := none })
          let s := match x.slot with
            | none => s
            | some n =>
              match (s.adapter path).steps.find? (fun (st : AdStep) => st.slot == n) with
              | none => s
              | some st =>
                if stat > 1 then s.deviceFail n 0x1A (0x07 + stat * 2 ^ 8)
                else if st.cmd = 8 ∨ st.cmd = 0xB then s.deliverData n payload
                else s.deviceDone n st.count false 0
          s.startSd path)

/-- SD_RETRANSMIT (R330): 10 µs after a bad response the identical command goes out again, unless its step was withdrawn. -/
def execSdRetransmit (path : Nat) (s : State) : Answer :=
  .next (if !isSd path ∨ s.cssStopped then s
    else match (s.adapter path).xchg with
      | none => s
      | some x =>
        if !x.bad then s
        else
          let gone := match x.slot with
            | none => false
            | some n => !(s.adapter path).steps.any (fun st => st.slot == n)
          if gone then (s.modAdapter path (fun a => { a with xchg := none })).startSd path else s.sdSend path x)

/-- KEEP_ALIVE (R331): after KAMS ms idle toward an enabled chip select the adapter sends it a NOP. -/
def execKeepAlive (path : Nat) (cs : BitVec 2) (s : State) : Answer :=
  .next (if !isSd path ∨ s.cssStopped then s
    else
      let c := s.reg (Reg.ADPT_SDCFG.at (path - 0x3C))
      if (s.adapter path).xchg.isSome ∨ fld c 31 24 = 0 ∨ !bit c (20 + cs.toNat) then s
      else s.sdCommandTo path cs.toNat 4 0 [] none)

/-- FAULTIN (R328): a fall of FAULT_N. -/
def execFaultin (path : Nat) (s : State) : Answer := .next (if isSd path then s.adapterEvent path 4 else s)

end Sys2Proof.Machine
end

