-- ==== Sys2Proof/Machine/BootUnit.lean ====
section
/-! DEFINITION. The registers of the BOOT block that software writes (chapter Boot, Keys and Field Update): core release (R470-R472),
the life cycle (R469) and fuse programming (R468). -/
namespace Sys2Proof.Machine

/-! ## Core release -/

/-- The address of a core's bit in RELEASE: the register and the bit. -/
def releaseBit (c : Nat) : Nat × Nat := (Reg.BOOT_RELEASE.at (c / 32), c % 32)

/-- Where a core starts (R470, R472). -/
def Booted.startPc (b : Booted) (c : Nat) : Nat :=
  if b.compat then b.centry.getD c 0 / 4 * 4 else if c = 0 then b.entry else b.sec

/-- The registers of R470 for a core at an address. -/
def State.startAt (s : State) (c pc stack : Nat) : State :=
  let g1 := (s.reg Reg.BOOT_BSTAT.at).zeroExtend 64
  let s := s.modCore c (fun k =>
    ({ k with pc := BitVec.ofNat 64 (pc / 4 * 4), spM := BitVec.ofNat 64 stack, stat := 0x1F7, released := true, wait := .none,
              gs := Sparse.set 0 (Sparse.set 0 k.gs 1 g1) 2 (BitVec.ofNat 64 c) }.swr 0x900 0).swr 0xCC0 0)
  s.setRb (releaseBit c).1 (releaseBit c).2 true

/-- A core starts from the booted set (R470). -/
def State.startCore (s : State) (c : Nat) : State :=
  match s.boot.booted with
  | some b => s.startAt c (b.startPc c) (b.stack.getD c 0)
  | none => s

/-- Does a release start a core (R471, R472): it is online, not released, and its CENTRY does not forbid it? -/
def State.releasable (s : State) (c : Nat) : Bool :=
  s.online c && !(s.core c).released &&
  (match s.boot.booted with
   | some b => !(b.compat && b.centry.getD c 0 % 4 == 3)
   | none => false)

/-- A write of RELEASE (R470). -/
def State.writeRelease (s : State) (w : Bool) (j : Nat) (v : W32) : State :=
  if !w then s
  else (List.range 32).foldl (fun s i => if bit v i ∧ s.releasable (32 * j + i) then s.startCore (32 * j + i) else s) s

/-! ## Life cycle -/

/-- The transitions of R469. -/
def lifeCycleOk (now dest : Nat) : Bool := (decide (now < 3) && dest == now + 1) || dest == 4

/-- A write of LCADV (R469): LCS.BUSY, and a WARM reset is due after the fuses. -/
def State.writeLcadv (s : State) (w : Bool) (v : W32) : State :=
  if !w ∨ fld v 31 24 ≠ 0xC5 ∨ !lifeCycleOk (s.rf Reg.BOOT_LCS.at 2 0) (fld v 2 0) ∨ s.rb Reg.BOOT_LCS.at 31 then s
  else
    let s := s.setRb Reg.BOOT_LCS.at 31 true
    { s with boot := { s.boot with lcs := some (fld v 2 0), warm := some 4 } }

/-! ## Fuses -/

/-- Is the operation that FUSEPROG holds allowed (R468)? -/
def State.fuseOk (s : State) (op arg : Nat) : Bool :=
  let k := s.reg Reg.BOOT_KEYSTAT.at
  if op = 0 then decide (arg ≤ s.rf Reg.BOOT_BSTAT.at 21 16) && decide (s.rf Reg.BOOT_FSVN.at 5 0 < arg)
  else if op = 1 then decide (arg < 4) && (List.range 4).any (fun n => n != arg && bit k n && !bit k (4 + n))
  else if op = 2 then decide (arg < 2)
  else false

/-- A write of FUSEPROG (R468): GO starts an operation, or sets ERR where it is refused; ignored while BUSY. -/
def State.writeFuseprog (s : State) (w : Bool) (v : W32) : State :=
  let a := Reg.BOOT_FUSEPROG.at
  if !w ∨ s.rb a 30 then s
  else
    let s := (s.writeFields w a v).setRb a 31 false
    if !bit v 31 then s
    else if s.fuseOk (s.rf a 25 24) (s.rf a 5 0) then s.setRb a 30 true
    else s.setRb a 29 true

/-- The running operation ends (R468): verified, the fuse is burned; otherwise it reads burned or not, an SVN anywhere up to ARG
(free values, log entry 3), with ERR and the record of UNIT 0x24. -/
def State.fuseEnd (s : State) (verified : Bool) : State :=
  let a := Reg.BOOT_FUSEPROG.at
  let op := s.rf a 25 24
  let arg := s.rf a 5 0
  if !s.rb a 30 then s
  else
    let s := s.setRb a 30 false
    let n := s.free
    let old := s.rf Reg.BOOT_FSVN.at 5 0
    let b := if op = 1 then 4 + arg else 10 + arg
    let s :=
      if op = 0 then s.setRf Reg.BOOT_FSVN.at 5 0 (if verified then arg else old + n % (arg - old + 1))
      else s.setRb Reg.BOOT_KEYSTAT.at b (s.rb Reg.BOOT_KEYSTAT.at b || verified || n % 2 == 1)
    if verified then s
    else (s.took.setRb a 29 true).record { bank := 47, unit := 0x24, code := 0x07, sev := .contained }

/-- A FUSEPROG row: the write of GO, and the end of the operation it names. -/
def State.fuseRow (s : State) (r : Requester) (op arg : Nat) (verified : Bool) : State :=
  let a := Reg.BOOT_FUSEPROG.at
  let s := s.byReq r a (fun s => s.writeFuseprog (s.worldOf r) (BitVec.ofNat 32 (2 ^ 31 + op * 2 ^ 24 + arg)))
  if s.rf a 25 24 = op ∧ s.rf a 5 0 = arg then s.fuseEnd verified else s

/-- RAISE_SVN (R468). -/
def execRaiseSvn (r : Requester) (arg : BitVec 6) (verified : Bool) (s : State) : Answer := .next (s.fuseRow r 0 arg.toNat verified)
/-- REVOKE_ROOT_KEY_SLOT (R468). -/
def execRevokeRootKeySlot (r : Requester) (arg : BitVec 6) (verified : Bool) (s : State) : Answer :=
  .next (s.fuseRow r 1 arg.toNat verified)
/-- REVOKE_DEBUG_KEY_SLOT (R468). -/
def execRevokeDebugKeySlot (r : Requester) (arg : BitVec 6) (verified : Bool) (s : State) : Answer :=
  .next (s.fuseRow r 2 arg.toNat verified)
/-- FUSEPROG_INVALID_OP (R468). -/
def execFuseprogInvalidOp (r : Requester) (arg : BitVec 6) (s : State) : Answer :=
  .next (s.byReq r Reg.BOOT_FUSEPROG.at (fun s => s.writeFuseprog (s.worldOf r) (BitVec.ofNat 32 (2 ^ 31 + 3 * 2 ^ 24 + arg.toNat))))

/-- RELEASE (R470): a write of RELEASE. -/
def execRelease (r : Requester) (j : BitVec 1) (v : W32) (s : State) : Answer :=
  .next (s.byReq r (Reg.BOOT_RELEASE.at j.toNat) (fun s => s.writeRelease (s.worldOf r) j.toNat v))

end Sys2Proof.Machine
end

