-- ==== Sys2Proof/Machine/Engine.lean ====
section
/-! DEFINITION. Mash and Kiln (chapter Mash and Kiln Engines): engine steps of channel programs and direct jobs (R337-R343, R354-R359), the key ladder
(R347-R349) and the entropy source (R352). -/
namespace Sys2Proof.Machine

/-- An engine. -/
def State.engine (s : State) (kiln : Bool) : Engine := if kiln then s.kiln else s.mash

/-- An engine, changed. -/
def State.modEngine (s : State) (kiln : Bool) (f : Engine → Engine) : State :=
  if kiln then { s with kiln := f s.kiln } else { s with mash := f s.mash }

/-! ## Starting a step -/

/-- The bytes that SEAL or UNSEAL produces from COUNT (R341). -/
def sealLen (cmd count : Nat) : Nat := if cmd = 6 then count + 28 else count - 28

/-- The key slot that a step names, with its USE bit and the TYPEs that serve it (R341, R344, R358). -/
def stepKey (c : Ccd) : Option (Nat × Nat × List Nat) :=
  if c.cmd = 6 then some (c.param % 64, 8, [0, 1])
  else if c.cmd = 7 then some (c.param % 64, 9, [0, 1])
  else if c.cmd = 3 then
    (if c.param = 3 then some (c.aux % 64, 10, [2]) else if c.param = 4 then some (c.aux % 64, 10, [3]) else none)
  else if c.cmd = 0xD then some (c.param % 64, 11, [0, 1, 4, 5])
  else none

/-- Is PARAM or AUX of a step invalid (R338, R341, R357, R358)? -/
def badParam (c : Ccd) : Bool :=
  if c.cmd = 4 ∨ c.cmd = 5 then decide (2 < c.param)
  else if c.cmd = 6 ∨ c.cmd = 7 then decide (64 ≤ c.param)
  else if c.cmd = 3 then decide (4 < c.param) || decide (64 ≤ c.aux) || (decide (c.param < 3) && c.aux != 0)
  else if c.cmd = 0xC then
    decide (2 < c.param) || c.aux != (if c.param = 0 then 128 else if c.param = 1 then 192 else 5261)
  else nfld c.param 6 6 == 1

/-- The error of a step before it reads its input (R340, R341, R343, R345, R358), SEAL's counter apart: its DEVSTAT. -/
def State.stepRefusal (s : State) (e : EngStep) : Option Nat :=
  let c := e.ccd
  if badParam c then some Eng.badParam
  else match stepKey c with
    | none => none
    | some (k, use, tys) =>
      match s.keyRefusal k use tys e.tag.world e.tag.pid with
      | some x => some (x + k * 2 ^ 8)
      | none => none

/-- The error that a step's length gives (R341, R343, R358). -/
def State.lengthRefusal (s : State) (e : EngStep) : Option Nat :=
  let c := e.ccd
  if c.cmd = 7 ∧ e.count < 28 then some Eng.short
  else if (c.cmd = 6 ∨ c.cmd = 7) ∧ c.aux < sealLen c.cmd e.count then some Eng.overflow
  else if c.cmd = 0xD ∧ e.count < (if 4 ≤ s.keyType (c.param % 64) then 32 else 16) then some Eng.short
  else none

/-- A step starts (R337, R342, R345): its checks, and SEAL's counter is taken. -/
def State.startStep (s : State) (e : EngStep) : State × EngStep :=
  let e := { e with started := true, key := (stepKey e.ccd).map (fun x => x.1) }
  if e.lost then (s, e)
  else match s.stepRefusal e with
    | some d => (s, { e with err := some (0x1B, d) })
    | none =>
      let ctr := Reg.KILN_KS_CTR_LO.at (e.ccd.param % 64)
      if e.ccd.cmd = 6 ∧ s.reg64 ctr = 2 ^ 64 - 1 then
        (s, { e with err := some (0x1B, Eng.exhaust + e.ccd.param % 64 * 2 ^ 8) })
      else
        let iv := s.reg64 ctr
        let err := (s.lengthRefusal e).map (fun d => ((0x1B, d) : Nat × Nat))
        (if e.ccd.cmd = 6 then s.setReg64 ctr (iv + 1) else s, { e with iv := iv, err := err })

/-- The step that an idle engine starts (R337): the oldest, but a step of Kiln's job channels 4-7 ahead of open-world steps. -/
def nextEngStep (kiln : Bool) (es : List EngStep) : Option EngStep :=
  match es with
  | [] => none
  | h :: _ =>
    if h.tag.world ∨ !kiln then some h
    else match es.find? (fun e => match e.who with | .job ch => decide (4 ≤ ch) && e.tag.world | .op _ => false) with
      | some e => some e
      | none => some h

/-- An idle engine starts its next step. -/
def State.startEngine (s : State) (kiln : Bool) : State :=
  let es := (s.engine kiln).steps
  if es.any (fun e => e.started) then s
  else match nextEngStep kiln es with
    | none => s
    | some e =>
      let (s, e') := s.startStep e
      s.modEngine kiln (fun g => { g with steps := e' :: dropFirst e g.steps })

/-! ## Direct jobs -/

/-- A job of a channel, if one runs. -/
def State.job (s : State) (kiln : Bool) (ch : Nat) : Option Job := Sparse.get none (s.engine kiln).jobs ch

/-- The job of a channel, replaced. -/
def State.setJob (s : State) (kiln : Bool) (ch : Nat) (j : Option Job) : State :=
  s.modEngine kiln (fun g => { g with jobs := Sparse.set none g.jobs ch j })

/-- The address of a job channel's registers. -/
def jobBase (kiln : Bool) (ch : Nat) : Nat := (if kiln then 0x13100000 else 0x13000000) + ch * 0x20

/-- A job ends (R356): JSTAT, and VEC where IEN = 1. -/
def State.endJob (s : State) (kiln : Bool) (ch status detail : Nat) : State :=
  let b := jobBase kiln ch
  let s := s.setJob kiln ch none
  let s := s.setReg (b + 0xC) (BitVec.ofNat 32 (status % 256 * 2 ^ 24 + detail % 2 ^ 14 * 2 ^ 10 + 2))
  let s := s.setRb (b + 8) 31 false
  if s.rb (b + 8) 0 then s.raiseShared (s.rf (b + 8) 25 16) else s

/-- Does a job channel accept a command (R356)? -/
def jobAccepts (kiln : Bool) (cmd : Nat) : Bool :=
  if kiln then cmd ∈ [3, 6, 7, 0xC, 0xD] else cmd ∈ [4, 5]

/-- A CCD of a job is read and checked (R356): the job's chain grows, or the job ends. -/
def State.readJobCcd (s : State) (kiln : Bool) (ch : Nat) (j : Job) (a : Nat) : State × Option Job :=
  if a % 32 ≠ 0 ∨ j.nread ≥ 256 then (s.endJob kiln ch 0x15 0, none)
  else match s.fabricRead j.tag a 32 with
    | (s, .error e) => (s.endJob kiln ch (errStatus e) 0, none)
    | (s, .ok b) =>
      let c := Ccd.ofBytes b
      if ccdBad a c j.chain j.last j.nread true ∨ !jobAccepts kiln c.cmd then (s.endJob kiln ch 0x15 0, none)
      else
        let j := { j with chain := j.chain ++ [c], nread := j.nread + 1 }
        (s.setJob kiln ch (some j), some j)

/-- A write of JCTL (R356). -/
def State.writeJctl (s : State) (r : Requester) (kiln : Bool) (ch : Nat) (v : W32) : State :=
  let b := jobBase kiln ch
  let w := s.worldOf r
  if kiln ∧ 4 ≤ ch ∧ !w then s
  else
    let busy := s.rb (b + 0xC) 0
    let s := s.writeFields w (b + 8) (if busy then v &&& 0x7FFFFFFF else v)
    if busy ∨ !bit v 31 then s
    else
      let s := s.setRb (b + 0xC) 0 true
      let a := s.reg64 b
      let j : Job := { at_ := a, chain := [], nread := 0, last := none, tag := { s.tagOf r with cls := 4, src := b2n kiln } }
      (s.readJobCcd kiln ch j a).1

/-- JOB_START (R356). -/
def execJobStart (r : Requester) (kiln : Bool) (ch : BitVec 3) (v : W32) (s : State) : Answer :=
  .next (s.byReq r (jobBase kiln ch.toNat + 8) (fun s => s.writeJctl r kiln ch.toNat (v ||| 0x80000000)))

/-- The rest of a job's JOIN chain is read (R274). -/
def State.joinJob : Nat → State → Bool → Nat → Job → State × Option Job
  | 0, s, _, _, _ => (s, none)
  | f + 1, s, kiln, ch, j =>
    match j.chain.getLast? with
    | none => (s, none)
    | some c =>
      if !c.join then (s, some j)
      else match s.readJobCcd kiln ch j (j.at_ + 32 * j.chain.length) with
        | (s, none) => (s, none)
        | (s, some j) => State.joinJob f s kiln ch j

/-- A job comes to its step of a command: the step enters the engine's queue (R337). -/
def State.jobStep (s : State) (kiln : Bool) (ch cmd : Nat) : State :=
  match s.job kiln ch with
  | none => s
  | some j =>
    match j.chain with
    | [] => s
    | c :: _ =>
      if c.cmd ≠ cmd ∨ (s.engine kiln).steps.any (fun e => e.who == .job ch) then s
      else match State.joinJob 257 s kiln ch j with
        | (s, none) => s
        | (s, some j) =>
          let e : EngStep := { who := .job ch, ccd := c, pieces := chainPieces j.last j.chain, count := chainLen j.last j.chain, tag := j.tag,
                               started := false, iv := 0, key := none, lost := false, err := none }
          s.modEngine kiln (fun g => { g with steps := g.steps ++ [e] })

/-- An engine command begins for a channel program or a job (R273, R356), and an idle engine starts it. -/
def State.engineCmd (s : State) (kiln : Bool) (o : StepOf) (cmd : Nat) : State :=
  (match o with
   | .sub sc => s.ccdStep sc cmd
   | .job ch => s.jobStep kiln ch cmd).startEngine kiln

/-- CHECK (R341). -/
def execCheck (o : StepOf) (s : State) : Answer := .next (s.engineCmd true o 0x3)
/-- MASH (R339). -/
def execMash (o : StepOf) (s : State) : Answer := .next (s.engineCmd false o 0x4)
/-- UNMASH (R340). -/
def execUnmash (o : StepOf) (s : State) : Answer := .next (s.engineCmd false o 0x5)
/-- SEAL (R342). -/
def execSeal (o : StepOf) (s : State) : Answer := .next (s.engineCmd true o 0x6)
/-- UNSEAL (R343). -/
def execUnseal (o : StepOf) (s : State) : Answer := .next (s.engineCmd true o 0x7)
/-- VERIFY (R357), a direct job's step. -/
def execVerify (ch : Nat) (s : State) : Answer := .next (s.engineCmd true (.job ch) 0xC)
/-- CIPHER (R358), a direct job's step. -/
def execCipher (ch : Nat) (s : State) : Answer := .next (s.engineCmd true (.job ch) 0xD)

/-! ## The end of a step -/

/-- A job's read of its pieces: no request of a job goes to the host (R408). -/
def State.jobGather (s : State) (t : AccessTag) : List (Nat × Nat) → List Byte → State × Got
  | [], acc => (s, .ok acc)
  | (a, n) :: rest, acc =>
    if s.isHost a then (s, .fail 0x17)
    else match State.fabricReadLong (pieces n) s t a n [] with
      | (s, .ok bs) => s.jobGather t rest (acc ++ bs)
      | (s, .error (e, _)) => (s, .fail (errStatus e))

/-- An engine's read for a step. -/
def State.engRead (s : State) (e : EngStep) (ps : List (Nat × Nat)) : State × Got :=
  match e.who with
  | .op n => if n < numSlots then s.gather n false ps [] false else s.jobGather e.tag ps []
  | .job _ => s.jobGather e.tag ps []

/-- An engine's write for a step: the status of a failure, if any. -/
def State.engWrite (s : State) (e : EngStep) (a : Nat) (bs : List Byte) : State × Option Nat :=
  match e.who with
  | .op n =>
    if n < numSlots then s.opWrite n false a bs
    else if s.isHost a then (s, none)
    else match State.fabricWriteLong (pieces bs.length) s e.tag a bs with
      | (s, x) => (s, x.map errStatus)
  | .job _ =>
    if s.isHost a then (s, some 0x17)
    else match State.fabricWriteLong (pieces bs.length) s e.tag a bs with
      | (s, x) => (s, x.map errStatus)

/-- How a step ends: ok with the bytes produced and the length counted; failure with status, DEVSTAT and whether output
bytes were written that are then undefined. -/
inductive EngEnd where
  | ok (out : List Byte)
  | zeroed (n : Nat)
  | fail (status devstat : Nat) (wrote : Bool)
deriving DecidableEq, Repr

/-- The length of CHECK's expected value (R341). -/
def digestLen (alg : Nat) : Nat := if alg = 1 ∨ alg = 4 then 48 else 32

/-- Does the output of a step overlap its source (R340)? -/
def overlaps (ps : List (Nat × Nat)) (a n : Nat) : Bool := ps.any (fun p => decide (p.1 < a + n) && decide (a < p.1 + p.2))

/-- What an engine computes from a step's source (R339-R343, R357, R358); extra: what it reads at ARG. -/
def State.engCompute (s : State) (e : EngStep) (data extra : List Byte) : EngEnd :=
  let c := e.ccd
  let k := s.keyValue (e.key.getD 0)
  if c.cmd = 4 then
    let out := mashOut c.param data
    if out.length ≤ c.aux then .ok out else .fail 0x1B Eng.overflow true
  else if c.cmd = 5 then
    match unmashOut c.param c.aux data with
    | .ok out => .ok out
    | .error f => .fail 0x1B f true
  else if c.cmd = 6 then
    let iv := beBytes 4 (s.reg (Reg.KILN_KS_IVF.at (e.key.getD 0))).toNat ++ beBytes 8 e.iv
    .ok (iv ++ fitTo (e.count + 16) (gcmSeal k iv [] data))
  else if c.cmd = 7 then
    match gcmOpen k (data.take 12) [] (data.drop 12) with
    | some p => .ok (fitTo (e.count - 28) p)
    | none => .zeroed (e.count - 28)
  else if c.cmd = 3 then
    (if fitTo (digestLen c.param) (Config.digest c.param k data) = extra then .ok [] else .fail 0x1C 0 false)
  else if c.cmd = 0xC then
    (if Config.verify c.param data extra then .ok [] else .fail 0x1C 0 false)
  else
    .ok (if 4 ≤ s.keyType (e.key.getD 0) then fitTo (e.count - 16) (Config.xts (nfld c.param 7 7 == 1) k (data.take 16) (data.drop 16))
      else padded (Config.ctrPad k (data.take 16)) (data.drop 16))

/-- The pieces that a step reads at ARG beside its source: CHECK's expected value and VERIFY's block. -/
def argPieces (c : Ccd) : List (Nat × Nat) :=
  if c.cmd = 3 then [(c.arg, digestLen c.param)] else if c.cmd = 0xC then [(c.arg, c.aux)] else []

/-- The output that a failed step leaves (R285, R350): an undefined number of undefined bytes. -/
def State.undefinedOut (s : State) (e : EngStep) : State :=
  if e.ccd.cmd = 3 ∨ e.ccd.cmd = 0xC then s
  else
    let m := if e.ccd.cmd = 0xD then e.count - 16 else e.ccd.aux
    let n := s.free % (m + 1)
    let (s, bs) := s.took.freeBytes n
    (s.engWrite e e.ccd.arg bs).1

/-- A step has ended: its operation or job goes on (R275, R276, R337, R356). -/
def State.engDone (s : State) (kiln : Bool) (e : EngStep) (produced : Nat) : State :=
  match e.who with
  | .op n =>
    if n < numSlots then
      let resid := if e.ccd.cmd = 3 then 0 else e.ccd.aux - produced
      (((s.modOp n (fun o => { o with last := some produced, phase := .begun })).endStep n resid false 0)).sweep
    else s
  | .job ch =>
    match s.job kiln ch with
    | none => s
    | some j =>
      let s := s.setReg (jobBase kiln ch + 0x10) (BitVec.ofNat 32 (produced % 2 ^ 25))
      match j.chain.getLast? with
      | none => s
      | some c =>
        if c.next then
          let a := j.at_ + 32 * j.chain.length
          (s.readJobCcd kiln ch { j with at_ := a, chain := [], last := some produced } a).1
        else s.endJob kiln ch 0x00 0

/-- A step has failed. -/
def State.engFail (s : State) (kiln : Bool) (e : EngStep) (status devstat : Nat) : State :=
  match e.who with
  | .op n =>
    if n < numSlots then
      let resid := if e.ccd.cmd = 3 then 0 else e.ccd.aux
      (s.endOp n status resid devstat).sweep
    else s
  | .job ch => s.endJob kiln ch status devstat

/-- REC_MISC0 of an engine record (R360). -/
def engMisc (e : EngStep) : Nat := match e.who with | .job ch => ch | .op _ => 0xFF

/-- The records of a corrected buffer error and of a check failure (R354, R360). -/
def State.checkRecords (s : State) (kiln : Bool) (e : EngStep) (c : EngCheck) : State :=
  let bank := if kiln then 36 else 35
  let r (s : State) (unit : Nat) (sev : Sev) (ecc : Bool) : State :=
    s.record { bank := bank, unit := unit, code := if ecc then 0x02 else 0x05, sev := sev, tag := some e.tag, misc0 := engMisc e }
  match c with
  | .ok => s
  | .corrected =>
    s.record { bank := bank, unit := 0x00, code := 0x01, sev := .corrected, tag := some e.tag, misc0 := engMisc e }
  | .again ecc => r s 0x01 .corrected ecc
  | .twice ecc => r (r s 0x01 .corrected ecc) 0x02 .deferred ecc

/-- The running step of an engine ends (R337-R358). false: its source or expected value has not arrived. -/
def State.endEngStep (s : State) (kiln : Bool) (e : EngStep) (chk : EngCheck) : State × Bool :=
  let gone (s : State) : State := s.modEngine kiln (fun g => { g with steps := g.steps.drop 1 })
  match e.err with
  | some (st, d) => ((gone s).engFail kiln e st d, true)
  | none =>
    if e.lost then ((gone (s.undefinedOut e)).engFail kiln e 0x1B (Eng.keyLost + (e.key.getD 0) * 2 ^ 8), true)
    else match chk with
      | .twice _ => ((gone ((s.checkRecords kiln e chk).undefinedOut e)).engFail kiln e 0x1B Eng.hwErr, true)
      | _ =>
        if e.who = .op numSlots then (gone ((s.checkRecords kiln e chk).undefinedOut e), true)
        else match s.engRead e (e.pieces ++ argPieces e.ccd) with
          | (s, .wait) => (s, false)
          | (s, .fail st) => ((gone ((s.checkRecords kiln e chk).undefinedOut e)).engFail kiln e st 0, true)
          | (s, .ok all) =>
            let s := s.checkRecords kiln e chk
            match s.engCompute e (all.take e.count) (all.drop e.count) with
            | .fail st d w => ((gone (if w then s.undefinedOut e else s)).engFail kiln e st d, true)
            | .zeroed n =>
              let (s, _) := s.engWrite e e.ccd.arg (List.replicate n 0)
              ((gone s).engFail kiln e 0x1C 0, true)
            | .ok out =>
              let (s, out) := if e.ccd.cmd = 5 ∧ overlaps e.pieces e.ccd.arg out.length then s.freeBytes out.length else (s, out)
              match s.engWrite e e.ccd.arg out with
              | (_, some st) =>
                let (s, bs) := s.freeBytes out.length
                ((gone (s.engWrite e e.ccd.arg bs).1).engFail kiln e st 0, true)
              | (s, none) => ((gone s).engDone kiln e out.length, true)

/-- ENGINE_STEP_END (R337, R354): the running step ends and the engine starts the next. -/
def execEngineStepEnd (kiln : Bool) (chk : EngCheck) (s : State) : Answer :=
  .next (match (s.engine kiln).steps with
    | [] => s
    | e :: _ =>
      if !e.started then s
      else (s.endEngStep kiln e chk).1.startEngine kiln)

/-! ## The key ladder -/

/-- Where the Cask SRAM lies (R27). -/
def caskBase : Nat := 0x1000000

/-- A slot is filled (R342, R347, R348). -/
def State.fillKey (s : State) (k : Nat) (v : List Byte) : State :=
  let s := (s.setRb (Reg.KILN_KS_CFG.at k) 0 true).setReg64 (Reg.KILN_KS_CTR_LO.at k) 0
  { s with vault := { s.vault with keys := Sparse.set [] s.vault.keys k v } }

/-- The 32 bytes of LDR_LABEL. -/
def State.ladderLabel (s : State) : List Byte := (List.range 8).flatMap (fun i => leBytes 4 (s.reg (Reg.KILN_LDR_LABEL.at i)).toNat)

/-- The fixed input of a derivation (R347). -/
def State.fixedInput (s : State) (len : Nat) : List Byte :=
  s.ladderLabel ++ [0] ++ leBytes 1 (s.rf Reg.KILN_LDR_STAT.at 21 16) ++ leBytes 1 (s.rf Reg.BOOT_LCS.at 2 0) ++ beBytes 4 (8 * len)

/-- A ladder operation (R347-R349): its ERR. -/
def State.ladder (s : State) (t : AccessTag) (op dst src : Nat) (root : Bool) : State × Nat :=
  let len := keyLen (s.keyType dst)
  let c := s.reg (Reg.KILN_KS_CFG.at src)
  if s.scrapped then (s, 5)
  else if op ≠ 1 ∧ op ≠ 2 then (s, 1)
  else if s.keyValid dst ∨ len = 0 then (s, 1)
  else if op = 1 then
    if root then (s.fillKey dst (fitTo len (Config.derive s.vault.root (s.fixedInput len) len)), 0)
    else if !bit c 0 ∨ fld c 3 1 ≠ 3 ∨ !bit c 14 then (s, 2)
    else (s.fillKey dst (fitTo len (Config.derive (s.keyValue src) (s.fixedInput len) len)), 0)
  else if !bit c 0 ∨ 2 ≤ fld c 3 1 ∨ !bit c 13 then (s, 2)
  else
    match State.fabricReadLong (pieces (28 + len)) s t (caskBase + s.rf Reg.KILN_LDR_SRC.at 20 4 * 16) (28 + len) [] with
    | (s, .error _) => (s, 4)
    | (s, .ok b) =>
      match gcmOpen (s.keyValue src) (b.take 12) (leBytes 4 (s.reg (Reg.KILN_KS_CFG.at dst)).toNat) (b.drop 12) with
      | some k => (s.fillKey dst (fitTo len k), 0)
      | none => (s, 3)

/-- A write of LDR_CTL (R349): GO runs the operation; ERR tells its result. -/
def State.writeLdr (s : State) (r : Requester) (v : W32) : State :=
  let w := s.worldOf r
  let s := s.writeFields w Reg.KILN_LDR_CTL.at v
  if !w ∨ !bit v 31 then s
  else
    let c := s.reg Reg.KILN_LDR_CTL.at
    let (s, e) := s.ladder { s.tagOf r with cls := 4, src := 1 } (fld c 27 24) (fld c 21 16) (fld c 13 8) (bit c 0)
    (s.setRf Reg.KILN_LDR_STAT.at 2 0 e).setRb Reg.KILN_LDR_CTL.at 31 false

/-- The LDR_CTL word of an operation. -/
def ladderWord (op dst src : Nat) (root : Bool) : W32 := BitVec.ofNat 32 (2 ^ 31 + op * 2 ^ 24 + dst * 2 ^ 16 + src * 2 ^ 8 + b2n root)

/-- DERIVE (R347). -/
def execDerive (r : Requester) (dst src : BitVec 6) (root : Bool) (s : State) : Answer :=
  .next (s.byReq r Reg.KILN_LDR_CTL.at (fun s => s.writeLdr r (ladderWord 1 dst.toNat src.toNat root)))
/-- IMPORT (R348). -/
def execImportKey (r : Requester) (dst src : BitVec 6) (s : State) : Answer :=
  .next (s.byReq r Reg.KILN_LDR_CTL.at (fun s => s.writeLdr r (ladderWord 2 dst.toNat src.toNat false)))
/-- LDR_INVALID_OP (R349): an OP that is neither 1 nor 2; any other word is the row of its own name. -/
def execLdrInvalidOp (r : Requester) (v : W32) (s : State) : Answer :=
  .next (if fld v 27 24 = 1 ∨ fld v 27 24 = 2 then s else s.byReq r Reg.KILN_LDR_CTL.at (fun s => s.writeLdr r (v ||| 0x80000000)))

/-! ## Entropy -/

/-- A read of RNGDATA or RNGDATA_S (R352): the next word of its DRBG, which reseeds after 2^20 reads; zero while READY = 0. -/
def State.rngRead (s : State) (w sealedReg : Bool) : State × W32 :=
  if !s.rb Reg.KILN_RNGSTAT.at 0 ∨ (sealedReg ∧ !w) then (s, 0)
  else
    let v := BitVec.ofNat 32 s.free
    let up (n : Nat) : Nat := if n + 1 = 2 ^ 20 then 0 else n + 1
    let s := s.took
    (if sealedReg then { s with vault := { s.vault with readsS := up s.vault.readsS } }
     else { s with vault := { s.vault with reads := up s.vault.reads } }, v)

/-- RNGDATA_READ (R352). -/
def execRngdataRead (r : Requester) (sealedReg : Bool) (s : State) : Answer :=
  .next (s.byReq r (if sealedReg then Reg.KILN_RNGDATA_S.at else Reg.KILN_RNGDATA.at) (fun s => (s.rngRead (s.worldOf r) sealedReg).1))

/-- HEALTH_TEST_FAILURE (R352, R360 UNIT 0x03). -/
def execHealthTestFailure (s : State) : Answer :=
  .next (((s.setRb Reg.KILN_RNGSTAT.at 0 false).setRb Reg.KILN_RNGSTAT.at 1 true).record
    { bank := 36, unit := 0x03, code := 0x05, sev := .contained, misc0 := 0xFF })

/-- A write of RNGCTL (R352): RESTART reruns the start-up test, and both instances run from a fresh seed. -/
def State.writeRngCtl (s : State) (w : Bool) (v : W32) : State :=
  if !w ∨ !bit v 0 then s
  else
    let s := (s.setRb Reg.KILN_RNGSTAT.at 1 false).setRb Reg.KILN_RNGSTAT.at 0 true
    { s with vault := { s.vault with reads := 0, readsS := 0 } }

/-- RNG_RESTART (R352). -/
def execRngRestart (r : Requester) (s : State) : Answer :=
  .next (s.byReq r Reg.KILN_RNGCTL.at (fun s => s.writeRngCtl (s.worldOf r) 1))

end Sys2Proof.Machine
end

