-- ==== Sys2Proof/Machine/Inject.lean ====
section
/-! DEFINITION. Diagnostics and fault injection (chapter Diagnostics and Fault Injection): permission (R539, R540), bit injectors (R541, R542), the report of an
injected fault (R543) and the reserve-core test (R545). -/
namespace Sys2Proof.Machine

/-- Injection permission (R539). -/
def State.injPermitted (s : State) : Bool :=
  !s.scrapped && s.rb Reg.DEBUG_AUTH.at 1 && (s.rf Reg.BOOT_LCS.at 2 0 != 2 || s.rb Reg.DEBUG_DIAG.at 0)

/-- Permission's lapse (R540): every FINJ.EN and BINJ_CTL.ARM reads 0; COUNT is kept. DIAG.PERM shows permission. -/
def State.injLapse (s : State) : State :=
  let p := s.injPermitted
  let s := s.setRb Reg.DEBUG_DIAG.at 8 p
  if p then s
  else
    let s := (List.range 4).foldl (fun s i => s.setRb (Reg.DEBUG_BINJ_CTL.at i) 31 false) s
    let s := (List.range 96).foldl (fun s i => if s.rb (Reg.ADPT_FINJ.at i) 31 then s.setRb (Reg.ADPT_FINJ.at i) 31 false else s) s
    (List.range 6).foldl (fun s i => s.setRb (Reg.RELAY_FINJ.at i) 31 false) s

/-- The record of an injected fault (R543): CODE 0x0E, the imitated class in MISC0, the real MISC0 and MISC1 moved up,
and the injector in MISC3. -/
def ErrRec.injected (e : ErrRec) (i : Nat) : ErrRec :=
  { e with code := 0x0E, misc0 := e.code, misc1 := e.misc0, misc2 := e.misc1, misc3 := 2 ^ 31 + i % 4 }

/-- A record as the finding says it is caused. -/
def ErrRec.cause (e : ErrRec) : Ecc → ErrRec
  | .injCorrected i | .injUncorrectable i => e.injected i
  | _ => e

/-- May an injector be armed for its target (R542)? -/
def State.injTargetOk (s : State) (v : W32) : Bool :=
  let c := fld v 29 24
  let unit := fld v 23 16
  let bank := fld v 15 10
  let nb := max 1 (fld v 9 8)
  let severe := s.rb Reg.DEBUG_DIAG.at 1
  s.online c &&
  (if bank = 9 then unit == 0x00 || (unit == 0x01 && (nb == 1 || severe))
   else if bank = 32 then unit == 0x00
   else bank == 1 + c / 6 &&
    (if unit = 0x20 ∨ unit = 0x21 ∨ unit = 0x27 ∨ unit = 0x01 ∨ unit = 0x02 ∨ unit = 0x03 then nb == 1
     else if unit = 0x22 ∨ unit = 0x11 then nb == 1 || severe
     else unit == 0x29 || unit == 0x00 || unit == 0x10))

/-- A write of BINJ_CTL (R539, R542): without permission ARM is left 0; a target that fails sets ERR. -/
def State.writeBinj (s : State) (world : Bool) (i : Nat) (v : W32) : State :=
  let a := Reg.DEBUG_BINJ_CTL.at i
  if !bit v 31 then s.writeFields world a v
  else if !s.injPermitted then s.setRb a 31 false
  else if !s.injTargetOk v then ((s.writeFields world a (setFld v 31 31 0)).setRb a 30 true)
  else s.writeFields world a v

/-- BINJ_ARM (R542). -/
def execBinjArm (r : Requester) (i : Nat) (v : W32) (s : State) : Host.Outcome State Fault Refusal :=
  .next (if i < 4 then s.byReq r (Reg.DEBUG_BINJ_CTL.at i) (fun s => s.writeBinj (s.worldOf r) i v) else s)

/-- The Contained record of a reserve core that fails its self-test (R170). -/
def State.reserveFails (s : State) (n : Nat) : State :=
  let st := Reg.CLUSTER_SPARESTAT.at n
  ((s.setRf st 1 0 2).setRb st 19 true).record { bank := 1 + n, unit := 0x2E, code := 0x05, sev := .contained }

/-- RSVTEST.GO (R545): the logic self-test of an idle reserve core. The test runs whole in this step (log entry 8). -/
def State.reserveTest (s : State) (n : Nat) (pass : Bool) : State :=
  let a := Reg.CLUSTER_RSVTEST.at n
  let st := Reg.CLUSTER_SPARESTAT.at n
  let s := s.setRb a 31 false
  if s.rf st 1 0 ≠ 0 ∨ s.rb st 31 then s.setRf a 1 0 3
  else if pass then s.setRf a 1 0 1
  else (s.setRf a 1 0 2).reserveFails n

/-- RSVTEST (R545). -/
def execRsvtest (r : Requester) (n : Nat) (pass : Bool) (s : State) : Host.Outcome State Fault Refusal :=
  .next (if n < 8 then s.byReq r (Reg.CLUSTER_RSVTEST.at n) (fun s => s.reserveTest n pass) else s)

end Sys2Proof.Machine
end

