-- ==== Sys2Proof/Machine/CoreMem.lean ====
section
/-! DEFINITION. The store buffer (R181-R183), writes into the caches (R25, R103, R229), asynchronous reports (R151, R164)
and the cache operations that instructions and registers share (R221-R223). wr performs a register write: what a
drained Device store does. -/
namespace Sys2Proof.Machine

/-- How a register write is performed for a requester. -/
abbrev RegWriter := State → Requester → Nat → W32 → State

/-- The level that R142 gives an exception with vector v raised at a level. -/
def Core.routeOf (k : Core) (lvl v : Nat) : Nat :=
  if lvl ≥ 2 then lvl else if v = 9 ∨ (v < 32 ∧ bit (k.srd 0x887) v) then 2 else 1

/-- The report of a store becomes pending (R151): a further one sets MULTI of the pending report. -/
def State.report (s : State) (c : Nat) (r : AsyncRep) : State :=
  s.modCore c (fun k => match k.report with
    | none => { k with report := some r }
    | some o => { k with report := some { o with multi := true } })

/-- The report of an error response to a store (R151). -/
def State.reportStore (s : State) (c : Nat) (device : Bool) (lvl : Nat) (va : W64) : State :=
  let t := (s.core c).routeOf lvl 0x0B
  s.report c (if device then { vec := 0x0B, tgt := t, multi := false, asyncBit := true, wnr := true, far := va }
    else { vec := 0x0C, tgt := t, multi := false, asyncBit := true, wnr := false, far := 0 })

/-! ## Writes into the caches -/

/-- Is a copy of a line taken away by a cached store of a core: every copy but the core's own L1D, its cluster's L2 and
the Cellar? Locked ways keep a reserved tag (R226). -/
def takenByStore (c : Nat) (x : Copy) : Bool :=
  !(x.place == .l1d c || x.place == .l2 (clusterOf c) || x.place == .cellar)

/-- The copies of a line after a cached store of a core. -/
def State.afterStore (s : State) (c : Nat) (cs : List Copy) : List Copy :=
  cs.filterMap (fun x => if takenByStore c x then (if s.wayLocked x then some { x with reserved := true } else none) else some x)

/-- The own reservation ends when the core stores to its granule (R103). -/
def State.ownStore (s : State) (c a n : Nat) : State :=
  s.modCore c (fun k => if k.resv = some (a / 128) ∨ (n ≠ 0 ∧ k.resv = some ((a + n - 1) / 128)) then { k with resv := none, hold := none, overlaid := [] } else k)

/-- The new data of a line in its cluster (R212, R216): in the core's L1D when that holds a copy, else in L2; with no copy in either (R226), in the
Cellar's copy or in memory. -/
def State.putLineData (s : State) (c n : Nat) (new : List Byte) (poison : Bool) : State :=
  let l := s.mem.line n
  if (s.mem.copyAt n (.l1d c)).isSome then
    { s with mem := s.mem.setLine n { l with l1 := some { core := c, data := new, poison := poison }, owner := some (clusterOf c) } }
  else
    let inL2 := (s.mem.copyAt n (.l2 (clusterOf c))).isSome
    let s := { s with mem := s.mem.setLine n { l with l1 := none, dirty := some new, poison := poison, owner := if inL2 then some (clusterOf c) else none } }
    if inL2 || (s.mem.copyAt n .cellar).isSome then s else s.cleanLine n

/-- Words of a line are written where its data lies for a core (R541): in its L1D, in L2 or in the Cellar. -/
def State.injectStore (s : State) (c n : Nat) (words : List Nat) : State :=
  match ([.l1d c, .l2 (clusterOf c), .cellar] : List CopyAt).find? (fun pl => (s.mem.copyAt n pl).isSome) with
  | some pl => words.foldl (fun s w => s.injectCopy n (some w) pl) s
  | none => s

/-- Bytes that lie in one line are written by a core's Normal-cached store: the line is allocated and dirty in its cluster (R182), other
copies go, and other cores' reservations on the granule are lost (R25, R103, R179). -/
def State.cachedWrite (s : State) (c : Nat) (t : AccessTag) (bs : List (Nat × Byte)) : State :=
  match bs with
  | [] => s
  | (a, _) :: _ =>
    let n := a / 64
    let poison := s.mem.poisonAt a
    let new := bs.foldl (fun d e => d.set (e.1 % 64) e.2) ((List.range 64).map (fun i => s.mem.byte (n * 64 + i)))
    let l := s.mem.line n
    let l := match l.l1 with | some d => if d.core = c then l else l.mergeL1 | none => l
    let s := { s with mem := s.mem.setLine n { l with copies := s.afterStore c l.copies } }
    let s := ((s.fillL1d c n t).putLineData c n new poison).injectStore c n (bs.map (fun e => e.1 % 64 / 8)).eraseDups
    s.loseReservations (some c) (bs.map (fun e => e.1))

/-- A whole line is written and its mark cleared: by DC.ZERO, which removes every other copy (R221), or by a block chunk that covers it (R229). -/
def State.lineWrite (s : State) (c : Nat) (t : AccessTag) (a : Nat) (bs : List Byte) (zero : Bool) : State :=
  let n := a / 64
  let s := s.cachedWrite c t ((List.range 64).map (fun i => (n * 64 + i, bs.getD i 0)))
  let l := s.mem.line n
  let m := s.mem.setLine n { l with l1 := l.l1.map (fun d => { d with poison := false }), poison := false }
  let s := { s with mem := if l.isDirty then m else m.setPoison n false }
  if zero then s.discardAt n (fun x => x.place == .cellar) true else s

/-- The places that serve a core's Normal-cached data access before the Cellar: L1D and its eviction buffer, the prefetch side buffer, L2. -/
def dataPlaces (c : Nat) : List CopyAt := [.l1d c, .evictL1 c false, .evictL1 c true, .side c] ++ l2Places (clusterOf c)

/-! ## The store buffer -/

/-- What the check of a store-buffer entry finds, with what an injector has left in it (R541). -/
def State.sbFound (s : State) (c : Nat) (e : SbEntry) (ecc : Ecc) : Ecc := s.foundAt (1 + clusterOf c) 0x29 c (e.pa / 16) ecc

/-- The Deferred or Corrected record of an error in a store-buffer entry (R159, R164). -/
def State.sbRecord (s : State) (c : Nat) (e : SbEntry) (ecc : Ecc) : State :=
  let ecc := s.sbFound c e ecc
  let s := s.unmark (1 + clusterOf c) 0x29 c (e.pa / 16) none
  match eccFound ecc with
  | none => s
  | some unc =>
    s.record (ErrRec.cause { bank := 1 + clusterOf c, unit := 0x29, code := if unc then 0x02 else 0x01,
                             sev := if unc then .deferred else .corrected, poison := unc && !e.rtype.device, addr := some e.pa, tag := some e.tag } ecc)

/-- The bytes of a Normal entry in rising order. -/
def SbEntry.sorted (e : SbEntry) : List (Nat × Byte) :=
  (List.range 16).filterMap (fun i => e.bytes.find? (fun x => x.1 == e.pa / 16 * 16 + i))

/-- A Normal entry goes to a window (R195): one write for each run of its bytes. Poisoned data is marked poisoned to the host (R164, R409); to a
Relay window, whose writes carry no mark, it is not sent. DESIGN CHOICE (log entry 43). -/
def State.drainWindow (s : State) (c : Nat) (e : SbEntry) (poison : Bool) (resp : Resp) : State :=
  match s.admits e.tag true e.pa with
  | (s, some _) => s.reportStore c false e.lvl e.va
  | (s, none) =>
    if s.isHost e.pa then
      let s := (runs e.sorted).foldl (fun (s : State) r => if poison then s.hostPoison 0 r.1 r.2 else s.hostWrite 0 r.1 r.2) s
      if resp = .ok then s else s.reportStore c false e.lvl e.va
    else if poison then s
    else (runs e.sorted).foldl (fun (s : State) r => s.windowWrite r.1 r.2 (.coreWr c false e.lvl e.va r.1)) s

/-- A Normal entry is written: cached into L1D or L2, uncached to the fabric; poison marks its line (R164). -/
def State.drainNormal (s : State) (c : Nat) (e : SbEntry) (poison : Bool) (resp : Resp) : State :=
  if inWindow e.pa then s.drainWindow c e poison resp
  else
    match s.checkHit (if e.rtype = .cached then dataPlaces c else []) e.tag true e.pa with
    | (s, some _) => s.reportStore c false e.lvl e.va
    | (s, none) =>
      let s := if e.rtype = .cached then s.cachedWrite c e.tag e.bytes
        else e.bytes.foldl (fun s x => s.writeLine (some c) x.1 [x.2]) s
      if poison then { s with mem := s.mem.markPoison (e.pa / 64) } else s

/-- The record of a register access of the wrong size or alignment (R10, R565). -/
def State.sizeError (s : State) (t : AccessTag) (a : Nat) : State :=
  s.record { bank := 0, unit := 0x01, code := 0x07, sev := .deferred, addr := some a, tag := some t }

/-- A Device entry is issued (R182, R188): a register write of one aligned word, or a posted write to a window; any
other target answers as the fabric does. -/
def State.drainDevice (wr : RegWriter) (s : State) (c : Nat) (e : SbEntry) (resp : Resp) : State :=
  let bs := e.bytes.map (fun x => x.2)
  match s.admits e.tag true e.pa with
  | (s, some _) => s.reportStore c true e.lvl e.va
  | (s, none) =>
    if inRegs e.pa then
      if bs.length = 4 ∧ e.pa % 4 = 0 then wr s (.core c) e.pa (BitVec.ofNat 32 (leNat bs))
      else (s.sizeError e.tag e.pa).reportStore c true e.lvl e.va
    else if inWindow e.pa then
      let s := s.windowWrite e.pa bs (.coreWr c true e.lvl e.va e.pa)
      if resp = .ok ∨ !s.isHost e.pa then s else s.reportStore c true e.lvl e.va
    else s.writeLine (some c) e.pa bs

/-- A Device entry that can leave: it is discarded with a report where it holds an uncorrectable error (R164), else issued. A strict entry stays
until its target has acknowledged it (R190). -/
def State.issueDevice (wr : RegWriter) (s : State) (c : Nat) (e : SbEntry) (unc : Bool) (resp : Resp) : State :=
  if unc then s.reportStore c true e.lvl e.va
  else
    let s := s.drainDevice wr c e resp
    if e.rtype = .devStrict ∧ s.unacknowledged c then s.modCore c (fun k => { k with sbuf := { e with sent := true } :: k.sbuf }) else s

/-- A core that waits for its Device-strict store goes on once its store buffer is empty (R190). -/
def State.strictDone (s : State) (c : Nat) : State :=
  let k := s.core c
  if k.wait = .ack ∧ k.sbuf = [] then s.setCore c { k with wait := .none } else s

/-- The oldest entry leaves the store buffer (R182). A Device-strict entry waits for the acknowledgement of every older Device write, and
holds the buffer until its own (R190). -/
def State.drainOne (wr : RegWriter) (s : State) (c : Nat) (ecc : Ecc) (resp : Resp) : State :=
  match (s.core c).sbuf with
  | [] => s
  | e :: rest =>
    if e.rtype = .devStrict ∧ s.unacknowledged c then s
    else
      let s := s.modCore c (fun k => { k with sbuf := rest })
      let unc := eccFound (s.sbFound c e ecc) == some true
      let s := s.sbRecord c e ecc
      (if e.rtype.device then s.issueDevice wr c e unc resp else s.drainNormal c e unc resp).strictDone c

/-- n entries drain, oldest first. -/
def State.drainN (wr : RegWriter) : Nat → State → Nat → State
  | 0, s, _ => s
  | n + 1, s, c => State.drainN wr n (s.drainOne wr c .ok .ok) c

/-- The whole store buffer drains; a Device-strict entry that is not acknowledged stays. -/
def State.drainAll (wr : RegWriter) (s : State) (c : Nat) : State := State.drainN wr (s.core c).sbuf.length s c

/-- A Device write of a core is acknowledged (R184, R190): the strict entry that waits for it leaves. -/
def State.acknowledged (s : State) (c : Nat) : State :=
  match (s.core c).sbuf with
  | e :: rest => if e.sent ∧ s.unacknowledged c = false then (s.modCore c (fun k => { k with sbuf := rest })).strictDone c else s
  | [] => s

/-- The store buffer of a core that is reset or lost holds nothing more (R197): its entries have drained as far as they can, and no
answer to an access of the core is waited for. -/
def State.abandonStores (wr : RegWriter) (s : State) (c : Nat) : State :=
  ((s.drainAll wr c).dropCore c true).modCore c (fun k => { k with sbuf := [] })

/-- One part of a store enters the buffer (R181): a Normal store that lies in the block of the youngest entry merges into it when its region type is
the same, and keeps its tag, address and level (DESIGN CHOICE, log entry 43); anything else takes a new entry, and a full buffer drains its oldest first. -/
def State.pushPart (wr : RegWriter) (s : State) (c : Nat) (whole : Bool) (e : SbEntry) : State :=
  let k := s.core c
  match k.sbuf.getLast? with
  | some y =>
    if whole && !e.rtype.device && y.rtype == e.rtype && y.pa / 16 == e.pa / 16 then
      let bs := y.bytes.filter (fun x => !(e.bytes.any (fun z => z.1 == x.1))) ++ e.bytes
      s.setCore c { k with sbuf := k.sbuf.dropLast ++ [{ y with bytes := bs }] }
    else
      let s := if k.sbuf.length ≥ 12 then s.drainOne wr c .ok .ok else s
      s.modCore c (fun k => { k with sbuf := k.sbuf ++ [e] })
  | none => s.setCore c { k with sbuf := [e] }

/-- Bytes in rising order, cut at 16-byte blocks (R181). The fuel bounds the blocks. -/
def splitBlocks : Nat → List (Nat × Byte) → List (List (Nat × Byte))
  | _, [] => []
  | 0, l => [l]
  | f + 1, x :: t => (x :: t.takeWhile (fun y => y.1 / 16 == x.1 / 16)) :: splitBlocks f (t.dropWhile (fun y => y.1 / 16 == x.1 / 16))

/-- The bytes of a store, in rising order, enter the buffer: split at 16-byte blocks unless Device. whole: they are not a part of a store that another
page holds too. -/
def State.pushCells (wr : RegWriter) (s : State) (c : Nat) (t : AccessTag) (lvl : Nat) (va : W64) (ty : RType) (cells : List (Nat × Byte))
    (whole : Bool) : State :=
  let s := s.injectWrite (1 + clusterOf c) 0x29 (some c) none ((cells.headD (0, 0)).1 / 16) none
  let parts := if ty.device then [cells] else splitBlocks cells.length cells
  parts.foldl (fun s l => s.pushPart wr c (whole && parts.length == 1)
    { pa := (l.headD (0, 0)).1, bytes := l, rtype := ty, va := va, lvl := lvl, tag := t, sent := false }) s

/-- A store of bytes at consecutive physical addresses enters the buffer. -/
def State.pushStore (wr : RegWriter) (s : State) (c : Nat) (t : AccessTag) (lvl : Nat) (va : W64) (pa : Nat) (ty : RType)
    (bs : List Byte) (whole : Bool) : State :=
  (s.ownStore c pa bs.length).pushCells wr c t lvl va ty ((List.range bs.length).map (fun i => (pa + i, bs.getD i 0))) whole

/-- Does a store-buffer entry hold any of n bytes from an address? -/
def SbEntry.overlaps (e : SbEntry) (pa n : Nat) : Bool := e.bytes.any (fun x => decide (pa ≤ x.1) && decide (x.1 < pa + n))

/-- The bytes that an entry gives for n bytes from an address, if it holds all of them. -/
def SbEntry.serves (e : SbEntry) (pa n : Nat) : Option (List Byte) :=
  (List.range n).mapM (fun i => (e.bytes.find? (fun x => x.1 == pa + i)).map (fun x => x.2))

/-- The store-buffer entries that overlap n bytes from an address are written (R183): the buffer drains up to and including the youngest of them. -/
def State.drainOver (wr : RegWriter) (s : State) (c pa n : Nat) : State :=
  let sb := (s.core c).sbuf
  if sb.any (fun e => e.overlaps pa n) then
    State.drainN wr (sb.length - (sb.reverse.takeWhile (fun e => !e.overlaps pa n)).length) s c
  else s

/-- Store-to-load forwarding (R183): the bytes of the youngest overlapping entry when it holds all of them and has the
load's type; else every overlapping entry drains first. -/
def State.forward (wr : RegWriter) (s : State) (c pa n : Nat) (ty : RType) : State × Option (List Byte) :=
  match (s.core c).sbuf.reverse.find? (fun e => e.overlaps pa n) with
  | none => (s, none)
  | some e =>
    match (if e.rtype = ty ∧ !ty.device then e.serves pa n else none) with
    | some bs => (s, some bs)
    | none => (s.drainOver wr c pa n, none)

/-! ## Cache operations -/

/-- Lines that a core's L1D or L1I holds, or an L2 or a slice of the Cellar. -/
def State.linesAt (s : State) (p : Copy → Bool) : List Nat :=
  (s.mem.lines.filter (fun e => e.2.copies.any (fun x => p x && !x.reserved))).map (fun e => e.1)

/-- The dirty lines of a core's L1D go to its cluster's L2 (R223, R481, R522), where they stay dirty; with invalidate the L1D copies go too. -/
def State.cleanL1d (s : State) (c : Nat) (invalidate : Bool) : State :=
  (s.linesAt (fun x => x.place == .l1d c)).foldl (fun s n =>
    let l := s.mem.line n
    let s := { s with mem := s.mem.setLine n (match l.l1 with | some d => if d.core = c then l.mergeL1 else l | none => l) }
    if invalidate then s.discardAt n (fun x => x.place == .l1d c) false else s) s

/-- CACHECTL.DINV (R223): every line of L1D is invalidated, and dirty data that only this L1D holds is lost. -/
def State.invalidateL1d (s : State) (c : Nat) : State :=
  (s.linesAt (fun x => x.place == .l1d c)).foldl (fun s n =>
    let l := s.mem.line n
    let l := match l.l1 with | some d => if d.core = c then { l with l1 := none } else l | none => l
    { s with mem := s.mem.setLine n { l with copies := l.copies.filter (fun x => x.place != .l1d c) } }) s

/-- Every L1I line and the line buffer of a core go. -/
def State.invalidateL1i (s : State) (c : Nat) : State :=
  (s.linesAt (fun x => x.place == .l1i c || x.place == .lineBuf c)).foldl (fun s n =>
    s.discardAt n (fun x => x.place == .l1i c || x.place == .lineBuf c) false) s

/-- The line buffer of a core is discarded (R123, R110). -/
def State.dropLineBuf (s : State) (c : Nat) : State :=
  (s.linesAt (fun x => x.place == .lineBuf c)).foldl (fun s n => s.discardAt n (fun x => x.place == .lineBuf c) false) s

/-- Everything a core's L1 caches and side buffer hold goes, reserved tags included (R168, R482). -/
def State.emptyL1 (s : State) (c : Nat) : State :=
  let mine := fun (x : Copy) => [.l1d c, .l1i c, .lineBuf c, .side c, .evictL1 c false, .evictL1 c true].contains x.place
  let ns := (s.mem.lines.filter (fun e => e.2.copies.any mine)).map (fun e => e.1)
  ns.foldl (fun s n => s.discardAt n mine false) s

/-- The reserved lines of ways whose lock is cleared become invalid lines (R226). -/
def State.unlockWays (s : State) (here : CopyAt → Bool) (stillLocked : Nat → Bool) : State :=
  let gone := fun (x : Copy) => here x.place && x.reserved && !stillLocked x.way
  let ns := (s.mem.lines.filter (fun e => e.2.copies.any gone)).map (fun e => e.1)
  ns.foldl (fun s n =>
    let l := s.mem.line n
    { s with mem := s.mem.setLine n { l with copies := l.copies.filter (fun x => !gone x) } }) s

/-- L2OP of a cluster (R223): every line of its L2 is cleaned, and with CLINV discarded from its L2 and L1s. -/
def State.l2op (s : State) (n : Nat) (invalidate : Bool) : State :=
  (s.linesAt (fun x => x.place == .l2 n)).foldl (fun s k =>
    let s := s.cleanLine k
    if invalidate then s.leaveL2 n k else s) s

end Sys2Proof.Machine
end

