-- ==== Sys2Proof/Machine/Intd.lean ====
section
/-! DEFINITION. The interrupt distributor (chapter Interrupt Distributor): which source a core is offered (R143, R423), acknowledgement
(R424), the running-priority stack and completion (R425-R427), level lines (R421, R422), loss and resets (R429, R430). -/
namespace Sys2Proof.Machine

/-- Is a private source reserved (R420): never raised? -/
def reservedPrivate (p : Nat) : Bool := (decide (3 ≤ p) && decide (p ≤ 7)) || (decide (10 ≤ p) && decide (p ≤ 14))

/-- The status register of a source by SNUM, for a core (R419); none for an SNUM that names no source, or a reserved one. -/
def snumStat (c n : Nat) : Option Nat :=
  if n < 1024 then some (Reg.INTD_SSTAT.at n)
  else if 1024 ≤ n ∧ n < 1056 ∧ c < numCores ∧ !reservedPrivate (n - 1024) then some (Reg.INTD_PSTAT.at c (n - 1024))
  else none

/-- The target level that an LVL field acts as: 0 acts as K (SCFG's table). -/
def actLvl (l : Nat) : Nat := if l = 0 then 1 else l

/-- A source that a core could be given: number, priority and target level. -/
structure IrqCand where
  snum : Nat
  prio : Nat
  lvl : Nat
deriving DecidableEq, Repr

/-- The entry of a core's running-priority stack at a depth. -/
def State.rps (s : State) (c i : Nat) : W32 := s.reg (Reg.INTD_RPS.at c i)

/-- The entries above the base of a core's stack (R425). -/
def State.rpsDepth (s : State) (c : Nat) : Nat := ((List.range' 1 15).filter (fun i => bit (s.rps c i) 31)).length

/-- The running priority of a core (R423). -/
def State.runPrio (s : State) (c : Nat) : Nat :=
  let d := s.rpsDepth c
  if d = 0 then 0 else fld (s.rps c d) 19 16

/-- The private sources of a core that are pending, enabled and not active (R422). -/
def State.privateCands (s : State) (c : Nat) : List IrqCand :=
  (List.range 32).filterMap (fun p =>
    let st := s.reg (Reg.INTD_PSTAT.at c p)
    let cf := s.reg (Reg.INTD_PCFG.at c p)
    if bit st 0 && !bit st 1 && fld cf 3 0 != 0 then
      some { snum := 1024 + p, prio := fld cf 3 0, lvl := if p = 9 then 3 else actLvl (fld cf 25 24) }
    else none)

/-- The shared sources that target a core and are pending, enabled and not active (R422). A source without a listed
status register has the reset value and is not pending. -/
def State.sharedCands (s : State) (c : Nat) : List IrqCand :=
  s.regs.filterMap (fun e =>
    if Reg.INTD_SSTAT.base ≤ e.1 ∧ e.1 < Reg.INTD_SSTAT.base + 4096 ∧ bit e.2 0 ∧ !bit e.2 1 then
      let n := (e.1 - Reg.INTD_SSTAT.base) / 4
      let cf := s.reg (Reg.INTD_SCFG.at n)
      if fld cf 21 16 = c ∧ fld cf 3 0 ≠ 0 then some { snum := n, prio := fld cf 3 0, lvl := actLvl (fld cf 25 24) }
      else none
    else none)

/-- Does a candidate come before another (R423): higher priority, then private before shared, then the lower SNUM? -/
def IrqCand.before (a b : IrqCand) : Bool :=
  decide (b.prio < a.prio) ||
    (a.prio == b.prio && (decide (1024 ≤ a.snum ∧ b.snum < 1024) ||
      (decide (1024 ≤ a.snum) == decide (1024 ≤ b.snum) && decide (a.snum < b.snum))))

/-- The best of a list of candidates. -/
def bestCand : List IrqCand → Option IrqCand
  | [] => none
  | a :: t => match bestCand t with
    | none => some a
    | some b => if b.before a then some b else some a

/-- The interrupt that a core takes among the offered ones that R143 allows (R423), if any. One that targets M stays pending while
entries to M are held (R440). -/
def State.takeable (s : State) (c : Nat) : Option IrqCand :=
  let k := s.core c
  if !s.rb Reg.INTD_CTL.at 0 then none
  else
    let run := s.runPrio c
    bestCand ((s.privateCands c ++ s.sharedCands c).filter
      (fun a => decide (run < a.prio) && decide (k.lvl ≤ a.lvl) && decide (k.mlv < a.prio) && !(a.lvl == 3 && s.mHeld c)))

/-- pending_interrupt() of the pseudocode (R109, R143). -/
def State.pendingInterrupt (s : State) (c : Nat) : Bool := (s.takeable c).isSome

/-- Is a shared source a level source: driven by a line, with TRIG = 1 (R421)? -/
def State.levelSource (s : State) (n : Nat) : Bool :=
  decide (n < 1024) && Sparse.get false s.lines n && s.rb (Reg.INTD_SCFG.at n) 8

/-- Acknowledgement of a source by a core (R424). -/
def State.acknowledge (s : State) (c : Nat) (a : IrqCand) : State :=
  match snumStat c a.snum with
  | none => s
  | some st =>
    let keep := s.levelSource a.snum && s.rb st 4
    let s := if keep then s else s.setRb st 0 false
    let s := s.setRb st 1 true
    let d := s.rpsDepth c
    s.setReg (Reg.INTD_RPS.at c (d + 1)) (BitVec.ofNat 32 (2 ^ 31 + a.lvl * 2 ^ 24 + a.prio * 2 ^ 16 + a.snum))

/-- The entry at a depth leaves the stack and its source's ACTIVE is cleared; a level line is sampled anew (R426). -/
def State.popEntry (s : State) (c d : Nat) : State :=
  let n := fld (s.rps c d) 10 0
  let s := s.setReg (Reg.INTD_RPS.at c d) (resetAt (Reg.INTD_RPS.at c d))
  match snumStat c n with
  | none => s
  | some st =>
    let s := s.setRb st 1 false
    if s.levelSource n then s.setRb st 0 (s.rb st 4) else s

/-- The completion of R426, for an MTS to IEOI at a level. -/
def State.complete (s : State) (c lvl snum : Nat) : State :=
  let d := s.rpsDepth c
  let top := s.rps c d
  if d ≠ 0 ∧ lvl < fld top 25 24 then s
  else if d ≠ 0 ∧ fld top 10 0 = snum then s.popEntry c d
  else
    let topN := if d = 0 then 0x7FF else fld top 10 0
    (s.raisePrivate c 15).record
      { bank := 44, unit := 0x01, code := 0x07, sev := .deferred, tag := some ((s.core c).tag c),
        misc0 := snum % 2048 + topN * 2 ^ 16 }

/-- ISTKCLR (R427): entries leave from the top down, as far as the level may complete them. -/
def State.clearStack : Nat → State → Nat → Nat → State
  | 0, s, _, _ => s
  | f + 1, s, c, lvl =>
    let d := s.rpsDepth c
    if d = 0 ∨ lvl < fld (s.rps c d) 25 24 then s else State.clearStack f (s.popEntry c d) c lvl

/-- The stack of an offline or reset core is emptied; each shared source that was active there is pending again, and the private bank keeps its state
(R429, R430). -/
def State.emptyStack (s : State) (c : Nat) : State :=
  (List.range' 1 15).foldl (fun s i =>
    let e := s.rps c i
    if bit e 31 then
      let n := fld e 10 0
      let s := s.setReg (Reg.INTD_RPS.at c i) (resetAt (Reg.INTD_RPS.at c i))
      match snumStat c n with
      | none => s
      | some st => if n < 1024 then (s.setRb st 1 false).setRb st 0 true else s
    else s) s

/-- The private bank of a core loses PEND and ACTIVE (R430). -/
def State.clearPrivate (s : State) (c : Nat) : State :=
  (List.range 32).foldl (fun s p => (s.setRb (Reg.INTD_PSTAT.at c p) 0 false).setRb (Reg.INTD_PSTAT.at c p) 1 false) s

/-- SEALED-RESTART completes every stack entry whose LVL is M, wherever it stands, and leaves the others (R430). -/
def State.dropSealedEntries (s : State) (c : Nat) : State :=
  let keep := ((List.range' 1 15).map (fun i => s.rps c i)).filter (fun e => bit e 31 && fld e 25 24 != 3)
  let gone := ((List.range' 1 15).map (fun i => s.rps c i)).filter (fun e => bit e 31 && fld e 25 24 == 3)
  let s := gone.foldl (fun s e =>
    let n := fld e 10 0
    match snumStat c n with
    | none => s
    | some st =>
      let s := s.setRb st 1 false
      if s.levelSource n then s.setRb st 0 (s.rb st 4) else s) s
  (List.range' 1 15).foldl (fun s i => s.setReg (Reg.INTD_RPS.at c i) (keep.getD (i - 1) (resetAt (Reg.INTD_RPS.at c i)))) s

/-- The level line of a shared source takes a state (R421, R422). -/
def State.lineState (s : State) (n : Nat) (high : Bool) : State :=
  if n ≥ 1024 then s
  else
    let st := Reg.INTD_SSTAT.at n
    let was := s.rb st 4
    let s := { s with lines := Sparse.set false s.lines n true }
    let s := s.setRb st 4 high
    if s.rb (Reg.INTD_SCFG.at n) 8 then (if s.rb st 1 then s else s.setRb st 0 high)
    else if high ∧ !was then s.edgeAt st else s

/-- A GPIO ball takes a level (R559): DIN shows it, and a pad with IRQEN drives its shared source. -/
def State.gpioState (s : State) (i : Nat) (high : Bool) : State :=
  if i ≥ 96 then s
  else
    let s := s.setRb (Reg.GPIO_DIN.at (i / 32)) (i % 32) high
    let pad := s.reg (Reg.PINMUX_PAD.at i)
    if bit pad 31 then s.lineState (fld pad 25 16) (high != bit pad 30) else s

/-- EDGE_EVENT (R422): an edge on a source by SNUM; c names the core of a private source. -/
def execEdgeEvent (c snum : Nat) (s : State) : Host.Outcome State Fault Refusal :=
  .next (match snumStat c snum with
    | some st => s.edgeAt st
    | none => s)

/-- What the code of the configuration and state arrays finds at an access (R432 UNIT 0x00). -/
def State.intdCheck (s : State) : ArrayCheck → State
  | .ok => s
  | .corrected => s.record { bank := 44, unit := 0x00, code := 0x01, sev := .corrected }
  | .bad => s.record { bank := 44, unit := 0x00, code := 0x02, sev := .fatal }

/-- LEVEL_LINE (R421): a level line changes: of a shared source, or of a GPIO ball (R559). chk: what the distributor's arrays show. -/
def execLevelLine (src : LineIn) (high : Bool) (chk : ArrayCheck) (s : State) : Host.Outcome State Fault Refusal :=
  let s := s.intdCheck chk
  .next (match src with
    | .shared n => s.lineState n high
    | .gpio i => s.gpioState i high)

/-- PEND of a level source that is not ACTIVE follows its line (R422). -/
def State.followLine (s : State) (n : Nat) : State :=
  let st := Reg.INTD_SSTAT.at n
  if s.levelSource n && !s.rb st 1 then s.setRb st 0 (s.rb st 4) else s

/-- A write of SSTAT or PSTAT: SETP sets PEND as an edge after the W1C fields are cleared (R15, R422), but not of a reserved private source, which is never raised (R420). -/
def State.writeStat (s : State) (world : Bool) (a : Nat) (v : W32) : State :=
  if s.allSw a && !world then s
  else
    let s := (s.writeFields world a v).setRb a 8 false
    let s := if Reg.INTD_SSTAT.holds a then s.followLine ((a - Reg.INTD_SSTAT.base) / 4) else s
    if bit v 8 ∧ !(Reg.INTD_PSTAT.holds a && reservedPrivate ((a - Reg.INTD_PSTAT.base) / 4 % 32)) then s.edgeAt a else s

/-- A write of SCFG or PCFG (R431): the open world cannot give a source LVL M. PEND of a level source follows its line (R422). -/
def State.writeCfg (s : State) (world : Bool) (a : Nat) (v : W32) : State :=
  let old := s.rf a 25 24
  let s := s.writeFields world a v
  let s := if !world ∧ s.rf a 25 24 = 3 then s.setRf a 25 24 old else s
  if Reg.INTD_SCFG.holds a then s.followLine ((a - Reg.INTD_SCFG.base) / 4) else s

/-- A write of CSIG (R420, R431). -/
def State.writeCsig (s : State) (world : Bool) (v : W32) : State :=
  let c := fld v 21 16
  let p := 16 + fld v 3 0
  if c ≥ numCores ∨ (!world ∧ s.rb (Reg.INTD_PCFG.at c p) 31) then s else s.raisePrivate c p

/-- SETP (R422): a write of an SSTAT or PSTAT register by a requester. -/
def execSetp (r : Requester) (addr : Nat) (v : W32) (s : State) : Host.Outcome State Fault Refusal :=
  .next (if Reg.INTD_SSTAT.holds addr ∨ Reg.INTD_PSTAT.holds addr then s.byReq r addr (fun s => s.writeStat (s.worldOf r) addr v) else s)

/-- CSIG (R420): a write of INTD.CSIG by a requester. -/
def execCsig (r : Requester) (v : W32) (s : State) : Host.Outcome State Fault Refusal :=
  .next (s.byReq r Reg.INTD_CSIG.at (fun s => s.writeCsig (s.worldOf r) v))

end Sys2Proof.Machine
end

