-- ==== Sys2Proof/Machine/Pacer.lean ====
section
/-! DEFINITION. The Pacer (chapter Power, Operating Points and the Pacer): dispatch queues (R488, R489), budgets (R491, R492), measurement (R490),
epochs (R493) and operating-point changes (R479, R480). -/
namespace Sys2Proof.Machine

/-- The rail group of a core (R477): two clusters each. -/
def groupOf (c : Nat) : Nat := clusterOf c / 2

/-- The cores of a rail group that are online. -/
def State.groupCores (s : State) (g : Nat) : List Nat := s.onlineIn (12 * g) 12

/-- A bit of GEVT is set; where GRPCFG enables it, private source 1 of the group's online cores is raised (R496). -/
def State.groupEvent (s : State) (g b : Nat) : State :=
  let s := s.setRb (Reg.PACER_GEVT.at g) b true
  if s.rb (Reg.PACER_GRPCFG.at g) (12 + b) then (s.groupCores g).foldl (fun s c => s.raisePrivate c 1) s else s

/-! ## Dispatch queues -/

/-- The queued entries of a queue, head first. -/
def State.queue (s : State) (q : Nat) : List (Nat × W64) := Sparse.get [] s.pacer.queues q

/-- The entries of a queue that cores hold (R488). -/
def State.heldOf (s : State) (q : Nat) : Nat :=
  (s.pacer.held.filter (fun e => match e.2 with | some h => h.queue == q | none => false)).length

/-- QSTAT.OCC and HELD as the queue stands. -/
def State.refreshQueue (s : State) (q : Nat) : State :=
  let a := Reg.PACER_QSTAT.at q
  (s.setRf a 10 0 (s.queue q).length).setRf a 26 16 (s.heldOf q)

/-- A queue's entries, set. -/
def State.setQueue (s : State) (q : Nat) (l : List (Nat × W64)) : State :=
  let s := { s with pacer := { s.pacer with queues := Sparse.set [] s.pacer.queues q l } }
  s.refreshQueue q

/-- The check of a queue after every push, grant, completion and requeue (R488, R51): FREE + OCC + HELD equals DEPTH for some number of FREE
entries; a failure is Fatal. -/
def State.checkQueue (s : State) (q : Nat) : State :=
  if (s.queue q).length + s.heldOf q ≤ s.rf (Reg.PACER_QCFG.at q) 10 0 then s
  else s.record { bank := 45, unit := 0x04, code := 0x0A, sev := .fatal }

/-- A pool entry's holder, set. -/
def State.setHeldTask (s : State) (e : Nat) (h : Option HeldTask) : State :=
  { s with pacer := { s.pacer with held := Sparse.set none s.pacer.held e h } }

/-- The pool entries in use. -/
def State.poolUsed (s : State) : List Nat :=
  s.pacer.held.map (fun e => e.1) ++ (s.pacer.queues.map (fun e => e.2.map (fun x => x.1))).flatten

/-- A free pool entry; which one is open (log entry 3). -/
def State.poolPick (s : State) : Nat :=
  let used := s.poolUsed
  let freeOnes := (List.range 4096).filter (fun e => !used.contains e)
  freeOnes.getD (s.free % max 1 freeOnes.length) 0

/-- Is a queue enabled: QCFG.EN, and a class that is not reserved (R488)? -/
def State.queueOn (s : State) (q : Nat) : Bool := s.rb (Reg.PACER_QCFG.at q) 31 && s.rf (Reg.PACER_QCFG.at q) 19 18 != 3

/-- May a requester with this tag push to a queue (R488)? -/
def State.mayPush (s : State) (q : Nat) (t : AccessTag) : Bool :=
  let w := s.rb (Reg.PACER_QCFG.at q) 30
  t.world || (t.pid == s.rf (Reg.PACER_QCFG.at q) 29 24 && t.world == w) || (t.pid == 0 && !t.world && !w)

/-- The result of a push (R488), and the state after it. -/
def State.push (s : State) (q : Nat) (t : AccessTag) (w : W64) : State × Nat :=
  if !s.queueOn q ∨ !s.mayPush q t ∨ s.fenced t.pid ∨ s.fenced (s.rf (Reg.PACER_QCFG.at q) 29 24) then (s, 2)
  else if w = 0 then (s, 3)
  else if (s.queue q).length + s.heldOf q ≥ s.rf (Reg.PACER_QCFG.at q) 10 0 then (s, 1)
  else (((s.took).setQueue q (s.queue q ++ [(s.poolPick, w)])).checkQueue q, 0)

/-- The epoch allowance A of a group in nJ (R491). -/
def State.allowance (s : State) (g : Nat) : Nat := s.rf (Reg.PACER_GRPBUD.at g) 15 0 * 1000

/-- The threshold that R491 applies to a class in a group, in nJ; none for Fixed. -/
def State.threshold (s : State) (g cls : Nat) : Option Nat :=
  if cls = 0 then none
  else if cls = 1 then some (s.allowance g)
  else some (s.allowance g * s.rf (Reg.PACER_GRPLIM.at g) 15 8 / 100)

/-- QEAVG of a queue in nJ. -/
def State.qeavg (s : State) (q : Nat) : Nat := s.rf (Reg.PACER_QEAVG.at q) 31 0

/-- Does a queue's class allow dispatch to a group now (R490, R491)? Fixed always; Paced and Elastic while the test of
R491 holds and no thermal emergency stops them; Elastic never while ELASTPCT = 0 (R492). -/
def State.classAllows (s : State) (g q : Nat) : Bool :=
  let cls := s.rf (Reg.PACER_QCFG.at q) 19 18
  match s.threshold g cls with
  | none => true
  | some th =>
    !s.pacer.thermal && (cls != 2 || s.rf (Reg.PACER_GRPLIM.at g) 15 8 != 0) &&
      decide (Sparse.get 0 s.pacer.energy g + s.qeavg q ≤ th)

/-- The conditions of R489 but for the class: enabled, occupied, in the core's mask, owned by its tag, not fenced. -/
def State.queueFor (s : State) (c q : Nat) : Bool :=
  let t := (s.core c).tag c
  s.queueOn q && !(s.queue q).isEmpty && bit ((s.core c).srd 0x600) q &&
    s.rf (Reg.PACER_QCFG.at q) 29 24 == t.pid && s.rb (Reg.PACER_QCFG.at q) 30 == t.world && !s.fenced t.pid

/-- Is a queue eligible for a TAKE of a core (R489)? -/
def State.eligible (s : State) (c q : Nat) : Bool := s.queueFor c q && s.classAllows (groupOf c) q

/-- The place of a queue in the round robin of its class and priority: how far it lies after the last granted. -/
def State.rrDistance (s : State) (q : Nat) : Nat :=
  let key := s.rf (Reg.PACER_QCFG.at q) 19 18 * 16 + s.rf (Reg.PACER_QCFG.at q) 23 20
  let last := Sparse.get 63 s.pacer.last key
  (q + 64 - last - 1) % 64

/-- Does queue a come before queue b (R489): lower class number, then higher PRIO, then the round robin? -/
def State.queueBefore (s : State) (a b : Nat) : Bool :=
  let ca := s.rf (Reg.PACER_QCFG.at a) 19 18
  let cb := s.rf (Reg.PACER_QCFG.at b) 19 18
  let pa := s.rf (Reg.PACER_QCFG.at a) 23 20
  let pb := s.rf (Reg.PACER_QCFG.at b) 23 20
  decide (ca < cb) || (ca == cb && (decide (pb < pa) || (pa == pb && decide (s.rrDistance a < s.rrDistance b))))

/-- The first of some queues in the order of R489. -/
def State.firstQueue (s : State) : List Nat → Option Nat
  | [] => none
  | q :: t => match s.firstQueue t with
    | none => some q
    | some r => if s.queueBefore r q then some r else some q

/-- The queues that hold entries. -/
def State.occupied (s : State) : List Nat := s.pacer.queues.map (fun e => e.1)

/-- The queue that a TAKE of a core is granted from, if any (R489). No grant while CTL.EN = 0 or a sleep entry drains (R485). -/
def State.selectQueue (s : State) (c : Nat) : Option Nat :=
  if !s.rb Reg.PACER_CTL.at 0 || s.boot.sleep then none else s.firstQueue (s.occupied.filter (fun q => s.eligible c q))

/-- Was a Paced or Elastic grant to a core refused by its class (R493's demand)? -/
def State.refusedFor (s : State) (c : Nat) : Bool :=
  s.occupied.any (fun q => s.queueFor c q && !s.classAllows (groupOf c) q)

/-- A refused grant is remembered for the epoch (R493). -/
def State.noteRefusal (s : State) (c : Nat) : State :=
  if s.refusedFor c then
    { s with pacer := { s.pacer with refused := Sparse.set false s.pacer.refused (groupOf c) true } }
  else s

/-- The head of a queue goes to a core: the entry is HELD, and the task word, DSPCUR's value and the state after are
answered (R111, R488). -/
def State.grantFrom (s : State) (c q : Nat) : Option (State × W64 × W64) :=
  match s.queue q with
  | [] => none
  | (e, w) :: rest =>
    let key := s.rf (Reg.PACER_QCFG.at q) 19 18 * 16 + s.rf (Reg.PACER_QCFG.at q) 23 20
    let s := { s with pacer := { s.pacer with last := Sparse.set 63 s.pacer.last key q } }
    let s := ((s.setHeldTask e (some { queue := q, word := w, core := c })).setQueue q rest).checkQueue q
    some (s, w, BitVec.ofNat 64 (2 ^ 63 + q * 2 ^ 16 + e))

/-- A held task's energy is charged to its queue (R490): the estimate is open (log entry 3); QEAVG follows it with its
weight of 1/8 and QENERGY counts it in µJ. -/
def State.charge (s : State) (q : Nat) : State :=
  let nj := s.free
  let s := s.took
  let avg := s.qeavg q
  let avg' := Int.toNat ((avg : Int) + ((nj : Int) - (avg : Int)) / 8)
  let s := s.setRf (Reg.PACER_QEAVG.at q) 31 0 (min avg' (2 ^ 32 - 1))
  let tot := Sparse.get 0 s.pacer.njRest q + nj
  let s := { s with pacer := { s.pacer with njRest := Sparse.set 0 s.pacer.njRest q (tot % 1000) } }
  s.setReg64 (Reg.PACER_QENERGY_LO.at q) (s.reg64 (Reg.PACER_QENERGY_LO.at q) + tot / 1000)

/-- pacer_complete (R111): the held entry is freed and its energy charged. -/
def State.completeTask (s : State) (e : Nat) : State :=
  match Sparse.get none s.pacer.held e with
  | none => s
  | some h => (((s.setHeldTask e none).refreshQueue h.queue).checkQueue h.queue).charge h.queue

/-- The held entry goes back to its queue: to the tail at YIELD (R111), to the head at a loss or reset (R175, R489). -/
def State.requeueTask (s : State) (e : Nat) (toHead : Bool) : State :=
  match Sparse.get none s.pacer.held e with
  | none => s
  | some h =>
    let l := s.queue h.queue
    ((s.setHeldTask e none).setQueue h.queue (if toHead then (e, h.word) :: l else l ++ [(e, h.word)])).checkQueue h.queue

/-- YIELD of a held entry: it goes to the tail of its queue (R111), and the energy is charged to the queue (R490). -/
def State.yieldTask (s : State) (e : Nat) : State :=
  match Sparse.get none s.pacer.held e with
  | none => s
  | some h => (s.requeueTask e false).charge h.queue

/-- The task that a core holds goes back to the head of its queue, and DSPCUR is emptied (R175, R522). -/
def State.requeueHeldTask (s : State) (c : Nat) : State :=
  let d := (s.core c).srd 0x200
  if bit d 63 then (s.requeueTask (fld d 11 0) true).modCore c (fun k => k.swr 0x200 0) else s

/-- Does any queue hold an entry, QUEUED or HELD (R486)? -/
def State.pacerBusy (s : State) : Bool := !s.pacer.queues.isEmpty || !s.pacer.held.isEmpty

/-- A core no longer waits in TAKE. -/
def State.stopWaiting (s : State) (c : Nat) : State :=
  { s with pacer := { s.pacer with waiters := s.pacer.waiters.filter (fun x => x != c) } }

/-- A core begins to wait in TAKE. -/
def State.startWaiting (s : State) (c : Nat) : State :=
  let s := s.stopWaiting c
  { s with pacer := { s.pacer with waiters := s.pacer.waiters ++ [c] } }

/-- Does another core that waits longer have the same queue open to it (R489)? The list is the waiters' order; a core
that does not wait comes after all of them. -/
def State.earlierWaiter (s : State) (c q : Nat) : Bool :=
  (s.pacer.waiters.takeWhile (fun x => x != c)).any (fun x => s.eligible x q)

/-- The summed DEPTH of the queues but one. -/
def State.depthOthers (s : State) (q : Nat) : Nat :=
  ((List.range 64).map (fun i => if i = q then 0 else s.rf (Reg.PACER_QCFG.at i) 10 0)).sum

/-- A write of QCFG (R488, R39): DEPTH, CLASS, PID and WORLD keep their values while entries exist, a sum above 4,096
leaves the register unchanged, and the open world cannot write PID 63. -/
def State.writeQcfg (s : State) (world : Bool) (q : Nat) (v : W32) : State :=
  let a := Reg.PACER_QCFG.at q
  let old := s.reg a
  if bit old 30 ∧ !world then s
  else
    let v := if s.queue q = [] ∧ s.heldOf q = 0 then v
      else setFld (setFld (setFld (setFld v 10 0 (fld old 10 0)) 19 18 (fld old 19 18)) 29 24 (fld old 29 24)) 30 30 (fld old 30 30)
    let v := if !world ∧ fld v 29 24 = 63 then setFld v 29 24 (fld old 29 24) else v
    if s.depthOthers q + fld v 10 0 > 4096 then s else s.writeFields world a v

/-- The effect of QPUSH_HI (R488): the held low word and this one push; QPUSHRES then answers this requester. -/
def State.writeQpushHi (s : State) (r : Requester) (q : Nat) (v : W32) : State :=
  let a := Reg.PACER_QPUSH_LO.at q
  if s.rb (Reg.PACER_QCFG.at q) 30 ∧ !s.worldOf r then s
  else
    let lo := (s.held r a).getD 0
    let w : W64 := BitVec.ofNat 64 (lo.toNat + v.toNat * 2 ^ 32)
    let (s, res) := (s.setHeld r a none).push q (s.tagOf r) w
    { s with pacer := { s.pacer with results := Sparse.set 0 s.pacer.results (latchKey r a) res } }

/-- QPUSHRES as a requester reads it (R488). -/
def State.pushResult (s : State) (r : Requester) (q : Nat) : Nat :=
  Sparse.get 0 s.pacer.results (latchKey r (Reg.PACER_QPUSH_LO.at q))

/-! ## Operating points -/

/-- A group's clock changes (R479): FOP, and GEVT.OPCHG. -/
def State.switchClock (s : State) (g t : Nat) : State :=
  (s.setRf (Reg.PACER_GRPSTAT.at g) 2 0 t).groupEvent g 0

/-- The number of cores that the Pacer counts in a cluster (R53, R167, R172). -/
def State.capacity (s : State) (n : Nat) : Nat := Sparse.get 6 s.pacer.capacity n

/-- A cluster's capacity, set. -/
def State.setCapacity (s : State) (n v : Nat) : State :=
  { s with pacer := { s.pacer with capacity := Sparse.set 6 s.pacer.capacity n v } }

/-- Are a group's changes held, since a sparing or core-loss sequence runs in one of its clusters (R167, R480)? -/
def State.groupHeld (s : State) (g : Nat) : Bool :=
  [2 * g, 2 * g + 1].any (fun n => !(Sparse.get [] s.spare n).isEmpty)

/-- A change of a group starts (R479): slower, its clock first; BUSY until the voltage is confirmed. -/
def State.startChange (s : State) (g t : Nat) : State :=
  let st := Reg.PACER_GRPSTAT.at g
  let k := s.rf st 2 0
  let s := { s with pacer := { s.pacer with opTarget := Sparse.set none s.pacer.opTarget g (some t) } }
  let s := (s.setRb st 31 true).setRf st 10 8 t
  if k < t then s.switchClock g t else s

/-- Is a change of some group running? -/
def State.changing (s : State) : Bool := !s.pacer.opTarget.isEmpty

/-- The next waiting change of a group that is not held starts when none runs: one group at a time (R479, R480). -/
def State.nextChange (s : State) : State :=
  if s.changing then s
  else match s.pacer.opWait.find? (fun x => !s.groupHeld x.1) with
    | none => s
    | some x => ({ s with pacer := { s.pacer with opWait := s.pacer.opWait.filter (fun y => y != x) } }).startChange x.1 x.2

/-- A group's running change ends. -/
def State.endChange (s : State) (g : Nat) : State :=
  let s := { s with pacer := { s.pacer with opTarget := Sparse.set none s.pacer.opTarget g none } }
  (s.setRb (Reg.PACER_GRPSTAT.at g) 31 false).nextChange

/-- The sequence that held a group's changes is over (R167 step 7, R480): a change that waits for its clock switch makes it, and the next one starts. -/
def State.resumeGroup (s : State) (g : Nat) : State :=
  if s.groupHeld g then s
  else match Sparse.get none s.pacer.opTarget g with
    | some t =>
      let st := Reg.PACER_GRPSTAT.at g
      if s.rf st 6 4 = t ∧ s.rf st 2 0 ≠ t then (s.switchClock g t).endChange g else s
    | none => s.nextChange

/-- VOLTAGE_CONFIRMED (R479, R480): the regulator reports the requested voltage; a transfer that was repeated is recorded (R496). A change that still has its clock switch before it waits for the end
of a sparing of its group. -/
def execVoltageConfirmed (g : Nat) (repeated : Bool) (s : State) : Host.Outcome State Fault Refusal :=
  let s := if repeated then s.record { bank := 45, unit := 0x01, code := 0x07, sev := .corrected, misc0 := g % 4 } else s
  .next (match Sparse.get none s.pacer.opTarget g with
    | none => s
    | some t =>
      let st := Reg.PACER_GRPSTAT.at g
      let s := s.setRf st 6 4 t
      if s.rf st 2 0 = t then s.endChange g
      else if s.groupHeld g then s
      else (s.switchClock g t).endChange g)

/-- VOLTAGE_TIMEOUT (R480): the voltage is not confirmed within VTMO: VFAIL, a Deferred record and GEVT.VFAIL. -/
def execVoltageTimeout (g : Nat) (s : State) : Host.Outcome State Fault Refusal :=
  .next (match Sparse.get none s.pacer.opTarget g with
    | none => s
    | some _ =>
      let s := s.setRb (Reg.PACER_GRPSTAT.at g) 30 true
      let s := s.record { bank := 45, unit := 0x00, code := 0x06, sev := .deferred, misc0 := g }
      (s.groupEvent g 3).endChange g)

/-- The thermal emergency begins (R490): one record, with the lowest group whose sensor reads 125 °C or more, or 0 where none does (log entry 43);
every group goes to OP5 at once, Paced and Elastic grants stop. -/
def State.thermalEmergency (s : State) (first : Nat) : State :=
  let s := { s with pacer := { s.pacer with thermal := true, opWait := [] } }
  let s := s.record { bank := 45, unit := 0x02, code := 0x07, sev := .deferred, misc0 := first }
  (List.range 4).foldl (fun s g =>
    let st := Reg.PACER_GRPSTAT.at g
    let s := (s.setRb st 29 true).groupEvent g 2
    if s.rf st 2 0 = 5 ∧ s.rf st 6 4 = 5 then s
    else if s.groupHeld g then { s with pacer := { s.pacer with opWait := s.pacer.opWait ++ [(g, 5)] } }
    else s.startChange g 5) s

/-- The signed value of a temperature in °C. -/
def tempOf (b : BitVec 16) : Int := b.toInt

/-- The temperature t of group g's hottest sensor is measured (R490). GRPTEMP.TJ shows it as two's complement of 8 bits; of one that
these do not hold it shows a free value (log entry 3). -/
def State.setTemp (s : State) (g : Nat) (t : BitVec 16) : State :=
  let s := { s with pacer := { s.pacer with tj := Sparse.set 0 s.pacer.tj g t } }
  let a := Reg.PACER_GRPTEMP.at g
  if -128 ≤ tempOf t ∧ tempOf t ≤ 127 then s.setRf a 7 0 (t.toNat % 256) else (s.setRf a 7 0 (s.free % 256)).took

/-- MEASUREMENT (R490): telemetry of the four groups, their energy in µJ since the last and their hottest sensor,
and the hottest sensor outside them. -/
def execMeasurement (energies : List Nat) (temps : List (BitVec 16)) (other : BitVec 16) (s : State) : Host.Outcome State Fault Refusal :=
  .next (
    let s := (List.range 4).foldl (fun s g =>
      let uj := energies.getD g 0
      let a := Reg.PACER_RAILE_LO.at g
      let s := s.setReg64 a (s.reg64 a + uj)
      let s := { s with pacer := { s.pacer with energy := Sparse.set 0 s.pacer.energy g (Sparse.get 0 s.pacer.energy g + uj * 1000) } }
      s.setTemp g (temps.getD g 0)) s
    let all := other :: temps
    let s := if all.any (fun t => decide (tempOf t > 120)) then { s with pacer := { s.pacer with hot := true } } else s
    let s := if all.any (fun t => decide (tempOf t ≥ 125)) ∧ !s.pacer.thermal then
        s.thermalEmergency (((List.range 4).find? (fun i => decide (tempOf (temps.getD i 0) ≥ 125))).getD 0) else s
    match (List.range 5).find? (fun i => decide (tempOf (if i < 4 then temps.getD i 0 else other) ≥ 130)) with
    | some i => s.record { bank := 45, unit := 0x03, code := 0x07, sev := .fatal, misc0 := i % 4 }
    | none => s)

/-- What the Pacer measured of a group over an epoch (R493): power in mW, peak current in 100 mA, busy share in %. -/
def groupOver (s : State) (g : Nat) (m : GroupMeas) (dev : Nat) : Bool :=
  let cur := s.rf (Reg.PACER_GRPBUD.at g) 31 16
  decide (s.rf (Reg.PACER_GRPBUD.at g) 15 0 < m.pwr) ||
    (cur != 0 && decide (cur < m.ipeak)) ||
    decide (tempOf (Sparse.get 0 s.pacer.tj g) > (s.rf (Reg.PACER_GRPLIM.at g) 7 0 : Int)) ||
    decide (s.rf Reg.PACER_DEVBUD.at 17 0 < dev)

/-- The target that an epoch end chooses for a group (R493). -/
def State.epochTarget (s : State) (g : Nat) (m : GroupMeas) (beyond : Bool) : Nat :=
  let st := Reg.PACER_GRPSTAT.at g
  let cf := Reg.PACER_GRPCFG.at g
  let lim := Reg.PACER_GRPLIM.at g
  let fop := s.rf st 2 0
  let demand := Sparse.get false s.pacer.refused g || decide (s.rf lim 31 24 ≤ m.busy)
  let room := decide (m.pwr * 100 < s.rf (Reg.PACER_GRPBUD.at g) 15 0 * (100 - s.rf lim 23 16)) &&
    decide (tempOf (Sparse.get 0 s.pacer.tj g) + 3 ≤ (s.rf lim 7 0 : Int))
  let t := if !s.rb cf 0 then s.rf cf 6 4
    else if beyond then fop + 1 else if demand && room then fop - 1 else fop
  let t := max (s.rf cf 3 1) (min t (s.rf cf 10 8))
  if s.rb st 30 then max t fop else t

/-- One OP step toward a target (R479: one step at a time). -/
def opStep (fop t : Nat) : Nat := if fop < t then fop + 1 else if t < fop then fop - 1 else fop

/-- An epoch end for one group (R493): the measured values, OVER, and the change that it starts. -/
def State.epochGroup (s : State) (g : Nat) (m : GroupMeas) (dev : Nat) : State :=
  let st := Reg.PACER_GRPSTAT.at g
  let beyond := groupOver s g m dev
  let ip := if s.rf (Reg.PACER_GRPBUD.at g) 31 16 = 0 then 0 else m.ipeak
  let s := s.setReg (Reg.PACER_GRPPWR.at g) (BitVec.ofNat 32 (m.pwr % 2 ^ 16 + ip % 2 ^ 16 * 2 ^ 16))
  let s := s.setRb st 28 beyond
  let s := if beyond then s.groupEvent g 1 else s
  let t := opStep (s.rf st 2 0) (s.epochTarget g m beyond)
  if t = s.rf st 2 0 ∨ s.pacer.thermal ∨ (Sparse.get none s.pacer.opTarget g).isSome then s
  else
    let s := s.setRf st 10 8 t
    { s with pacer := { s.pacer with opWait := (s.pacer.opWait.filter (fun x => x.1 != g)) ++ [(g, t)] } }

/-- The epoch end of R493 and the new epoch's start (R491), without the grants. E returns to 0, the thermal emergency
ends after a whole epoch at or below 120 °C, Mash's automatic gating is skipped while Mash is sealed-owned (R436), and the
changes start A to D. -/
def State.epochEnd (s : State) (ms : List GroupMeas) (soc : Nat) : State :=
  let z : GroupMeas := { pwr := 0, ipeak := 0, busy := 0 }
  let dev := ((List.range 4).map (fun g => (ms.getD g z).pwr)).sum + soc
  let s := s.setRf Reg.PACER_DEVPWR.at 17 0 (min dev (2 ^ 18 - 1))
  let s := if s.pacer.thermal ∧ !s.pacer.hot then
      (List.range 4).foldl (fun s g => s.setRb (Reg.PACER_GRPSTAT.at g) 29 false) { s with pacer := { s.pacer with thermal := false } }
    else s
  let s := (List.range 4).foldl (fun s g => s.epochGroup g (ms.getD g z) dev) s
  let s := if s.rb Reg.PACER_CTL.at 1 ∧ s.rb Reg.SYSCTL_OWNER.at 8 ∧ s.mash.steps.isEmpty
    then s.setRf Reg.SYSCTL_PDCNT.at 15 0 (satAdd 16 (s.rf Reg.SYSCTL_PDCNT.at 15 0) 1) else s
  ({ s with pacer := { s.pacer with energy := [], refused := [], hot := false } }).nextChange

/-- Is a queue oversize for a group (R492)? -/
def State.oversize (s : State) (g q : Nat) : Bool :=
  let cls := s.rf (Reg.PACER_QCFG.at q) 19 18
  match s.threshold g cls with
  | none => false
  | some th => (cls != 2 || s.rf (Reg.PACER_GRPLIM.at g) 15 8 != 0) && decide (th < s.qeavg q)

/-- The oversize grant of a group at an epoch start (R492): the queue, by the order of R489, and the longest-waiting core
of the group that may take from it. -/
def State.oversizeGrant (s : State) (g : Nat) : Option (Nat × Nat) :=
  if !s.rb Reg.PACER_CTL.at 0 ∨ s.pacer.thermal ∨ s.boot.sleep then none
  else
    let ws := s.pacer.waiters.filter (fun c => groupOf c == g)
    match s.firstQueue (s.occupied.filter (fun q => s.oversize g q && ws.any (fun c => s.queueFor c q))) with
    | none => none
    | some q => match ws.find? (fun c => s.queueFor c q) with
      | none => none
      | some c => some (c, q)

end Sys2Proof.Machine
end

