-- ==== Sys2Proof/Machine/Predict.lean ====
section
/-! DEFINITION. Branch prediction (R128-R134): contexts and their slots, the BTB, the direction table, the return stack, the prediction of a branch and
its training. None of it is architectural state (R46). -/
namespace Sys2Proof.Machine

/-- The predictor context of a core (R132): the VMID and ASID are those of the level's regime, which H and M have not (R209). -/
def Core.predCtx (k : Core) : PredCtx :=
  let guest := decide (k.lvl < 2)
  { lvl := k.lvl, vmid := if guest then fld (k.srd 0x8C1) 59 48 else 0, asid := if guest then fld (k.srd 0x4C0) 15 0 else 0,
    key := fld (k.srd 0x540) 15 0 }

/-- Is the level static-only (R134)? -/
def Core.staticPred (k : Core) : Bool := bit (k.srd 0x940) k.lvl

/-- The slot of a context, if it has one. -/
def Predictor.slotOf (p : Predictor) (x : PredCtx) : Option Nat := (p.slots.find? (fun y => y.2 == x)).map (fun y => y.1)

/-- The predictor without the entries of a slot (R132). -/
def Predictor.clearSlot (p : Predictor) (n : Nat) : Predictor :=
  { p with btb := (p.btb.map (fun e => (e.1, e.2.filter (fun y => y.slot != n)))).filter (fun e => !e.2.isEmpty),
           dir := p.dir.filter (fun e => match e.2 with | some d => d.slot != n | none => false),
           ras := p.ras.filter (fun y => y.1 != n) }

/-- A context starts fetching (R132): it becomes the most recent of 8 slots; a ninth takes the slot of the least recently used, whose entries go. -/
def Predictor.touch (p : Predictor) (x : PredCtx) : Predictor :=
  match p.slots.find? (fun y => y.2 == x) with
  | some y => { p with slots := y :: p.slots.filter (fun z => z.2 != x) }
  | none =>
    match (List.range 8).find? (fun n => p.slots.all (fun y => y.1 != n)) with
    | some n => { p with slots := (n, x) :: p.slots }
    | none =>
      match p.slots.getLast? with
      | some y => { p.clearSlot y.1 with slots := (y.1, x) :: p.slots.dropLast }
      | none => p

/-- The context of a core starts fetching. -/
def State.newContext (s : State) (c : Nat) : State := s.modCore c (fun k => { k with pred := k.pred.touch k.predCtx })

/-- The BTB set of an address under a key (R128). -/
def btbSet (pc : W64) (key : Nat) : Nat := fld pc 10 2 ^^^ nfld key 15 7

/-- The direction counter of an address under a key (R128). -/
def Predictor.dirIndex (p : Predictor) (pc : W64) (key : Nat) : Nat := fld pc 14 2 ^^^ p.ghist.toNat ^^^ nfld key 12 0

/-- The BTB's entry for a branch in a context (R128, R132). -/
def Predictor.btbHit (p : Predictor) (slot key : Nat) (pc : W64) : Option BtbEntry :=
  (Sparse.get [] p.btb (btbSet pc key)).find? (fun e => e.slot == slot && e.pc == pc)

/-- Does the static rule predict a branch taken (R130)? -/
def staticTaken (kind : BrKind) (pc target : W64) : Bool :=
  match kind with
  | .jump | .call => true
  | .cond => target.slt pc
  | .indirect | .ret => false

/-- Is a conditional branch predicted taken: its counter in this context, else the static rule (R128, R132)? -/
def Predictor.direction (p : Predictor) (slot key : Nat) (pc target : W64) : Bool :=
  match Sparse.get none p.dir (p.dirIndex pc key) with
  | some d => if d.slot = slot then decide (2 ≤ d.count) else staticTaken .cond pc target
  | none => staticTaken .cond pc target

/-- The prediction of a branch of a kind (R129, R130): in F1 where the BTB holds it, with the return stack's top for a return whose top entry is of
this context; else by the static rule at DP. target: the branch's own target, which only the static rule sees. -/
def Predictor.predict (p : Predictor) (x : PredCtx) (static : Bool) (kind : BrKind) (pc target : W64) : Prediction :=
  let byRule : Prediction :=
    { pc := pc, next := if staticTaken kind pc target then target else pc + 4, f1 := false, kind := kind, target := target }
  match (if static then none else p.slotOf x) with
  | none => byRule
  | some n =>
    match p.btbHit n x.key pc with
    | none => byRule
    | some e =>
      let top := match p.ras with
        | y :: _ => if y.1 = n then y.2 else e.target
        | [] => e.target
      let next := match e.kind with
        | .cond => if p.direction n x.key pc e.target then e.target else pc + 4
        | .ret => top
        | .jump | .call | .indirect => e.target
      { byRule with next := next, f1 := true }

/-- What the front end changes when it predicts a branch (R128, R129): BL and JLR push PC + 4, over the oldest entry of a full stack; JR g30 pops;
a conditional branch enters GHIST as predicted. -/
def Predictor.speculate (p : Predictor) (slot : Nat) (r : Prediction) (link : Bool) : Predictor :=
  let p := if link then { p with ras := ((slot, r.pc + 4) :: p.ras).take 16 } else p
  match r.kind with
  | .ret => { p with ras := p.ras.drop 1 }
  | .cond => { p with ghist := (p.ghist <<< 1) ||| (if r.next = r.target then 1 else 0) }
  | _ => p

/-- A branch is predicted at its fetch. link: it writes lk. While the level is static-only, no structure takes part (R134). -/
def Core.foresee (k : Core) (kind : BrKind) (link : Bool) (target : W64) : Core :=
  let x := k.predCtx
  let p := k.pred.touch x
  let r := p.predict x k.staticPred kind k.pc target
  let p := if k.staticPred then k.pred else p.speculate ((p.slotOf x).getD 0) r link
  { k with pred := { p with last := some r } }

/-- A two-bit counter moves toward an outcome; a counter of another context starts weak (R128). DESIGN CHOICE (log entry 43). -/
def DirCtr.step (d : Option DirCtr) (slot : Nat) (taken : Bool) : DirCtr :=
  match d with
  | some d =>
    if d.slot = slot then { d with count := if taken then min 3 (d.count + 1) else d.count - 1 }
    else { slot := slot, count := if taken then 2 else 1 }
  | none => { slot := slot, count := if taken then 2 else 1 }

/-- A resolved branch trains the predictor (R128, R132): the BTB keeps it, newest of the at most 4 entries of its set; a conditional one moves its
counter, and GHIST is repaired to the outcome. before: the predictor at the branch's fetch. DESIGN CHOICE (log entry 43): a branch is entered whether
taken or not, and the entry of a full set that was trained least recently makes way. -/
def Predictor.train (p before : Predictor) (x : PredCtx) (r : Prediction) (taken : Bool) : Predictor :=
  match p.slotOf x with
  | none => p
  | some n =>
    let i := btbSet r.pc x.key
    let e : BtbEntry := { slot := n, pc := r.pc, kind := r.kind, target := r.target }
    let set := (e :: (Sparse.get [] p.btb i).filter (fun y => !(y.slot == n && y.pc == r.pc))).take 4
    let p := { p with btb := Sparse.set [] p.btb i set }
    match r.kind with
    | .cond =>
      let d := before.dirIndex r.pc x.key
      { p with dir := Sparse.set none p.dir d (some (DirCtr.step (Sparse.get none p.dir d) n taken)),
               ghist := (before.ghist <<< 1) ||| (if taken then 1 else 0) }
    | _ => p

/-- The predictor without an entry that fails its check (R159 UNIT 0x2A): the BTB's first, then the direction table's, then the return stack's. -/
def Predictor.dropEntry (p : Predictor) (n : Nat) : Predictor :=
  let b := p.btb.flatMap (fun e => e.2)
  match b[n]? with
  | some e => { p with btb := (p.btb.map (fun x => (x.1, x.2.filter (fun y => y != e)))).filter (fun x => !x.2.isEmpty) }
  | none =>
    let n := n - b.length
    if n < p.dir.length then { p with dir := p.dir.take n ++ p.dir.drop (n + 1) }
    else { p with ras := p.ras.take (n - p.dir.length) ++ p.ras.drop (n - p.dir.length + 1) }

/-- The entries of the contexts of level M go (R442). -/
def Predictor.dropSealed (p : Predictor) : Predictor :=
  (p.slots.filter (fun y => y.2.lvl == 3)).foldl (fun p y => { p.clearSlot y.1 with slots := p.slots.filter (fun z => z != y) }) p

end Sys2Proof.Machine
end

