-- ==== Sys2Proof/Machine/Sparing.lean ====
section
/-! DEFINITION. Instruction retry, core sparing and core loss (chapter Instruction Retry and Core Sparing, R159-R176), and the
cluster fence (R52, R55). -/
namespace Sys2Proof.Machine

/-! ## Triggers (R166) -/

/-- The triggers of a cluster, oldest first. -/
def State.spareList (s : State) (n : Nat) : List SpareTrig := Sparse.get [] s.spare n

/-- The triggers of a cluster, set. -/
def State.setSpareList (s : State) (n : Nat) (l : List SpareTrig) : State := { s with spare := Sparse.set [] s.spare n l }

/-- A trigger is queued; step 1 of R167 begins: BUSY is set, and the Pacer removes a core from the cluster's capacity. -/
def State.queueTrigger (s : State) (t : SpareTrig) : State :=
  let n := clusterOf t.core
  ((s.setSpareList n (s.spareList n ++ [t])).setRb (Reg.CLUSTER_SPARESTAT.at n) 31 true).setCapacity n (s.capacity n - 1)

/-- A core's trigger (R166): it starts sparing only while SPARE_EN is 1 and the reserve is available; otherwise a fault
starts a core loss and a request is ignored, and REJ is set. req: SPAREREQ.GO asked for it. A core whose sequence runs already has no
further fault, and a request for it is rejected. -/
def State.trigger (s : State) (c unit code : Nat) (fault req : Bool) : State :=
  let n := clusterOf c
  let st := Reg.CLUSTER_SPARESTAT.at n
  let en := s.rb (Reg.CLUSTER_SPARECTL.at n) 0
  let t : SpareTrig := { core := c, unit := unit, code := code, loss := none, etc := s.clk.etc, req := req, lost := 0 }
  if s.sparing c then (if fault then s else s.setRb st 18 true)
  else if en ∧ s.rf st 1 0 = 0 then (s.setRf st 1 0 1).queueTrigger t
  else
    let s := s.setRb st 18 true
    if fault then s.queueTrigger { t with loss := some (if en then 0 else 4) } else s

/-- SPAREREQ.GO reads 1 while a sparing that it asked for waits or runs (R166). -/
def State.showRequest (s : State) (n : Nat) : State :=
  s.setRb (Reg.CLUSTER_SPAREREQ.at n) 31 ((s.spareList n).any (fun t => t.req))

/-- SPAREREQ.GO (R166): an INDEX that names no online logical core sets REJ, and starts nothing. -/
def State.spareRequest (s : State) (n idx : Nat) : State :=
  let c := 6 * n + idx
  let s := s.setRf (Reg.CLUSTER_SPAREREQ.at n) 2 0 idx
  (if idx ≥ 6 ∨ !s.online c then s.setRb (Reg.CLUSTER_SPARESTAT.at n) 18 true else s.trigger c 0 0 false true).showRequest n

/-! ## Sparing (R167-R171) -/

/-- Steps 1 to 3 of R167: the pipeline is discarded back to the checkpoint, owed results are written, the store buffer
drains and L1D is written back. A load that has not committed and a barrier are executed again. -/
def State.stopCore (wr : RegWriter) (s : State) (c : Nat) : State :=
  let s := s.modCore c (fun k =>
    let k := k.settle
    match k.wait with
    | .barrier _ | .load _ => { k with wait := .none }
    | _ => k)
  ((s.dropCoreReads c).drainAll wr c).cleanL1d c true

/-- Does a Device load that is in WB hold the sequence (R167)? -/
def Core.inDeviceLoad (k : Core) : Bool :=
  match k.wait with
  | .load w => w.device
  | _ => false

/-- The injected entries of a core's own structures go with the physical core (R541). -/
def State.unmarkCore (s : State) (c : Nat) : State :=
  { s with memc := { s.memc with marks := s.memc.marks.filter (fun m =>
      !(m.bank == 1 + clusterOf c && m.core == c && m.unit != 0x10 && m.unit != 0x11)) } }

/-- What a core loses when another physical core takes over (R168): L1, TLBs, walk cache, prefetch side buffer, predictor and the
reservation. -/
def State.coldCore (s : State) (c : Nat) : State :=
  (s.emptyL1 c).unmarkCore c |>.modCore c (fun k =>
    { k with iTlb := [], dTlb := [], tlb := [], walks := [], side := [], resv := none, hold := none, overlaid := [], pred := Predictor.empty,
             missLine := none, missStride := none, retries := 0, sleep := .run })

/-- A slot is marked retired (R176). -/
def State.retireSlot (s : State) (n slot : Nat) : State := s.setRb (Reg.CLUSTER_SLOTMAP.at n) (24 + slot % 7) true

/-- A logical index is given a slot; 7 = offline. -/
def State.mapSlot (s : State) (c slot : Nat) : State :=
  s.setRf (Reg.CLUSTER_SLOTMAP.at (clusterOf c)) (4 * indexOf c + 2) (4 * indexOf c) slot

/-- The end of the sequence of the oldest trigger: the flag in SPARESTAT, IDX, BUSY while others wait, and the changes of the group that the
Pacer deferred (R167, R480). -/
def State.endSequence (s : State) (c flag : Nat) : State :=
  let n := clusterOf c
  let st := Reg.CLUSTER_SPARESTAT.at n
  let rest := (s.spareList n).drop 1
  let s := (s.setSpareList n rest).setRb st 31 (!rest.isEmpty)
  (((s.setRf st 10 8 (indexOf c)).setRb st flag true).showRequest n).resumeGroup (n / 2)

/-- The oldest trigger turns into a core loss with a REASON (R170, R163); lost: the doublewords that could not be read. -/
def State.toLoss (s : State) (n reason lost : Nat) : State :=
  match s.spareList n with
  | [] => s
  | t :: rest => s.setSpareList n ({ t with loss := some reason, lost := t.lost ||| lost } :: rest)

/-- The Deferred record of a checkpoint doubleword found uncorrectable (R159, R163, R543). -/
def State.checkpointRecord (s : State) (c : Nat) (ecc : Ecc) : State :=
  s.record (ErrRec.cause { bank := 1 + clusterOf c, unit := 0x22, code := 0x02, sev := .deferred, tag := some ((s.core c).tag c) } ecc)

/-- SPARING (R167-R171): the sequence of the oldest trigger of a cluster, with the outcome of the reserve's self-test, of the two
transfers, and of the transfer's read of the checkpoint (R163), whose doublewords in lost are uncorrectable. It waits for a Device load in WB and for a
Device store that its target has not acknowledged. -/
def State.spareCore (wr : RegWriter) (s : State) (c : Nat) (bistOk xferOk xfer2Ok : Bool) (lost : Nat) : State :=
  let n := clusterOf c
  let bank := 1 + n
  match s.spareList n with
  | [] => s
  | t :: _ =>
    if t.core ≠ c ∨ t.loss.isSome ∨ (s.core c).inDeviceLoad then s
    else
      let s := s.stopCore wr c
      if !(s.core c).sbuf.isEmpty then s
      else if !bistOk then (s.reserveFails n).toLoss n 1 0
      else if lost ≠ 0 then ((s.checkpointRecord c .uncorrectable).setRf (Reg.CLUSTER_SPARESTAT.at n) 1 0 0).toLoss n 3 lost
      else if !xferOk ∧ !xfer2Ok then
        let s := s.record { bank := bank, unit := 0x2B, code := 0x03, sev := .contained, tag := some ((s.core c).tag c) }
        ((s.setRf (Reg.CLUSTER_SPARESTAT.at n) 1 0 3).retireSlot n 6).toLoss n 2 0
      else
        let old := s.slotOf c
        let s := (s.retireSlot n old).mapSlot c 6
        let s := ((s.coldCore c).traceSpare c).modCore c (fun k => k.swr 0x980 (BitVec.ofNat 64 (min 255 ((k.srd 0x980).toNat + 1))))
        let s := s.setCapacity n (s.capacity n + 1)
        let s := s.record
          { bank := bank, unit := 0x2C, code := t.code, sev := .corrected, tag := some ((s.core c).lastTag.getD ((s.core c).tag c)),
            misc0 := c + old * 2 ^ 8 + 6 * 2 ^ 12 + t.unit * 2 ^ 16, misc1 := min (2 ^ 32 - 1) (s.clk.etc - t.etc).toNat }
        s.endSequence c 16

/-! ## Core loss (R172-R175) -/

/-- The doublewords of a core-loss record from offset 0x040 (R173). sealed: the copy that holds M's registers too
(R174). -/
def State.lossWords (s : State) (c : Nat) (sealedCopy : Bool) : List W64 :=
  let k := s.core c
  let m := fun (v : W64) => if sealedCopy then v else 0
  let g := (List.range' 1 30).map (fun i => Sparse.get 0 k.gs i)
  let f := (List.range 32).map (fun i => Sparse.get 0 k.fs i)
  let grp2 := ([0x480, 0x481, 0x482, 0x483, 0x484, 0x485].map (fun b => [k.srd b, k.srd (b + 0x400), m (k.srd (b + 0x800))])).flatten
  [k.pc] ++ g ++ [k.spU, k.spK, k.spH, m k.spM] ++ f ++
  [k.fcsr, k.lbeg, k.lend, k.lcnt, k.stat, k.srd 0x004, k.srd 0x402, k.srd 0x801, k.srd 0x540, k.srd 0x940, k.srd 0x1C1,
    k.srd 0x200, k.srd 0x600] ++ grp2 ++
  [k.srd 0x886, k.srd 0x887, k.srd 0x888, m (k.srd 0xC88)] ++
  [k.srd 0x4C0, k.srd 0x4C1, k.srd 0x4C2, k.srd 0x8C0, k.srd 0x8C1, m (k.srd 0xCC0), k.srd 0x100, k.srd 0x101, k.srd 0x102,
    k.srd 0x500, k.srd 0x900, k.srd 0x901, k.srd 0x980, k.srd 0x5C0, k.srd 0x5C1, k.srd 0xA40,
    BitVec.ofNat 64 (s.reg64 (Reg.DEBUG_DTR_LO.at c))] ++ [0]

/-- The 1,024 bytes of a core-loss record (R173). lost: the map of doublewords that could not be read. -/
def State.lossRecord (s : State) (t : SpareTrig) (slot lost flags errref : Nat) (withState sealedCopy : Bool) : List Byte :=
  let words := (s.lossWords t.core sealedCopy).map (fun w => w.toNat)
  let body := (List.range 120).map (fun i => if !withState ∨ nfld lost i i = 1 then 0 else words.getD i 0)
  let state := (body.map (fun w => leBytes 8 w)).flatten
  leBytes 4 0x53534F4C ++ leBytes 2 1 ++ leBytes 1 t.core ++ leBytes 1 slot ++
  leBytes 4 (t.unit + t.code * 2 ^ 8 + t.loss.getD 0 * 2 ^ 16) ++ leBytes 4 flags ++ leBytes 8 t.etc.toNat ++
  leBytes 16 lost ++ leBytes 4 errref ++ List.replicate 16 0 ++ leBytes 4 (crc32c state) ++ state

/-- The open core-loss area, where its record of core c lies: none when CLBASE is zero or outside the populated QDR window (R173). -/
def State.lossAddr (s : State) (c : Nat) : Option Nat :=
  let b := s.rf Reg.SYSCTL_CLBASE_LO.at 31 16 * 2 ^ 16 + s.rf Reg.SYSCTL_CLBASE_HI.at 11 0 * 2 ^ 32
  let a := b + c * 0x400
  if b = 0 ∨ a < 0x800000000 ∨ a + 0x400 > 0x800000000 + s.qdrSize then none else some a

/-- The sealed area's record of core c: none when CLSBASE is zero or the area does not lie wholly in Cask (R174). -/
def State.sealedLossAddr (s : State) (c : Nat) : Option Nat :=
  let b := s.rf Reg.SYSCTL_CLSBASE.at 31 16 * 2 ^ 16
  if b = 0 ∨ !inCask b ∨ !inCask (b + 48 * 0x400 - 1) then none else some (b + c * 0x400)

/-- The tags of the sparing controllers (R38). -/
def lossTag (sealedCopy : Bool) : AccessTag := { world := sealedCopy, pid := if sealedCopy then 63 else 0, cls := 7, src := 3 }

/-- A record is written where it has an address. -/
def State.writeLoss (s : State) (a : Option Nat) (sealedCopy : Bool) (bs : List Byte) : State :=
  match a with
  | none => s
  | some a => (s.fabricWrite (lossTag sealedCopy) a bs).1

/-- A core goes offline (R172): slot 7, its slot retired, its stack emptied (R429), its task at the head of its queue
(R175). -/
def State.goOffline (s : State) (c : Nat) : State :=
  let n := clusterOf c
  let old := s.slotOf c
  let s := (s.retireSlot n old).mapSlot c 7
  let s := if old = 6 then s.setRf (Reg.CLUSTER_SPARESTAT.at n) 1 0 3 else s
  let s := ((s.stopWaiting c).requeueHeldTask c).emptyStack c
  (s.coldCore c).modCore c (fun k => { k with wait := .none, report := none, loadRep := none, halted := false, stepping := false })

/-- The core-loss record of a trigger, the core offline, and then the interrupt of its Deferred record, which goes to a core that is still there
(R57, R172-R175). lost: the doublewords of the checkpoint that could not be read; fence: the record of a cluster fence. -/
def State.loseCore (s : State) (t : SpareTrig) (lost : Nat) (fence : Bool) : State :=
  let c := t.core
  let k := s.core c
  let slot := s.slotOf c
  let atM := k.lvl == 3
  let requeued := bit (k.srd 0x200) 63
  let flags := b2n (!atM) + b2n atM * 2 + b2n requeued * 4
  let a := if atM then s.sealedLossAddr c else s.lossAddr c
  let e : ErrRec :=
    { bank := 1 + clusterOf c, unit := 0x2D, code := 0x0D, sev := .deferred, fence := fence, addr := a, tag := some (k.tag c),
      misc0 := c + slot * 2 ^ 8 + 7 * 2 ^ 12 + t.unit * 2 ^ 16 }
  let (s, i) := s.storeRecord e
  let errref := match i with
    | some i => 1 + clusterOf c + i * 2 ^ 8
    | none => 1 + clusterOf c + 2 ^ 31
  let open_ := s.lossRecord t slot lost flags errref (!atM) false
  let full := s.lossRecord t slot lost (flags ||| 1) errref true true
  let s := s.writeLoss (s.lossAddr c) false open_
  let s := s.writeLoss (s.sealedLossAddr c) true full
  (s.goOffline c).routeError e

/-- CORE_LOSS (R172): the sequence of the oldest trigger of a cluster that is a core loss. -/
def State.serveLoss (wr : RegWriter) (s : State) (c lost : Nat) : State :=
  let n := clusterOf c
  match s.spareList n with
  | [] => s
  | t :: _ =>
    if t.core ≠ c ∨ t.loss.isNone ∨ (s.core c).inDeviceLoad then s
    else
      let s := s.stopCore wr c
      if (s.core c).sbuf.isEmpty then (s.loseCore t (t.lost ||| lost) false).endSequence c 17 else s

/-! ## Detection (R159-R163, R227) -/

/-- The list without its i-th entry. -/
def dropAt {α : Type} (i : Nat) (l : List α) : List α := l.take i ++ l.drop (i + 1)

/-- How the entry of a cache, a TLB or the walk cache that fails its check is repaired before the refetch (R227), with the record's severity: a
dirty L1D line with an uncorrectable error is written to L2 poisoned. at_: the number of the line, or of the entry of the micro-TLBs (the instruction
side's first), the main TLB or the walk cache. -/
def State.repairEntry (s : State) (c unit code : Nat) (at_ : Option Nat) : State × Sev :=
  match at_ with
  | none => (s, .corrected)
  | some n =>
    if unit = 0x00 ∧ code = 0x02 then
      let l := s.mem.line n
      let gone := fun (x : Copy) => x.place == .l1d c
      match l.l1 with
      | some d =>
        if d.core = c then
          (({ s with mem := s.mem.setLine n { l with l1 := some { d with poison := true } } }).discardAt n gone false, .deferred)
        else (s.discardAt n gone false, .corrected)
      | none => (s.discardAt n gone false, .corrected)
    else if unit = 0x02 ∨ unit = 0x03 then (s.discardAt n (fun x => x.place == .l1i c) false, .corrected)
    else if unit = 0x04 then (s.dropLineBuf c, .corrected)
    else if unit = 0x06 then
      (s.modCore c (fun k => if n < k.iTlb.length then { k with iTlb := dropAt n k.iTlb } else { k with dTlb := dropAt (n - k.iTlb.length) k.dTlb }), .corrected)
    else if unit = 0x07 then (s.modCore c (fun k => { k with tlb := dropAt n k.tlb }), .corrected)
    else if unit = 0x08 then (s.modCore c (fun k => { k with walks := dropAt n k.walks }), .corrected)
    else (s, .corrected)

/-- Has a structure's UNIT this CODE (the tables of R159 and R227)? -/
def detectedCode (unit code : Nat) : Bool :=
  if [0x20, 0x21, 0x27, 0x2A, 0x01, 0x02, 0x03, 0x04, 0x05, 0x06, 0x07, 0x08].contains unit then code == 0x03
  else if unit = 0x23 then code == 0x04
  else if unit = 0x24 ∨ unit = 0x28 then code == 0x05
  else unit == 0x00 && (code == 0x01 || code == 0x02)

/-- The record of an error that INSTRUCTION_RETRY detects, after its entry's repair (R159, R227, R543). inj: an injector that the finding names, beside
one whose mark the entry holds (R541). -/
def State.detectedRecord (s : State) (c unit code : Nat) (inj at_ : Option Nat) : State :=
  let b := 1 + clusterOf c
  let mark := s.memc.marks.find? (fun m => m.on b unit c (at_.getD m.key) none)
  let s := match mark with | some m => s.unmark b unit c m.key none | none => s
  let inj := inj.or (mark.map (fun m => m.inj))
  let (s, sev) := s.repairEntry c unit code at_
  let cached := unit ≤ 0x03
  let e : ErrRec := { bank := 1 + clusterOf c, unit := unit, code := code, sev := sev, poison := sev == .deferred,
                      addr := if cached then at_.map (fun n => n * 64) else none, tag := some ((s.core c).tag c) }
  s.record (match inj with
    | some i => e.injected i
    | none => e)

/-- The ETC values of a list that lie within the last 1 ms. -/
def State.lastMs (s : State) (l : List W64) : List W64 := l.filter (fun x => decide (x ≤ s.clk.etc) && decide ((s.clk.etc - x).toNat ≤ 1000000))

/-- A retry (R160): state comes back from the checkpoint, which is the committed state; a barrier, WEV, WTU or a load that
has not committed is executed again, and the read that such a load has sent is for nobody any more; a waiting TAKE and a Device access in WB are past
it (R162). -/
def State.retryCore (s : State) (c unit code : Nat) (inj at_ : Option Nat) : State :=
  let s := s.detectedRecord c unit code inj at_
  let s := s.countUp (Reg.CLUSTER_RETRYCNT.at (clusterOf c) (indexOf c)) 32 1
  let s := match (s.core c).wait with
    | .load w => if w.device then s else (s.dropCoreReads c).modCore c (fun k => { k with wait := .none })
    | .barrier _ | .wev | .wtu _ _ => s.modCore c (fun k => { k with wait := .none })
    | _ => s
  s.modCore c (fun k =>
    { k with retries := k.retries + 1, retryEtc := s.clk.etc :: s.lastMs k.retryEtc, lastRetry := unit % 256 + code % 256 * 256 })

/-- Is a physical core at work for its logical core, so that its errors matter? -/
def State.working (s : State) (c : Nat) : Bool :=
  decide (c < numCores) && (s.core c).released && s.online c && !s.sparing c && !(s.core c).checkStopped

/-- Doublewords of the checkpoint are lost (R163): a core loss with REASON 3, whatever the reserve. -/
def State.checkpointLost (s : State) (c lost : Nat) (ecc : Ecc) : State :=
  (s.checkpointRecord c ecc).queueTrigger
    { core := c, unit := 0x22, code := 0x02, loss := some 3, etc := s.clk.etc, req := false, lost := lost }

/-- INSTRUCTION_RETRY (R160-R163, R166, R227): an error detected by CK is retried up to the budget, and is then a hard fault; a
mismatch of UNIT 0x28 after CK starts sparing. BTB, direction table, return stack and side-buffer errors only drop their entry, and one of the walk cache
repeats the walk. lost: the checkpoint doublewords that the retry's read finds uncorrectable. -/
def execInstructionRetry (c unit code : Nat) (inj line : Option Nat) (afterCk : Bool) (lost : Nat) (s : State) : Answer :=
  .next (
    if !s.working c ∨ !detectedCode unit code then s
    else if unit = 0x2A then s.modCore c (fun k => { k with pred := k.pred.dropEntry (line.getD 0) })
    else if unit = 0x05 then
      match line with
      | some n => (s.discardAt n (fun x => x.place == .side c) false).modCore c (fun k => { k with side := k.side.filter (fun m => m != n) })
      | none => s
    else if unit = 0x08 then s.detectedRecord c unit code inj line
    else if unit = 0x28 ∧ afterCk then s.trigger c unit code true false
    else
      let budget := max 1 (s.rf (Reg.CLUSTER_SPARECTL.at (clusterOf c)) 10 8)
      if (s.core c).retries ≥ budget then s.trigger c unit code true false
      else if lost % 2 ^ 120 ≠ 0 then s.checkpointLost c (lost % 2 ^ 120) .uncorrectable
      else s.retryCore c unit code inj line)

/-- CHECKPOINT_SCRUB (R159, R163): a corrected error is recorded; an uncorrectable one in doubleword i of the record's state means core loss with REASON 3,
whatever the reserve. A core whose sparing runs has its sequence turned into that loss. -/
def execCheckpointScrub (c i : Nat) (ecc : Ecc) (s : State) : Answer :=
  .next (
    let ecc := s.foundAt (1 + clusterOf c) 0x22 c (i % 120) ecc
    let s := s.unmark (1 + clusterOf c) 0x22 c (i % 120) none
    match eccFound ecc with
    | none => s
    | some unc =>
      if c ≥ numCores ∨ !s.online c ∨ !(s.core c).released then s
      else if !unc then
        s.record (ErrRec.cause { bank := 1 + clusterOf c, unit := 0x22, code := 0x01, sev := .corrected,
                                 tag := some ((s.core c).tag c) } ecc)
      else if !s.sparing c then s.checkpointLost c (2 ^ (i % 120)) ecc
      else
        let n := clusterOf c
        let hit := fun (t : SpareTrig) => t.core == c
        let unused := (s.spareList n).any (fun t => hit t && t.loss.isNone)
        let s := (s.checkpointRecord c ecc).setSpareList n ((s.spareList n).map (fun t =>
          if hit t then { t with loss := some (t.loss.getD 3), lost := t.lost ||| 2 ^ (i % 120) } else t))
        if unused then s.setRf (Reg.CLUSTER_SPARESTAT.at n) 1 0 0 else s)

/-- PROACTIVE_THRESHOLD (R166): a core whose retries of the last 1 ms of ETC have reached 16 × PRO_THRESH triggers sparing. DESIGN CHOICE (log
entry 43): the retries that have triggered it count no further. -/
def execProactiveThreshold (c : Nat) (s : State) : Answer :=
  .next (
    let k := s.core c
    if !s.working c then s else
    let th := s.rf (Reg.CLUSTER_SPARECTL.at (clusterOf c)) 23 16
    if th ≠ 0 ∧ 16 * th ≤ (s.lastMs k.retryEtc).length then
      (s.setCore c { k with retryEtc := [] }).trigger c (k.lastRetry % 256) (k.lastRetry / 256) false false
    else s)

end Sys2Proof.Machine
end

