-- ==== Sys2Proof/Machine/Tiers.lean ====
section
/-! DEFINITION. Memory tiers, their controllers and the shared caches' arrays: fences (R52, R55, R197, R226, R255), scrubbing and ECC (R228, R241, R242),
training (R235, R239), tier configuration (R231, R236, R566), wipes (R252, R253) and soft repair (R254). -/
namespace Sys2Proof.Machine

/-! ## Fences -/

/-- A line that a cluster fence poisons at the Cellar (R197), with its Deferred record in bank 9; its CODE (one of R61's) and, where the Cellar holds no
copy, its way are not stated: free values (log entry 3). -/
def State.poisonAtCellar (s : State) (n : Nat) : State :=
  let code := 1 + s.free % 14
  let way := match s.mem.copyAt n .cellar with
    | some x => x.way
    | none => s.took.free % 16
  let s := { s.took.took with mem := ((s.mem.setLine n { s.mem.line n with l1 := none, dirty := none, owner := none, poison := false }).setPoison n true) }
  s.record { bank := 9, unit := 0x04, code := code, sev := .deferred, poison := true, fence := true, addr := some (n * 64),
             misc0 := sliceOf n + way % 16 * 2 ^ 4 + nfld n 15 4 * 2 ^ 8 }

/-- The codes of R61. -/
def codeOk (code : Nat) : Bool := decide (1 ≤ code) && decide (code ≤ 0x0E)

/-- A cluster is fenced (R50, R52, R55, R197): the lines that it holds dirty or that its buffered stores
would change are poisoned; every online core of the cluster goes offline with a core-loss record, REASON 5; its caches' lines go; then the Contained record
is written. An error in a cluster that is fenced already is recorded alone. The fence retires no slot: WARM reset releases it. -/
def State.fenceCluster (s : State) (n : Nat) (e : ErrRec) : State :=
  if nfld s.memc.fencedClusters n n = 1 then s.record e
  else
    let cores := s.onlineIn (6 * n) 6
    let retired := s.rf (Reg.CLUSTER_SLOTMAP.at n) 30 24
    let reserve := s.rf (Reg.CLUSTER_SPARESTAT.at n) 1 0
    let s := { s with memc := { s.memc with fencedClusters := s.memc.fencedClusters ||| 2 ^ n } }
    let stored := (cores.map (fun c => (s.core c).sbuf.filter (fun e => !e.rtype.device) |>.map (fun e => e.pa / 64))).flatten
    let dirty := (s.mem.lines.filter (fun e => e.2.mergeL1.dirty.isSome && e.2.mergeL1.owner == some n)).map (fun e => e.1)
    let lines := dirty ++ stored.filter (fun x => !dirty.contains x)
    let s := lines.eraseDups.foldl (fun s l => s.poisonAtCellar l) s
    let s := cores.foldl (fun s c =>
      let s := (s.dropCore c true).modCore c (fun k => { k.settle with sbuf := [] })
      (s.loseCore { core := c, unit := e.unit, code := e.code, loss := some 5, etc := s.clk.etc, req := false, lost := 0 } 0 false)) s
    let mine := fun (x : Copy) => x.place.cluster == some n
    let s := (s.linesAt mine).foldl (fun s l => s.discardAt l mine false) s
    let st := Reg.CLUSTER_SPARESTAT.at n
    let s := (s.setRf (Reg.CLUSTER_SLOTMAP.at n) 30 24 retired).setRf st 1 0 reserve
    (((s.setSpareList n []).setRb st 31 false).setRb st 17 true).record e

/-- CLUSTER_FENCE (R52, R55, R197). inj: the error comes from an injector (R543). -/
def execClusterFence (n unit code : Nat) (inj : Option Nat) (s : State) : Answer :=
  .next (
    if n ≥ 8 ∨ !codeOk code then s
    else
      let e : ErrRec := { bank := 1 + n, unit := unit % 256, code := code, sev := .contained, fence := true }
      s.fenceCluster n (match inj with
        | some i => e.injected i
        | none => e))

/-- The place of an array for a line. -/
def arrayPlace : ArrayAt → CopyAt
  | .l2 n => .l2 n
  | .cellar _ => .cellar

/-- The error bank of an array. -/
def arrayBank : ArrayAt → Nat
  | .l2 n => 1 + n
  | .cellar _ => 9

/-- REC_MISC0 of a Cellar record (R228): slice, way and set; none for an L2. -/
def arrayMisc (a : ArrayAt) (way set : Nat) : Nat :=
  match a with
  | .l2 _ => 0
  | .cellar sl => sl % 16 + way % 16 * 2 ^ 4 + set % 2 ^ 12 * 2 ^ 8

/-- Does an array exist? -/
def arrayOk : ArrayAt → Bool
  | .l2 n => decide (n < 8)
  | .cellar sl => decide (sl < 16)

/-- Does a copy lie in an array? -/
def arrayHolds (a : ArrayAt) (n : Nat) (x : Copy) : Bool :=
  x.place == (arrayPlace a) && (match a with | .cellar sl => sliceOf n == sl | .l2 _ => true)

/-- WAY_FENCE (R226): the way of an exhausted column is fenced, its lines leave it, written back first, and a Contained
record with CODE 0x0C is written. The lines of a locked way are served without allocation until POR. -/
def execWayFence (a : ArrayAt) (way set : Nat) (s : State) : Answer :=
  .next (
    if !(arrayOk a) || decide (16 ≤ way) then s
    else
      let e : ErrRec := { bank := arrayBank a, unit := match a with | .l2 _ => 0x13 | .cellar _ => 0x03, code := 0x0C, sev := .contained,
                          fence := true, misc0 := arrayMisc a way set }
      if s.wayFenced a way then s.record e
      else
        let i := arrayNo a
        let here := fun (n : Nat) (x : Copy) => arrayHolds a n x && x.way == way
        let ns := (s.mem.lines.filter (fun e => e.2.copies.any (here e.1))).map (fun e => e.1)
        let locked := match a with
          | .l2 n => s.rb (Reg.CLUSTER_L2LOCK.at n) way
          | .cellar _ => s.rb Reg.SYSCTL_CELLOCK.at way
        let m := s.memc
        let m := { m with fencedWays := Sparse.set 0 m.fencedWays i (Sparse.get 0 m.fencedWays i + 2 ^ way) }
        let m := if locked then { m with unalloc := Sparse.set [] m.unalloc i (Sparse.get [] m.unalloc i ++ ns) } else m
        let s := ns.foldl (fun (s : State) n =>
          let s := s.cleanLine n
          let s := match a with
            | .l2 k => s.leaveL2 k n
            | .cellar _ => s
          s.discardAt n (here n) false) { s with memc := m }
        s.record e)

/-- The UNIT of a scrubbed part of an array (R227, R228). -/
def arrayUnit (a : ArrayAt) (part : ArrayPart) : Nat :=
  match a, part with
  | .l2 _, .data => 0x10
  | .l2 _, .tags => 0x11
  | .l2 _, .copyTags => 0x12
  | .cellar _, .data => 0x00
  | .cellar _, .tags => 0x01
  | .cellar _, .copyTags => 0x02

/-- Does an array hold a line's dirty data? -/
def CLine.dirtyIn (l : CLine) (a : ArrayAt) : Bool :=
  l.dirty.isSome && (match a with | .l2 n => l.owner == some n | .cellar _ => l.owner.isNone)

/-- CACHE_SCRUB (R227, R228): a scrubbed line of an L2 or a slice of the Cellar. Data is corrected inline; an uncorrectable error in
a clean line is refetched, in a dirty line poisons it. Tags, shadow tags and the directory are corrected; an uncorrectable error there fences the cluster
(R52), or is Fatal in the Cellar. -/
def execCacheScrub (a : ArrayAt) (part : ArrayPart) (line : Nat) (ecc : Ecc) (s : State) : Answer :=
  .next (
    if !(arrayOk a) then s
    else
    let ecc := s.foundAt (arrayBank a) (arrayUnit a part) 0 line ecc
    let s := s.unmark (arrayBank a) (arrayUnit a part) 0 line none
    match eccFound ecc, (s.mem.line line).copies.find? (fun x => arrayHolds a line x && !x.reserved) with
    | some unc, some cp =>
      let l := s.mem.line line
      let bad := unc && part == .data && l.dirtyIn a
      let sev := if !unc then .corrected else if part = .data then (if bad then .deferred else .corrected)
        else match a with | .l2 _ => .contained | .cellar _ => .fatal
      let e := ErrRec.cause {
        bank := arrayBank a, unit := arrayUnit a part, code := if unc then 0x02 else 0x01, sev := sev, poison := bad,
        fence := sev == .contained, addr := some (line * 64), misc0 := arrayMisc a cp.way (nfld line 15 4) } ecc
      match a with
      | .l2 n =>
        if sev = .contained then s.fenceCluster n e
        else
          let s := s.record e
          if bad then { s with mem := s.mem.setLine line { l with poison := true } } else s
      | .cellar _ =>
        let s := s.record e
        if bad then { s with mem := s.mem.setLine line { l with poison := true } } else s
    | _, _ => s)

/-! ## Whole-L2 operations -/

/-- A write of CLUSTERn.L2OP (R223): CLEAN and CLINV run whole in this step, so BUSY reads 0 afterwards (log entry 8). -/
def State.writeL2op (s : State) (n : Nat) (v : W32) : State :=
  if bit v 1 then s.l2op n true else if bit v 0 then s.l2op n false else s

/-- L2OP_CLEAN (R223). -/
def execL2opClean (r : Requester) (n : Nat) (s : State) : Answer :=
  .next (if n < 8 then s.byReq r (Reg.CLUSTER_L2OP.at n) (fun s => s.writeL2op n 1) else s)

/-- L2OP_CLINV (R223). -/
def execL2opClinv (r : Requester) (n : Nat) (s : State) : Answer :=
  .next (if n < 8 then s.byReq r (Reg.CLUSTER_L2OP.at n) (fun s => s.writeL2op n 2) else s)

/-! ## Tier configuration -/

/-- Does a QTIER value obey R231? -/
def qtierOk (v : W32) : Bool := fld v 21 16 != 0 && [32, 64, 128].contains (fld v 15 8)

/-- Does a DTIER value obey R236? -/
def dtierOk (v : W32) : Bool :=
  [4, 8, 16].contains (popCount 16 (fld v 23 8)) && decide (1 ≤ fld v 7 0) && decide (fld v 7 0 ≤ 32)

/-- A write of QTIER or DTIER (R566): a result that breaks its rule leaves the register unchanged; contents stay in their devices. -/
def State.writeTier (s : State) (world : Bool) (a : Nat) (ok : W32 → Bool) (v : W32) : State :=
  let s' := s.writeFields world a v
  if ok (s'.reg a) then s'.remapTiers (s.reg Reg.MEMC_QTIER.at) (s.reg Reg.MEMC_DTIER.at) else s

/-- QTIER_WRITE (R566). -/
def execQtierWrite (r : Requester) (v : W32) (s : State) : Answer :=
  .next (s.byReq r Reg.MEMC_QTIER.at (fun s => s.writeTier (s.worldOf r) Reg.MEMC_QTIER.at qtierOk v))

/-- DTIER_WRITE (R566). -/
def execDtierWrite (r : Requester) (v : W32) (s : State) : Answer :=
  .next (s.byReq r Reg.MEMC_DTIER.at (fun s => s.writeTier (s.worldOf r) Reg.MEMC_DTIER.at dtierOk v))

/-- The gate registers that a register address stands for: the same gate in every controller of a broadcast instance's tier
(R248), or the address itself. -/
def gateTargets (a : Nat) : List Nat :=
  if 0x160F0000 ≤ a ∧ a < 0x16100000 then (List.range 6).map (fun n => 0x16000000 + n * 0x10000 + (a - 0x160F0000))
  else if 0x16200000 ≤ a ∧ a < 0x16210000 then (List.range 16).map (fun n => 0x16100000 + n * 0x10000 + (a - 0x16200000))
  else [a]

/-! ## Training -/

/-- A controller's training ends (R235, R239, R241): TRAINED and READY, or FAIL with a record: Fatal at run time, and
Deferred before the image is applied, where STAT.READY stays 0. -/
def State.trainEnd (s : State) (k mode : Nat) (ok : Bool) : State :=
  let tr := ctrlBase k + 0x10
  let st := ctrlBase k + 4
  let s := (s.setRb tr 31 false).setRf tr 1 0 mode
  if ok then (s.setRb st 1 true).setRb st 0 true
  else
    let s := s.setRb tr 29 true
    let s := if s.memc.applied then s else s.setRb st 0 false
    s.record { bank := ctrlBank k, unit := 0x03, code := 0x07, sev := if s.memc.applied then .fatal else .deferred }

/-- TRAIN_FULL (R235): MODE 0; the results go to TRAINDATA. -/
def execTrainFull (k : Nat) (results : List W32) (ok : Bool) (s : State) : Answer :=
  .next (
    if k ≥ 22 then s
    else
      let s := if ok then (List.range 256).foldl (fun s i => s.setReg (ctrlBase k + 0x400 + 4 * i) (results.getD i 0)) s else s
      s.trainEnd k 0 ok)

/-- TRAIN_LOAD (R239): MODE 1, TRAINDATA loaded and verified; a DRAM channel leaves self-refresh. -/
def execTrainLoad (k : Nat) (ok : Bool) (s : State) : Answer :=
  .next (
    if k ≥ 22 then s
    else
      let s := s.trainEnd k 1 ok
      if ok ∧ 6 ≤ k then s.setRb (ctrlBase k + 4) 2 false else s)

/-- TRAIN_INVALID_MODE (R235): GO with MODE 2 or 3 sets FAIL. -/
def execTrainInvalidMode (k : Nat) (s : State) : Answer :=
  .next (if k ≥ 22 then s else (s.setRb (ctrlBase k + 0x10) 31 false).setRb (ctrlBase k + 0x10) 29 true)

/-- A write of MEMC.TRAIN: GO with an invalid MODE sets FAIL; with MODE 0 or 1 it reads 1 until the training ends. -/
def State.writeTrain (s : State) (world : Bool) (a : Nat) (v : W32) : State :=
  let s := s.writeFields world a v
  if bit v 31 ∧ s.rf a 1 0 ≥ 2 then (s.setRb a 31 false).setRb a 29 true else s

/-- PERIODIC_RETRAINING (R238, R241): a failure is Fatal. -/
def execPeriodicRetraining (n : Nat) (ok : Bool) (s : State) : Answer :=
  .next (
    if n ≥ 16 then s
    else if ok then s.wakeChannel (6 + n)
    else s.record { bank := 16 + n, unit := 0x03, code := 0x07, sev := .fatal })

/-- POWER_DOWN (R238): a present DRAM channel that has been idle enters power-down until its next access. -/
def execPowerDown (n : Nat) (s : State) : Answer :=
  .next (
    if n < 16 ∧ s.rb Reg.MEMC_DTIER.at (8 + n) then
      { s with memc := { s.memc with powerDown := Sparse.set false s.memc.powerDown n true } }
    else s)

/-! ## Scrubbing, timeouts and repair -/

/-- An ECC finding of a controller at a line (R241), by a scrub (UNIT 0x01) or a demand read (0x00): corrected and written back, or stored poisoned.
The syndrome is not stated: a free value (log entry 3). -/
def State.eccAt (s : State) (k unit line column : Nat) (t : Option AccessTag) (ecc : Ecc) : State :=
  let ecc := if k = 22 then s.foundAt 32 0x00 0 line ecc else ecc
  let s := if k = 22 then s.unmark 32 0x00 0 line none else s
  match eccFound ecc, s.decode (line * 64) with
  | some unc, .tier ctrl off =>
    if ctrl ≠ k then s
    else
      let syn := s.free % 2 ^ 16
      let s := s.took.record (ErrRec.cause {
        bank := ctrlBank k, unit := unit, code := if unc then 0x02 else 0x01, sev := if unc then .deferred else .corrected,
        poison := unc, addr := some (line * 64), tag := t, misc0 := s.localAddr ctrl off,
        misc1 := syn + (if k ≥ 22 then column % 256 * 2 ^ 16 else 0) } ecc)
      if unc then { s with mem := s.mem.setPoison line true } else s.countUp (ctrlBase k + 0xC) 32 1
  | _, _ => s

/-- A scrub's ECC finding at a line of a controller (R241, R242). -/
def State.scrubbed (s : State) (k line column : Nat) (ecc : Ecc) : State := s.eccAt k 0x01 line column none ecc

/-- A demand read of a line reaches its controller (R241): parity errors on its command, repeated up to 3 times, and the ECC finding. The column of an
SRAM error is not stated: a free value (log entry 3). -/
def State.demandRead (s : State) (t : AccessTag) (line parity : Nat) (ecc : Ecc) : State :=
  match s.decode (line * 64) with
  | .tier k off =>
    let s := if parity = 0 then s
      else s.record { bank := ctrlBank k, unit := 0x02, code := 0x03, sev := if 4 ≤ parity then .fatal else .corrected, addr := some (line * 64),
                      tag := some t, misc0 := s.localAddr k off }
    s.took.eccAt k 0x00 line s.free (some t) ecc
  | _ => s

/-- PATROL_SCRUB (R242): a QDR or DRAM line; CTL.SCRUBH = 0 turns it off. -/
def execPatrolScrub (k line : Nat) (ecc : Ecc) (s : State) : Answer :=
  .next (if k < 22 ∧ s.rf (ctrlBase k) 15 8 ≠ 0 then s.scrubbed k line 0 ecc else s)

/-- SRAM_SCRUB (R242): a Tun or Cask line; the column of the error is not stated by the scrub: a free value (log entry 3). -/
def execSramScrub (cask : Bool) (line : Nat) (ecc : Ecc) (s : State) : Answer :=
  .next (s.took.scrubbed (if cask then 23 else 22) line s.free ecc)

/-- The base address of a Tun or Cask bank. -/
def sramBase (cask : Bool) (bank : Nat) : Nat := (if cask then 0x1000000 else 0x2000000) + bank * 2 ^ 19

/-- The number of Tun or Cask banks. -/
def sramBanks (cask : Bool) : Nat := if cask then 4 else 32

/-- BANKSTAT of a Tun or Cask bank. -/
def bankStat (cask : Bool) (bank : Nat) : Nat := ctrlBase (if cask then 23 else 22) + 0x100 + bank * 4

/-- A bank without a spare left is fenced (R255): its cached lines go, dirty data lost, and it becomes unmapped. An error in a bank that is fenced
already is recorded alone (R55). -/
def State.fenceBank (s : State) (cask : Bool) (bank : Nat) : State :=
  let e (dirty : Nat) : ErrRec :=
    { bank := if cask then 33 else 32, unit := 0x06, code := 0x0C, sev := .contained, fence := true, misc1 := bank * 2 ^ 24 + dirty % 2 ^ 16 }
  if s.rb (bankStat cask bank) 31 then s.record (e 0)
  else
    let lo := sramBase cask bank / 64
    let inBank := (s.mem.lines.filter (fun e => decide (lo ≤ e.1) && decide (e.1 < lo + 8192))).map (fun e => e.1)
    let dirty := (inBank.filter (fun n => (s.mem.line n).isDirty)).length
    let s := inBank.foldl (fun s n => { s with mem := s.mem.setLine n CLine.empty }) s
    (s.setRb (bankStat cask bank) 31 true).record (e dirty)

/-- SRAM_BANK_FENCE (R255). -/
def execSramBankFence (cask : Bool) (bank : Nat) (s : State) : Answer :=
  .next (if bank < sramBanks cask then s.fenceBank cask bank else s)

/-- SOFT_REPAIR (R254, R255): a free spare is mapped in and the bank is swept; the uncorrectable lines are stored poisoned.
Without a free spare the bank is fenced. -/
def execSoftRepair (cask : Bool) (bank column : Nat) (lines : List Nat) (s : State) : Answer :=
  .next (
    let a := bankStat cask bank
    if bank ≥ sramBanks cask then s
    else if s.rb a 31 then s.fenceBank cask bank
    else if s.rf a 15 12 ≤ s.rf a 11 8 + s.rf a 3 0 then s.fenceBank cask bank
    else
      let s := s.setRf a 11 8 (s.rf a 11 8 + 1)
      let s := s.record { bank := if cask then 33 else 32, unit := 0x05, code := 0x01, sev := .corrected,
                          misc0 := bank * 2 ^ 19, misc1 := column % 256 * 2 ^ 16 }
      let lo := sramBase cask bank / 64
      lines.foldl (fun s n => if lo ≤ n ∧ n < lo + 8192 then { s with mem := s.mem.setPoison n true } else s) s)

/-! ## Wipes -/

/-- The bytes of a range are zero again, with no mark (R250, R252). Unlisted memory reads zero, so the entries go. -/
def Mem.clearRange (m : Mem) (lo hi : Nat) : Mem :=
  { m with cells := m.cells.filter (fun e => decide (e.1 < lo) || decide (hi ≤ e.1)),
           poisoned := m.poisoned.filter (fun e => decide (e.1 < lo / 64) || decide (hi / 64 ≤ e.1)) }

/-- A wipe of Cask (R252): whole in this step (log entry 8). record: tamper and debug-unlock wipes write UNIT 0x08. -/
def State.wipeCask (s : State) (cause : Nat) (rec : Bool) : State :=
  let a := Reg.MEMC_CASK_WIPE.at
  let s := { s with mem := s.mem.clearRange 0x1000000 0x1200000 }
  let s := (s.setRf a 7 4 cause).setRb a 1 true
  if rec then s.record { bank := 33, unit := 0x08, code := 0x07, sev := .contained, misc0 := cause } else s

/-- A write of CASK.WIPE (R252): every field is SW; GO starts a wipe. -/
def State.writeWipe (s : State) (world : Bool) (v : W32) : State :=
  let a := Reg.MEMC_CASK_WIPE.at
  let s := (s.writeFields world a v).setRb a 0 false
  if world ∧ bit v 0 then s.wipeCask 5 false else s

/-- WIPE (R252): a write of GO by a requester. -/
def execWipe (r : Requester) (s : State) : Answer :=
  .next (s.byReq r Reg.MEMC_CASK_WIPE.at (fun s => s.writeWipe (s.worldOf r) (setFld (s.reg Reg.MEMC_CASK_WIPE.at) 0 0 1)))

/-- Is tamper detection armed (R253)? In PARK the AON domain holds ARM in the configuration snapshot (R523). -/
def State.tamperArmed (s : State) : Bool :=
  let l := s.rf Reg.BOOT_LCS.at 2 0
  let a := Reg.MEMC_CASK_WIPE.at
  l == 2 || l == 3 || ((l == 0 || l == 1) && bit (if s.clk.power = .park then Sparse.get 0 s.boot.snap a else s.reg a) 16)

end Sys2Proof.Machine
end

