-- ==== Sys2Proof/Machine/DebugUnit.lean ====
section
/-! DEFINITION. The DEBUG block (chapter Sealed World, Isolation and Debug): the debug enables (R443), the authenticated unlock
(R444-R446), CORECTL and ITR (R448, R449). -/
namespace Sys2Proof.Machine

/-- LCS.STATE: 0 BLANK, 1 PROVISION, 2 PRODUCTION, 3 FIELD-RETURN, 4 SCRAPPED. -/
def State.lifeCycle (s : State) : Nat := s.rf Reg.BOOT_LCS.at 2 0

/-! ## Enables -/

/-- The enables in force (R443): bit 0 OPEN_NINV, 1 OPEN_INV, 2 SEAL_NINV, 3 SEAL_INV. -/
def State.enables (s : State) : Nat :=
  let l := s.lifeCycle
  let t := s.boot.token % 16
  if l = 0 then 0xF
  else if l = 1 ∨ l = 3 then t ||| 3
  else if l = 2 then t ||| s.rf Reg.DEBUG_AUTH.at 9 8
  else 0

/-- A core leaves halt (R448). -/
def State.unhalt (s : State) (c : Nat) : State :=
  if (s.core c).halted then
    (s.modCore c (fun k => { k with halted := false, stepping := false })).setRb (Reg.DEBUG_CORECTL.at c) 31 false
  else s

/-- AUTH.EN follows the enables: injection permission may lapse (R540), and where SEAL_INV falls the cores halted at M
resume (R443). -/
def State.refreshAuth (s : State) : State :=
  let was := s.rb Reg.DEBUG_AUTH.at 3
  let s := (s.setRf Reg.DEBUG_AUTH.at 3 0 s.enables).injLapse
  if was ∧ !s.rb Reg.DEBUG_AUTH.at 3 then
    (List.range numCores).foldl (fun s c => if (s.core c).lvl = 3 then s.unhalt c else s) s
  else s

/-- A write of AUTH: the sealed grants and LOCKOUT. -/
def State.writeAuth (s : State) (w : Bool) (v : W32) : State := (s.writeFields w Reg.DEBUG_AUTH.at v).refreshAuth

/-! ## Unlock -/

/-- CHAL (R444): NONCE holds 32 bytes of the sealed DRBG. -/
def State.challenge (s : State) : State :=
  let s := (List.range 8).foldl (fun s i =>
    let (s, v) := s.rngRead true true
    s.setReg (Reg.DEBUG_NONCE.at i) v) s
  s.setRb Reg.DEBUG_UNLOCK.at 0 true

/-- RELOCK (R443): token enables end, and grants last no longer. -/
def State.relock (s : State) : State := ({ s with boot := { s.boot with token := 0 } }.setRf Reg.DEBUG_AUTH.at 9 8 0).refreshAuth

/-- The bytes of n registers from an address. -/
def State.regBytes (s : State) (a n : Nat) : List Byte := ((List.range n).map (fun i => leBytes 4 (s.reg (a + 4 * i)).toNat)).flatten

/-- A big-endian number of n bytes at an offset. -/
def beAt (b : List Byte) (o n : Nat) : Nat := leNat ((b.drop o).take n).reverse

/-- The result of the checks of R445 over the token in TOKBUF. -/
def State.tokenCheck (s : State) : Nat :=
  let b := (s.regBytes Reg.DEBUG_TOKBUF.at 1378).take 5509
  let sub (o n : Nat) : List Byte := (b.drop o).take n
  let en := beAt b 6 2
  let hash := Config.digest 1 [] (sub 0x38 0x800)
  let stat := s.reg Reg.BOOT_KEYSTAT.at
  let msg := sub 0 0x838
  if s.rb Reg.DEBUG_AUTH.at 16 ∨ s.rf Reg.DEBUG_UNLOCK.at 19 16 ≥ 8 then 2
  else if sub 0 4 ≠ [0x44, 0x54, 0x4F, 0x4B] ∨ beAt b 4 2 ≠ 1 ∨ en = 0 ∨ 16 ≤ en ∨ beAt b 0x34 4 ≠ 0 then 3
  else if !s.rb Reg.DEBUG_UNLOCK.at 0 ∨ sub 0x10 32 ≠ s.regBytes Reg.DEBUG_NONCE.at 8 then 4
  else if sub 8 8 ≠ Config.serial then 5
  else if nfld (beAt b 0x30 4) s.lifeCycle s.lifeCycle = 0 ∨ s.lifeCycle = 4 then 6
  else if !(List.range 2).any (fun n => bit stat (8 + n) && !bit stat (10 + n) && hash == Config.debugKeyHash n) then 7
  else if !(Config.verify 1 msg (sub 0x38 96 ++ sub 0x838 96) && Config.verify 2 msg (sub 0x98 1952 ++ sub 0x898 3309)) then 8
  else 1

/-- GO (R445, R446): the nonce is consumed; a failure is counted and recorded; on OK the enables that the token names are set, and
where SEAL_INV becomes set Cask and Kiln are cleared first. -/
def State.unlockGo (s : State) : State :=
  let a := Reg.DEBUG_UNLOCK.at
  let res := s.tokenCheck
  let en := beAt (s.regBytes Reg.DEBUG_TOKBUF.at 2) 6 2
  let s := (s.setRf a 27 24 res).setRb a 0 false
  if res ≠ 1 then
    (s.setRf a 19 16 (min 8 (s.rf a 19 16 + 1))).record
      { bank := 47, unit := 0x21, code := 0x07, sev := .deferred, tag := some (s.tagOf .dap) }
  else
    let s := if nfld en 3 3 = 1 ∧ !s.rb Reg.DEBUG_AUTH.at 3 then (s.wipeCask 6 true).clearKeysRecorded else s
    ({ s with boot := { s.boot with token := s.boot.token ||| en } }).refreshAuth

/-- A write of UNLOCK: CHAL, then GO, then RELOCK. -/
def State.writeUnlock (s : State) (v : W32) : State :=
  let s := if bit v 30 then s.challenge else s
  let s := if bit v 31 then s.unlockGo else s
  if bit v 28 then s.relock else s

/-! ## Halting -/

/-- A write of CORECTL (R448): HALT waits for the next boundary as HPEND; RESUME and STEP let a halted core go. -/
def State.writeCoreCtl (s : State) (w : Bool) (c : Nat) (v : W32) : State :=
  let a := Reg.DEBUG_CORECTL.at c
  let s := s.writeFields w a (v &&& 0x20000000)
  let s := if bit v 0 ∧ !(s.core c).halted then s.setRb a 30 true else s
  if (s.core c).halted ∧ bit v 2 then (s.unhalt c).modCore c (fun k => { k with stepping := true })
  else if bit v 1 then s.unhalt c
  else s

/-- A write of ITR (R449): the word waits to be executed; on a core that is not halted it has no effect. -/
def State.writeItr (s : State) (c : Nat) (v : W32) : State :=
  if (s.core c).halted then { s with boot := { s.boot with itr := Sparse.set none s.boot.itr c (some v) } } else s

end Sys2Proof.Machine
end

