-- ==== Sys2Proof/Machine/RelayPort.lean ====
section
/-! DEFINITION. Relay ports (chapter Relay Links and the Device Hierarchy): states and training (R362, R363), frames, acknowledgement and replay (R364, R371),
batons (R368-R370), fast retrain (R372, R373), and the loss of a device (R388). -/
namespace Sys2Proof.Machine

/-! ## Fields -/

/-- Is this device strapped manager (R2)? -/
def State.manager (s : State) : Bool := s.rb Reg.SYSCTL_ID.at 0

/-- This device's INCARN (R363). -/
def State.incarn (s : State) : Nat := s.rf Reg.RELAY_HID.at 31 16

/-- PORTSTAT.STATE and CAUSE are set. -/
def State.setPort (s : State) (p st cause : Nat) : State :=
  let a := Reg.RELAY_PORTSTAT.at p
  (s.setRf a 2 0 st).setRf a 31 28 cause

/-- The counts of the four VLs in a table. -/
def vlCounts (m : Sparse Nat) : List Nat := (List.range 4).map (fun v => Sparse.get 0 m v)

/-- A table of four counts. -/
def vlTable (l : List Nat) : Sparse Nat := (List.range 4).foldl (fun m v => Sparse.set 0 m v (l.getD v 0)) []

/-- Flits that a port discards are counted (DROPCNT). -/
def State.dropCount (s : State) (p n : Nat) : State := if n = 0 then s else s.countUp (Reg.RELAY_DROPCNT.at p) 32 n

/-- A record of a port's bank (R394). -/
def State.portRecord (s : State) (p unit code : Nat) (sev : Sev) (m0 m1 : Nat) : State :=
  s.record { bank := portBank p, unit := unit, code := code, sev := sev, misc0 := m0, misc1 := m1 }

/-- The record of a port's fence, written after what the port held has returned (R50, R564). -/
def State.portFenceRecord (s : State) (p unit code : Nat) : State :=
  s.record { bank := portBank p, unit := unit, code := code, sev := .contained, fence := true }

/-! ## Loss of a device and of a port -/

/-- A LOSS notice leaves for a device, and is kept until it is acknowledged (R388, R389). -/
def State.sendLoss (s : State) (toDev d : Nat) : State :=
  let s := { s with relay := { s.relay with losses := if (toDev, d) ∈ s.relay.losses then s.relay.losses else s.relay.losses ++ [(toDev, d)] } }
  s.sendTo { vl := 3, ty := 6, dst := toDev, src := s.devIndex, tag := 0, info := 0, payload := pad64 (leBytes 1 d) }

/-- The manager passes a loss on to every present worker but the lost one (R388). -/
def State.tellWorkers (s : State) (d : Nat) : State :=
  (List.range' 1 30).foldl (fun s w => if w ≠ d ∧ s.rb Reg.RELAY_HPRESENT.at w then s.sendLoss w d else s) s

/-- The Relay peer paths that a predicate of their binding names are fenced with CAUSE 3 (R381). -/
def State.fencePeerPaths (s : State) (which : W32 → Bool) (peer : Bool) : State :=
  (List.range 20).foldl (fun s k =>
    let b := s.reg (Reg.RELAY_PEERPATH.at k)
    if (bit b 31 ∨ s.pathState (0x4C + k) = 1) ∧ which b ∧ s.canFence (0x4C + k) then s.fencePath (0x4C + k) 3 (peer || decide (fld b 4 0 ∈ s.relay.lost)) else s) s

/-- A device is lost (R388): recorded, its HPRESENT bit cleared, its paths fenced, PEERWAIT begun. notify: found here, by a new
INCARN or the last route failing. -/
def State.loseDevice (s : State) (p d : Nat) (notify : Bool) : State :=
  if d > 30 ∨ d = s.devIndex ∨ d ∈ s.relay.lost then s
  else
    let w := s.relay.waiting
    let s := { s with relay := { s.relay with lost := s.relay.lost ++ [d], waiting := if d ∈ w then w else w ++ [d] } }
    let s := (s.setRb Reg.RELAY_HPRESENT.at d false).portRecord p 0x09 0x07 .deferred d 0
    let s := s.fencePeerPaths (fun b => fld b 4 0 == d) true
    if !notify then s else if s.manager then s.tellWorkers d else if d = 0 then s else s.sendLoss 0 d

/-- A device is reached again. A PEERWAIT that runs goes on (R311). -/
def State.findDevice (s : State) (d : Nat) : State :=
  { s with relay := { s.relay with lost := s.relay.lost.filter (fun x => x != d) } }

/-- A response to a request leaves for its source (R366). -/
def State.respond (s : State) (f : Flit) (ty status : Nat) (data : List Byte) : State :=
  s.sendTo { vl := 1, ty := ty, dst := f.src, src := s.devIndex, tag := f.tag, info := status, payload := pad64 data }

/-- The TYPE of the response to a request: RDR for reads, CMP otherwise. -/
def responseType (f : Flit) : Nat := if f.ty = 0 ∨ f.ty = 4 then 0 else 1

/-- A flit without a route is discarded, and another device's request answered NOROUTE (R377). -/
def State.noRoute (s : State) (p : Nat) (f : Flit) : State :=
  let s := s.dropCount p 1
  if f.vl = 0 ∧ f.ty ≠ 2 ∧ f.src ≠ s.devIndex then s.respond f (responseType f) 3 [] else s

/-- A queued flit of a port without a link leaves by another route, if it has one; a forwarded step's FWD has its bound port alone (R382). A request
of this device is then that port's (R380). -/
def State.rerouteFlit (s : State) (p : Nat) (f : Flit) : State :=
  match s.routeTo f.dst with
  | none => s.noRoute p f
  | some o =>
    let own := f.vl = 0 ∧ f.src = s.devIndex
    if own ∧ f.ty = 3 then s.noRoute p f
    else
      let s := if own then
          { s with relay := { s.relay with reqs := Sparse.set none s.relay.reqs f.tag ((Sparse.get none s.relay.reqs f.tag).map (fun r => { r with port := o })) } }
        else s
      s.sendOn o f

/-- The queued flits of a port without a link (R377). -/
def State.reroute (s : State) (p : Nat) : State :=
  let q := (s.port p).queue
  let s := s.modPort p (fun x => { x with queue := [] })
  q.foldl (fun s f => s.rerouteFlit p f) s

/-- What follows a port's leaving ACTIVE and RETRAIN (R381, R388): devices whose last route it was are lost, and the paths bound to it
are fenced. -/
def State.afterDown (s : State) (p : Nat) : State :=
  let s := (List.range 31).foldl (fun s d =>
    if nfld (s.rf (Reg.RELAY_HROUTE.at d) 5 0) p p = 1 ∧ !s.relayUp d then s.loseDevice p d true else s) s
  let s := s.fencePeerPaths (fun b => fld b 10 8 == p) false
  s.reroute p

/-- The port's link state begins anew: SEQ 0, each pool at its total, nothing kept but what waits to be sent (R363, R370). -/
def State.clearPort (s : State) (p : Nat) : State := s.modPort p (fun q => { Port.reset with queue := q.queue, inj := q.inj, nbr := q.nbr })

/-- A port goes DOWN or to DISABLED. -/
def State.portDown (s : State) (p st cause : Nat) : State :=
  let a := Reg.RELAY_PORTSTAT.at p
  let was := s.portState p
  let s := (((s.setPort p st cause).setRf a 9 8 0).setRf a 20 16 31).setRf a 23 21 0
  let s := s.clearPort p
  if was = 3 ∨ was = 4 then s.afterDown p else s

/-- A port is fenced (R52, R370): what it holds is discarded and counted. -/
def State.fencePort (s : State) (p cause : Nat) : State :=
  let q := s.port p
  let was := s.portState p
  let s := (s.dropCount p (q.rx.length + q.replay.length)).clearPort p
  let s := (s.setPort p 5 cause).setRb (Reg.RELAY_PORTCTL.at p) 16 true
  if was = 3 ∨ was = 4 then s.afterDown p else s

/-- A baton balance failure (R370). -/
def State.batonFail (s : State) (p : Nat) : State := (s.fencePort p 3).portFenceRecord p 0x04 0x0A

/-- A miswired port goes DOWN (R363). -/
def State.miswire (s : State) (p : Nat) : State := (s.portRecord p 0x07 0x07 .contained 0 0).portDown p 1 4

/-! ## Training -/

/-- The width code of a set of working lanes (R363): 3 four lanes, 2 two, 1 one, 0 none. -/
def widthOf (lanes : Nat) : Nat :=
  if lanes % 16 = 15 then 3 else if lanes % 4 = 3 ∨ lanes / 4 % 4 = 3 then 2 else if lanes % 16 = 0 then 0 else 1

/-- Our own PARAM frame leaves (R363). -/
def State.sendParam (s : State) (p : Nat) : State :=
  s.emitControl p 3 [b2n s.manager, s.devIndex, p, s.incarn, (s.port p).expect]

/-- FULL_TRAINING (R363): signal on a DOWN port; lanes: those that work. -/
def execFullTraining (port : Nat) (lanes : BitVec 4) (s : State) : Answer :=
  .next (if port < 6 ∧ s.portState port = 1 ∧ lanes ≠ 0 then
    ((((s.clearPort port).modPort port (fun q => { q with width := widthOf lanes.toNat })).setRf (Reg.RELAY_PORTSTAT.at port) 2 0 2).sendParam port)
  else s)

/-- The worker that the topology puts at a manager's own port, if any (R374, R375). -/
def State.childAt (s : State) (parent p : Nat) : Option Nat :=
  (List.range' 1 30).find? (fun i =>
    let e := s.reg (Reg.RELAY_HTOPO.at i)
    bit e 31 && fld e 4 0 == parent && fld e 10 8 == p)

/-- The tier of a worker in the topology. -/
def State.tierOf (s : State) (i : Nat) : Nat := if s.rf (Reg.RELAY_HTOPO.at i) 4 0 = 0 then 1 else 2

/-- The routes of worker i (R375): its children by their parent port, everything else by its own upstream port. -/
def State.routesOf (s : State) (i : Nat) : List Nat :=
  let up := 2 ^ s.rf (Reg.RELAY_HTOPO.at i) 14 12
  (List.range 31).map (fun d =>
    let e := s.reg (Reg.RELAY_HTOPO.at d)
    if d = i then 0 else if d ≠ 0 ∧ bit e 31 ∧ fld e 4 0 = i then 2 ^ fld e 10 8 else up)

/-- The manager sends ASSIGN, then ROUTESET, to a worker (R375, R392): a tier-2 worker's ASSIGN goes by its parent. -/
def State.sendAssign (s : State) (i : Nat) : State :=
  let e := s.reg (Reg.RELAY_HTOPO.at i)
  let parent := fld e 4 0
  let f : Flit :=
    { vl := 3, ty := 0, dst := if parent = 0 then 31 else parent, src := 0, tag := 0, info := 0,
      payload := pad64 (leBytes 1 i ++ leBytes 1 (fld e 14 12) ++ leBytes 1 (fld e 10 8) ++ leBytes 1 (s.tierOf i) ++
        leBytes 4 (s.rf Reg.RELAY_IMGOFS.at 23 0) ++ leBytes 4 (s.rf Reg.RELAY_IMGLEN.at 23 0)) }
  let s := { s with relay := { s.relay with assign := if i ∈ s.relay.assign then s.relay.assign else s.relay.assign ++ [i] } }
  let s := if parent = 0 then s.sendOn (fld e 10 8) f else s.sendTo f
  s.sendTo { f with ty := 1, dst := i, payload := pad64 ((s.routesOf i).map (fun r => BitVec.ofNat 8 r)) }

/-- Is a PARAM frame that of a miswired link (R363)? -/
def State.miswired (s : State) (p : Nat) (m : ParamMsg) : Bool :=
  (m.manager && s.manager) || (m.manager == s.manager && m.incarn == s.incarn && m.index == s.devIndex && m.port != p) ||
  (s.manager && (match s.childAt 0 p with
    | some i => (m.index != 31 && m.index != i) || m.port != s.rf (Reg.RELAY_HTOPO.at i) 14 12
    | none => false))

/-- The neighbour that a PARAM frame shows is entered in PORTSTAT and NBRINC. -/
def State.setNeighbour (s : State) (p : Nat) (m : ParamMsg) : State :=
  let a := Reg.RELAY_PORTSTAT.at p
  let s := if m.index = 31 then s else s.modPort p (fun q => { q with nbr := m.index })
  ((s.setRf a 20 16 m.index).setRf a 23 21 m.port).setReg (Reg.RELAY_NBRINC.at p) (BitVec.ofNat 32 (2 ^ 31 + m.incarn % 65536))

/-- Replay from a SEQ (R371): every later frame of the replay buffer goes out again. -/
def State.replayFrom (s : State) (p seq : Nat) : State :=
  let fs := (s.port p).replay.dropWhile (fun e => e.1 != seq)
  if fs.isEmpty then s
  else fs.foldl (fun s e => s.sendFrame p e.1 e.2) (s.countUp (Reg.RELAY_REPLAYCNT.at p) 32 1)

/-- Our RECON frame leaves, once in a retrain (R373). -/
def State.sendRecon (s : State) (p : Nat) : State :=
  let q := s.port p
  if q.reconSent then s
  else (s.modPort p (fun q => { q with reconSent := true })).emitControl p 4 (vlCounts q.accepted ++ vlCounts q.freed)

/-- Training completes (R363): the port is ACTIVE; devices that it leads to are reached again; a manager assigns its worker. -/
def State.trained (s : State) (p : Nat) (m : ParamMsg) : State :=
  let inc := s.reg (Reg.RELAY_NBRINC.at p)
  let d := if m.index = 31 then (s.port p).nbr else m.index
  let s := s.setNeighbour p m
  let s := if bit inc 31 ∧ fld inc 15 0 ≠ m.incarn then s.loseDevice p d true else s
  let s := (s.setRf (Reg.RELAY_PORTSTAT.at p) 9 8 (s.port p).width).setRf (Reg.RELAY_PORTSTAT.at p) 2 0 3
  let s := (List.range 31).foldl (fun s d => if nfld (s.rf (Reg.RELAY_HROUTE.at d) 5 0) p p = 1 then s.findDevice d else s) s
  let s := if nfld (s.rf (Reg.RELAY_HROUTE.at 0) 5 0) p p = 1 then { s with relay := { s.relay with fresh := true } } else s
  let s := if s.manager then (match s.childAt 0 p with | some i => s.sendAssign i | none => s) else s
  s.pump p

/-- PARAM (R363, R373): the neighbour's PARAM frame, in training or in a retrain, where the replay that it asks for follows. -/
def execParam (port : Nat) (m : ParamMsg) (s : State) : Answer :=
  .next (if port ≥ 6 then s
    else if s.portState port = 2 then (if s.miswired port m then s.miswire port else s.trained port m)
    else if s.portState port = 4 then
      if m.incarn ≠ s.rf (Reg.RELAY_NBRINC.at port) 15 0 then
        let d := (s.port port).nbr
        let s := s.dropCount port (s.port port).replay.length
        let s := s.modPort port (fun q => { q with replay := [] })
        let s := s.loseDevice port (if m.index = 31 then d else m.index) true
        s.portDown port 1 6
      else if m.index ≠ s.rf (Reg.RELAY_PORTSTAT.at port) 20 16 ∧ s.rf (Reg.RELAY_PORTSTAT.at port) 20 16 ≠ 31 then s
      else
        let s := s.modPort port (fun q => { q with recon := true })
        (s.setNeighbour port m).replayFrom port m.expect
    else s)

/-! ## Acknowledgement, replay, batons -/

/-- A port enters RETRAIN (R372); lost: the lanes that lost block lock. -/
def State.enterRetrain (s : State) (p lost : Nat) : State :=
  let s := s.modPort p (fun q => { q with lanes := lost, recon := false, reconSent := false, start := s.clk.etc, replays := 0 })
  (s.setRf (Reg.RELAY_PORTSTAT.at p) 2 0 4).sendParam p

/-- A replay that the receiver asks for or that a timeout starts (R371): where four in a row of one SEQ have not advanced the ACK, a fast
retrain starts in its place (R372). -/
def State.replay (s : State) (p seq : Nat) : State :=
  let q := s.port p
  let n := if q.replaySeq = seq then q.replays else 0
  if n ≥ 4 then s.enterRetrain p 0
  else (s.replayFrom p seq).modPort p (fun q => { q with replays := n + 1, replaySeq := seq })

/-- An ACK covers the frames up to its SEQ (R371). -/
def State.acked (s : State) (p seq : Nat) : State :=
  let q := s.port p
  if q.replay.any (fun e => e.1 == seq) then
    (s.modPort p (fun q => { q with replay := (q.replay.dropWhile (fun e => e.1 != seq)).drop 1, replays := 0 })).pump p
  else s

/-- Does a VL carry a TYPE (R366)? -/
def typeOk (f : Flit) : Bool :=
  if f.vl = 0 then decide (f.ty ≤ 5) else if f.vl = 1 then decide (f.ty ≤ 1) else if f.vl = 2 then decide (f.ty ≤ 3) else decide (f.ty ≤ 7)

/-- A NAK names the expected SEQ, once for an episode (R371). -/
def State.sendNak (s : State) (p : Nat) : State :=
  if (s.port p).nak then s
  else (s.modPort p (fun q => { q with nak := true })).emitControl p 1 [(s.port p).expect]

/-- DATA_FRAME_RECEIVE (R364, R366, R370, R371, R393): only the next expected SEQ with a correct CRC is accepted; injected: the neighbour's
injector made the fault. -/
def execDataFrameReceive (port : Nat) (seq : BitVec 9) (crcOk : Bool) (ack : Option (BitVec 9)) (f : Flit) (injected : Bool) (s : State) : Answer :=
  .next (if port ≥ 6 ∨ (s.portState port ≠ 3 ∧ s.portState port ≠ 4) then s
    else
      let s := match crcOk, ack with
        | true, some a => s.acked port a.toNat
        | _, _ => s
      let q := s.port port
      if !crcOk ∨ seq.toNat ≠ q.expect then
        let code := if crcOk then 0x07 else 0x03
        let s := if q.nak then s
          else s.portRecord port 0x01 (if injected then 0x0E else code) .corrected (if injected then code else 0) 0
        s.sendNak port
      else if !typeOk f then (s.portRecord port 0x08 0x07 .deferred 0 0).sendNak port
      else if q.occupied f.vl ≥ batonTotal f.vl then s.batonFail port
      else
        s.modPort port (fun q =>
          { q with expect := (q.expect + 1) % 512, nak := false, rx := q.rx ++ [f], since := q.since + 1,
                   accepted := Sparse.set 0 q.accepted f.vl ((Sparse.get 0 q.accepted f.vl + 1) % 0x10000) }))

/-- The ACK of a control frame's trailer (R364, R371). -/
def State.ackedBy (s : State) (p : Nat) (ack : Option (BitVec 9)) : State :=
  match ack with
  | some a => if p < 6 ∧ (s.portState p = 3 ∨ s.portState p = 4) then s.acked p a.toNat else s
  | none => s

/-- IDLE (R364): a control frame without a link message; its trailer's ACK counts. In a retrain it shows that the neighbour's replay is over, and our
RECON leaves (R373). -/
def execIdle (port : Nat) (ack : Option (BitVec 9)) (s : State) : Answer :=
  let s := s.ackedBy port ack
  .next (if port < 6 ∧ s.portState port = 4 ∧ (s.port port).recon then s.sendRecon port else s)

/-- NAK (R371). -/
def execNak (port : Nat) (seq : BitVec 9) (ack : Option (BitVec 9)) (s : State) : Answer :=
  let s := s.ackedBy port ack
  .next (if port < 6 ∧ s.portState port = 3 ∧ (s.port port).replay.any (fun e => e.1 == seq.toNat) then s.replay port seq.toNat else s)

/-- REPLAY_TIMEOUT (R371): a replay from the oldest frame; ecc: what its reads of the replay buffer find (R394 UNIT 0x02): a corrected error is
recorded, an uncorrectable one fences the port. -/
def execReplayTimeout (port : Nat) (ecc : ArrayCheck) (s : State) : Answer :=
  .next (if port < 6 ∧ s.portState port = 3 then
    (match (s.port port).replay with
     | [] => s
     | e :: _ =>
       match ecc with
       | .ok => s.replay port e.1
       | .corrected => (s.portRecord port 0x02 0x01 .corrected 0 0).replay port e.1
       | .bad => (s.fencePort port 5).portFenceRecord port 0x02 0x02)
  else s)

/-- BRET (R369, R370): the counts of every VL; one that exceeds SENT or moves backward is a balance failure. -/
def execBret (port : Nat) (freed : List (BitVec 16)) (ack : Option (BitVec 9)) (s : State) : Answer :=
  let s := s.ackedBy port ack
  .next (if port ≥ 6 ∨ (s.portState port ≠ 3 ∧ s.portState port ≠ 4) then s
    else
      let q := s.port port
      let bad := (List.range 4).any (fun v =>
        let ret := Sparse.get 0 q.rcvRet v
        decide (((freed.getD v 0).toNat + 0x10000 - ret) % 0x10000 > (Sparse.get 0 q.sent v + 0x10000 - ret) % 0x10000))
      if bad then s.batonFail port
      else (s.modPort port (fun q => { q with rcvRet := vlTable (freed.map BitVec.toNat) })).pump port)

/-- BRET_INTERVAL (R369): a BRET leaves. -/
def execBretInterval (port : Nat) (s : State) : Answer :=
  .next (if port < 6 ∧ s.portState port = 3 then s.emitControl port 2 (vlCounts (s.port port).freed) else s)

/-- ACK_INTERVAL (R371): an ACK of the last SEQ in order leaves, in an IDLE frame's trailer. -/
def execAckInterval (port : Nat) (s : State) : Answer :=
  .next (if port < 6 ∧ s.portState port = 3 then
    (s.modPort port (fun q => { q with since := 0 })).emitControl port 0 []
  else s)

/-! ## Fast retrain -/

/-- FAST_RETRAIN (R372). -/
def execFastRetrain (port : Nat) (lost : BitVec 4) (s : State) : Answer :=
  .next (if port < 6 ∧ s.portState port = 3 then s.enterRetrain port lost.toNat else s)

/-- The width that a retrain reaches: what the remaining lanes give, never wider than before (R363, R373). -/
def State.retrainWidth (s : State) (p : Nat) : Nat :=
  min (s.rf (Reg.RELAY_PORTSTAT.at p) 9 8) (widthOf (15 - (s.port p).lanes % 16))

/-- RECON (R373): the counts are checked, and the retrain ends in ACTIVE; our RECON has left before. -/
def execRecon (port : Nat) (accepted freed : List (BitVec 16)) (s : State) : Answer :=
  .next (if port ≥ 6 ∨ s.portState port ≠ 4 ∨ !(s.port port).recon ∨ s.retrainWidth port = 0 then s
    else
      let q := s.port port
      let ok := (List.range 4).all (fun v => (accepted.getD v 0).toNat == Sparse.get 0 q.sent v &&
        (Sparse.get 0 q.accepted v + 0x10000 - Sparse.get 0 q.freed v) % 0x10000 == q.occupied v)
      if !ok then s.batonFail port
      else
        let s := s.sendRecon port
        let was := s.rf (Reg.RELAY_PORTSTAT.at port) 9 8
        let w := s.retrainWidth port
        let s := s.modPort port (fun q => { q with rcvRet := vlTable (freed.map BitVec.toNat), recon := false, reconSent := false, width := w, nak := false })
        let s := ((s.setRf (Reg.RELAY_PORTSTAT.at port) 9 8 w).setRf (Reg.RELAY_PORTSTAT.at port) 2 0 3).countUp (Reg.RELAY_RETRAINCNT.at port) 32 1
        let s := s.portRecord port 0x00 0x07 (if w < was then .deferred else .corrected) (q.lanes % 16 + w * 2 ^ 8) (s.clk.etc - q.start).toNat
        s.pump port)

/-- RETRAIN_LIMIT (R372). -/
def execRetrainLimit (port : Nat) (s : State) : Answer :=
  .next (if port < 6 ∧ s.portState port = 4 then (s.fencePort port 2).portFenceRecord port 0x03 0x06 else s)

/-! ## Port control -/

/-- A write of PORTCTL (R362, R370): EN enables and disables; FENCE fences an enabled port. -/
def State.writePortCtl (s : State) (r : Requester) (p : Nat) (v : W32) : State :=
  let a := Reg.RELAY_PORTCTL.at p
  let en := s.rb a 0
  let s := s.writeFields (s.worldOf r) a (v &&& 0xFFFEFFFF)
  let s :=
    if en ∧ !bit v 0 then (s.portDown p 0 1).setRb a 16 false
    else if !en ∧ bit v 0 then (s.setRf (Reg.RELAY_PORTSTAT.at p) 2 0 1).setReg (Reg.RELAY_NBRINC.at p) 0
    else s
  if bit v 16 ∧ s.rb a 0 ∧ s.portState p ≠ 5 then s.fencePort p 1 else s

/-- PORT_ENABLE (R362): a write of PORTCTL. -/
def execPortEnable (r : Requester) (port : Nat) (v : W32) (s : State) : Answer :=
  .next (if port < 6 then s.byReq r (Reg.RELAY_PORTCTL.at port) (fun s => s.writePortCtl r port v) else s)

/-- PORT_FENCE (R370): a write of FENCE = 1 that leaves the other fields as they are. -/
def execPortFence (r : Requester) (port : Nat) (s : State) : Answer :=
  .next (if port < 6 then s.byReq r (Reg.RELAY_PORTCTL.at port) (fun s => s.writePortCtl r port (s.reg (Reg.RELAY_PORTCTL.at port) ||| 0x10000)) else s)

end Sys2Proof.Machine
end

