-- ==== Sys2Proof/Machine/Mmio.lean ====
section
/-! DEFINITION. Register access as a whole (R10-R21): what a read answers and what a write does, in every block. A register that starts
a sequence which the table gives a row of its own only remembers the request here; the row runs it. -/
namespace Sys2Proof.Machine

/-! ## Reads -/

/-- The stored register that an address reads: a broadcast gate reads as that of Q0 or D0 (R248). -/
def storedAt (a : Nat) : Nat :=
  if 0x160F0000 ≤ a ∧ a < 0x16100000 then a - 0xF0000 else if 0x16200000 ≤ a ∧ a < 0x16210000 then a - 0x100000 else a

/-- A doorbell page's counter (R267): 0 SQ_TAIL, 1 CQ_HEAD, 2 SQ_HEAD, 3 CQ_TAIL. -/
def RingPair.counter (r : RingPair) (i : Nat) : Nat :=
  if i = 0 then r.sqTail else if i = 1 then r.cqHead else if i = 2 then r.sqHead else r.cqTail

/-- The value of a register before the marks of R13: what is stored, or what the block computes for it. -/
def State.viewReg (s : State) (r : Requester) (a : Nat) : W32 :=
  if a = Reg.AON_ETC_LO.at then BitVec.ofNat 32 s.clk.etc.toNat
  else if a = Reg.AON_ETC_HI.at then BitVec.ofNat 32 (s.clk.etc.toNat / 2 ^ 32)
  else if 0x11800000 ≤ a ∧ a < 0x11900000 then
    (if a % 0x1000 < 0x10 then BitVec.ofNat 32 ((s.ring (0x400 + (a - 0x11800000) / 0x1000)).counter (a % 0x10 / 4)) else 0)
  else if Reg.RELAY_BATON.holds a then
    (let q := s.port ((a - 0x14000000) / 0x10000)
     let v := (a % 0x10000 - 0x10) / 4
     BitVec.ofNat 32 (q.batons v + q.occupied v * 2 ^ 8))
  else if a = Reg.RELAY_HPRESENT.at then (if s.rb Reg.SYSCTL_ID.at 0 then s.reg a ||| 1 else s.reg a)
  else if Reg.PACER_QPUSHRES.holds a then BitVec.ofNat 32 (s.pushResult r ((a - 0x10101000) / 0x20))
  else if a = Reg.DEBUG_DIAG.at then setFld (s.reg a) 8 8 (b2n s.injPermitted)
  else if Reg.INTD_PCFG.holds a ∧ (a - Reg.INTD_PCFG.base) / 4 % 32 = 9 then setFld (setFld (s.reg a) 31 31 1) 25 24 3
  else if Reg.INTD_RPS.holds a ∧ a % 0x40 = 0 then setFld (s.reg a) 31 31 1
  else s.reg (storedAt a)

/-- Does a register read as zero to the open world for what it holds: ADDR and MISC of a sealed record (R63), a stack entry whose LVL
is M (R431)? -/
def State.hidden (s : State) (a : Nat) : Bool :=
  if 0x1A010000 ≤ a ∧ a < 0x1A040000 then
    let x := a % 0x1000
    let y := (x - 0x100) % 0x40
    decide (0x100 ≤ x) && decide (x < 0x500) && (decide (8 ≤ y ∧ y < 0x10) || decide (0x18 ≤ y)) && s.rb (a - y + 4) 24
  else Reg.INTD_RPS.holds a && s.rf a 25 24 == 3

/-- Is a register the upper half of a record's address, whose AV R63 does not hide? -/
def isAddrHi (a : Nat) : Bool := Reg.ERRREC_REC_ADDR_HI.holds a

/-- What a requester of a world reads of a register's value (R11-R13, R60, R63, R431). -/
def State.readAs (s : State) (w : Bool) (a : Nat) (v : W32) : W32 :=
  match regAt a with
  | none => 0
  | some d =>
    if !w && (s.allSw a || (s.hidden a && !isAddrHi a)) then 0
    else
      let v := if !w && s.hidden a then v &&& 0x80000000 else v
      let v := if !w ∧ a = Reg.ERRREC_SUMMARY_HI.at then v &&& 0xFFFFFFED else v
      d.fields.foldl (fun x f => setFld x f.hi f.lo (readField w v f)) 0

/-- A read that reaches its register (R11-R13, R19): NAME_LO latches the high word of the same sample, NAME_HI reads the latch. -/
def State.regRead (s : State) (r : Requester) (a : Nat) : State × W32 :=
  let w := s.worldOf r
  if a = Reg.KILN_RNGDATA.at then s.rngRead w false
  else if a = Reg.KILN_RNGDATA_S.at then s.rngRead w true
  else match pairPartAt a with
    | .single => (s, s.readAs w a (s.viewReg r a))
    | .lo => (s.setLatched r a (some (s.viewReg r (a + 4))), s.readAs w a (s.viewReg r a))
    | .hi => (s, s.readAs w a ((s.latched r (a - 4)).getD (s.viewReg r a)))

/-- The word that a read of a register answers: nothing reaches it for the debug port without its enable (R451), and PF0's access is
unmapped (R36). -/
def State.mmioRead (s : State) (r : Requester) (a : Nat) : State × W32 :=
  match r with
  | .pf0 => (s.recordUnmapped (s.tagOf r) a, 0)
  | .dap => if s.dapAllowed a then s.regRead r a else (s, 0)
  | .core n => if n < numCores then s.regRead r a else (s, 0)
  | .bootRom => s.regRead r a

/-! ## Writes, by block -/

/-- A value whose PID field the open world may not set to 63 (R39). -/
def State.keepPid (s : State) (w : Bool) (a hi lo : Nat) (v : W32) : W32 :=
  if !w ∧ fld v hi lo = 63 then setFld v hi lo (s.rf a hi lo) else v

/-- A write of SRCTL (R437): REQ by the sealed world, or by the hypervisor while NOHOST = 0 and no restart runs. -/
def State.writeSrctl (s : State) (r : Requester) (v : W32) : State :=
  let w := s.worldOf r
  let a := Reg.SYSCTL_SRCTL.at
  let st := Reg.SYSCTL_SRSTAT.at
  let ok := bit v 0 && (w || (s.levelOf r == 2 && !s.rb a 1 && !s.rb st 31))
  let s := (s.writeFields w a v).setRb a 0 false
  if ok then (s.setRb st 31 true).setRb st 0 (!w) else s

/-- A write of RSTCTL (R522): the resets that the requester's level may ask for are remembered in their bits; WARM by the sealed world. -/
def State.writeRstctl (s : State) (r : Requester) (v : W32) : State :=
  let w := s.worldOf r
  let a := Reg.SYSCTL_RSTCTL.at
  let hyp := w || s.levelOf r == 2
  let s := s.setRf a 5 0 (fld v 5 0)
  let c := fld v 5 0
  let s := if bit v 8 ∧ hyp ∧ c < numCores ∧ (w ∨ (s.core c).lvl ≠ 3) then s.setRb a 8 true else s
  let s := if !hyp then s
    else (List.range 8).foldl (fun s n => if bit v (16 + n) ∧ (w ∨ !s.rb Reg.SYSCTL_OWNER.at n) then s.setRb a (16 + n) true else s) s
  if bit v 31 ∧ w then { s with boot := { s.boot with warm := some 2 } } else s

/-- A write of CELLOCK (R225, R226): at most 12 ways. -/
def State.writeCellock (s : State) (w : Bool) (v : W32) : State :=
  let k := keepLowest 16 0 12 (fld v 15 0)
  (s.writeFields w Reg.SYSCTL_CELLOCK.at (BitVec.ofNat 32 k)).unlockWays (fun p => p == .cellar) (fun i => nfld k i i == 1)

/-- A write of a cluster's L2LOCK (R225, R226): at most 12 ways. -/
def State.writeL2lock (s : State) (w : Bool) (n : Nat) (v : W32) : State :=
  let k := keepLowest 16 0 12 (fld v 15 0)
  (s.writeFields w (Reg.CLUSTER_L2LOCK.at n) (setFld v 15 0 k)).unlockWays (fun p => p == .l2 n) (fun i => nfld k i i == 1)

/-- A write of SYSCTL. -/
def State.writeSysctl (s : State) (r : Requester) (a : Nat) (v : W32) : State :=
  if a = Reg.SYSCTL_SRCTL.at then s.writeSrctl r v
  else if a = Reg.SYSCTL_RSTCTL.at then s.writeRstctl r v
  else if a = Reg.SYSCTL_CELLOCK.at then s.writeCellock (s.worldOf r) v
  else s.writeFields (s.worldOf r) a v

/-- Is any core of a cluster released and online (R495)? -/
def State.clusterBusy (s : State) (n : Nat) : Bool := (s.onlineIn (6 * n) 6).any (fun c => (s.core c).released)

/-- Is block b sealed-owned (R434)? -/
def State.ownedBlock (s : State) (b : Nat) : Bool := decide (16 ≤ b) || s.rb Reg.SYSCTL_OWNER.at b

/-- POWER_DENIED (R435). -/
def State.powerDenied (s : State) (r : Requester) (b : Nat) : State :=
  let t := s.tagOf r
  let s := s.setRf Reg.SYSCTL_PDCNT.at 31 16 (satAdd 16 (s.rf Reg.SYSCTL_PDCNT.at 31 16) 1)
  s.setReg Reg.SYSCTL_PDLOG.at (BitVec.ofNat 32 (2 ^ 31 + t.pid % 64 * 2 ^ 16 + b % 32 * 2 ^ 11 + t.cls % 8 * 2 ^ 8 + t.src % 256))

/-- A write of BLKGATE (R435, R495). A cluster's L2 is written back and emptied when its power goes. -/
def State.writeBlkgate (s : State) (r : Requester) (b : Nat) (v : W32) : State :=
  let a := Reg.PACER_BLKGATE.at b
  let w := s.worldOf r
  if b ≥ 20 ∨ (10 ≤ b ∧ b < 16) then s
  else if s.ownedBlock b ∧ !w then s.powerDenied r b
  else if 16 ≤ b then
    (if (b = 16 ∧ (!bit v 0 ∨ (s.kiln.steps.isEmpty ∧ s.kiln.jobs.isEmpty))) ∨ b = 17 then s.setRb a 0 (bit v 0) else s)
  else
    let busy := decide (b < 8) && s.clusterBusy b
    let off := s.rb a 1
    let s := if bit v 0 ∧ busy then s else s.setRb a 0 (bit v 0)
    let s := if bit v 1 ∧ busy then s else s.setRb a 1 (bit v 1)
    if b < 8 ∧ s.rb a 1 ∧ !off then
      let mine := fun (x : Copy) => x.place == .l2 b
      let s := s.l2op b true
      ((s.mem.lines.filter (fun e => e.2.copies.any mine)).map (fun e => e.1)).foldl (fun s n => s.discardAt n mine false) s
    else s

/-- A write of DEVSLEEP (R485): REQ runs step 1; a queue that holds an entry aborts with QBUSY. -/
def State.writeDevsleep (s : State) (w : Bool) (v : W32) : State :=
  let a := Reg.PACER_DEVSLEEP.at
  let busy := s.rb a 31
  let s := s.writeFields w a v
  if !w ∨ busy ∨ !bit v 31 then s
  else if s.pacerBusy then (s.setRb a 31 false).setRf a 19 16 1
  else { s with boot := { s.boot with sleep := true } }

/-- A write of PACER. -/
def State.writePacer (s : State) (r : Requester) (a : Nat) (v : W32) : State :=
  if Reg.PACER_QCFG.holds a then s.writeQcfg (s.worldOf r) ((a - 0x10101000) / 0x20) v
  else if Reg.PACER_BLKGATE.holds a then s.writeBlkgate r ((a - 0x10102000) / 4) v
  else if a = Reg.PACER_DEVSLEEP.at then s.writeDevsleep (s.worldOf r) v
  else s.writeFields (s.worldOf r) a v

/-- A write of INTD. -/
def State.writeIntd (s : State) (r : Requester) (a : Nat) (v : W32) : State :=
  let w := s.worldOf r
  if Reg.INTD_SSTAT.holds a ∨ Reg.INTD_PSTAT.holds a then s.writeStat w a v
  else if Reg.INTD_SCFG.holds a ∨ Reg.INTD_PCFG.holds a then s.writeCfg w a v
  else if a = Reg.INTD_CSIG.at then s.writeCsig w v
  else s.writeFields w a v

/-- A write of a cluster's registers. -/
def State.writeCluster (s : State) (r : Requester) (n a : Nat) (v : W32) : State :=
  let w := s.worldOf r
  if a = Reg.CLUSTER_SPAREREQ.at n then
    (if bit v 31 then s.spareRequest n (fld v 2 0) else s.writeFields w a v)
  else if a = Reg.CLUSTER_L2LOCK.at n then s.writeL2lock w n v
  else if a = Reg.CLUSTER_L2OP.at n then s.writeL2op n v
  else s.writeFields w a v

/-- A write of a memory controller's registers (R248: a broadcast gate is written in every controller of its tier). -/
def State.writeMemc (s : State) (r : Requester) (a : Nat) (v : W32) : State :=
  let w := s.worldOf r
  if a = Reg.MEMC_QTIER.at then s.writeTier w a qtierOk v
  else if a = Reg.MEMC_DTIER.at then s.writeTier w a dtierOk v
  else if Reg.MEMC_QDR_TRAIN.holds a ∨ Reg.MEMC_DDR_TRAIN.holds a then s.writeTrain w a v
  else if a = Reg.MEMC_CASK_WIPE.at then s.writeWipe w v
  else s.writeFields w a v

/-- A write of CSS. -/
def State.writeCss (s : State) (r : Requester) (a : Nat) (v : W32) : State :=
  let w := s.worldOf r
  if Reg.CSS_SQ_TAIL.holds a then s.writeSqTail (0x400 + (a - 0x11800000) / 0x1000) (fld v 15 0)
  else if Reg.CSS_CQ_HEAD.holds a then s.writeCqHead (0x400 + (a - 0x11800000) / 0x1000) (fld v 15 0)
  else if a = Reg.CSS_CMD.at then s.writeCmd w v
  else if a = Reg.CSS_CTL.at then s.writeCtl w v
  else if a = Reg.CSS_RLOG_HEAD.at then s.writeLogHead w v
  else if a = Reg.CSS_RLOGCFG.at then s.writeLogCfg w v
  else s.writeFields w a v

/-- A write of an adapter's registers (R324, R333, R393, R539: a write that leaves FINJ.EN clear needs no permission). The image's records are written whatever PATHCTL.EN reads (log entry 13). -/
def State.writeAdpt (s : State) (r : Requester) (p a : Nat) (v : W32) : State :=
  let w := s.worldOf r
  if a = Reg.ADPT_PATHCTL.at p then s.writePathCtl p v
  else if a = Reg.ADPT_ACTL.at p ∧ p < 0x4C then s.writeActl w p v
  else if Reg.ADPT_FINJ.holds a then (if s.injPermitted ∨ !bit v 31 then s.writeFields w a v else s)
  else if Reg.ADPT_QBVCTL.holds a then (if r = .bootRom ∨ s.adapterWritable a then s.writeQbv w p v else s)
  else if r = .bootRom ∨ s.adapterWritable a then s.writeFields w a v
  else s

/-- A write of Mash's or Kiln's registers. -/
def State.writeEngine (s : State) (r : Requester) (kiln : Bool) (a : Nat) (v : W32) : State :=
  let w := s.worldOf r
  let o := a % 0x100000
  if o < 0x100 ∧ o % 0x20 = 8 then s.writeJctl r kiln (o / 0x20) v
  else if !kiln then s.writeFields w a v
  else if Reg.KILN_KS_CFG.holds a then s.writeKeyCfg w ((a - 0x13101000) / 0x20) v
  else if Reg.KILN_KS_IVF.holds a then s.writeKeyIvf w ((a - 0x13101000) / 0x20) v
  else if a = Reg.KILN_LDR_CTL.at then s.writeLdr r v
  else if a = Reg.KILN_RNGCTL.at then s.writeRngCtl w v
  else s.writeFields w a v

/-- A write of Relay's registers (R539: a write that leaves FINJ.EN clear needs no permission). -/
def State.writeRelay (s : State) (r : Requester) (p a : Nat) (v : W32) : State :=
  let w := s.worldOf r
  if a = Reg.RELAY_PORTCTL.at p then s.writePortCtl r p v
  else if Reg.RELAY_FINJ.holds a then (if s.injPermitted ∨ !bit v 31 then s.writeFields w a v else s)
  else if Reg.RELAY_IMAP_ATTR.holds a then s.writeFields w a (s.keepPid w a 5 0 v)
  else s.writeFields w a v

/-- A write of the host endpoint's registers. -/
def State.writeHostep (s : State) (r : Requester) (a : Nat) (v : W32) : State :=
  let w := s.worldOf r
  if a = Reg.HOSTEP_MBSEND.at then (if bit v 0 then s.mailOut else s)
  else if Reg.HOSTEP_FBIND.holds a then s.writeFields w a (s.keepPid w a 5 0 v)
  else s.writeFields w a v

/-- A write of TRACE (R503, R504, R506). -/
def State.writeTrace (s : State) (r : Requester) (a : Nat) (v : W32) : State :=
  let w := s.worldOf r
  if s.allSw a && !w then s
  else if Reg.TRACE_SRCCFG.holds a then
    (let n := (a - 0x17010000) / 0x40
     let was := s.rb a 31
     (s.writeFields w a v).srcEnable n was)
  else if Reg.TRACE_SWMSG.holds a then s.traceMsg w ((a - 0x17000100) / 4) v
  else if Reg.TRACE_SINKCTL.holds a then s.writeFields w a (s.keepPid w a 27 22 v)
  else if Reg.TRACE_SINKWP.holds a then (if s.rb (a - 8) 31 then s else s.writeFields w a v)
  else s.writeFields w a v

/-- A write of DEBUG. -/
def State.writeDebug (s : State) (r : Requester) (a : Nat) (v : W32) : State :=
  let w := s.worldOf r
  if a = Reg.DEBUG_AUTH.at then s.writeAuth w v
  else if a = Reg.DEBUG_UNLOCK.at then s.writeUnlock v
  else if Reg.DEBUG_TOKBUF.holds a then s.setReg a v
  else if Reg.DEBUG_CORECTL.holds a then s.writeCoreCtl w ((a - 0x18010000) / 0x100) v
  else if Reg.DEBUG_ITR.holds a then s.writeItr ((a - 0x18010008) / 0x100) v
  else if a = Reg.DEBUG_DIAG.at then (s.writeFields w a v).injLapse
  else if Reg.DEBUG_BINJ_CTL.holds a then s.writeBinj w ((a - 0x18020100) / 0x20) v
  else s.writeFields w a v

/-- A write of BOOT. -/
def State.writeBoot (s : State) (r : Requester) (a : Nat) (v : W32) : State :=
  let w := s.worldOf r
  if Reg.BOOT_RELEASE.holds a then s.writeRelease w ((a - 0x19000100) / 4) v
  else if a = Reg.BOOT_LCADV.at then s.writeLcadv w v
  else if a = Reg.BOOT_FUSEPROG.at then s.writeFuseprog w v
  else s.writeFields w a v

/-- A write of ERRREC (R62, R564): VALID frees a slot, BANK_CTL restarts the Corrected count. -/
def State.writeErrrec (s : State) (r : Requester) (a : Nat) (v : W32) : State :=
  let w := s.worldOf r
  let b := (a - 0x1A010000) / 0x1000
  if s.allSw a && !w then s
  else
    let s := s.writeFields w a v
    if Reg.ERRREC_REC_STATUS.holds a then s.refreshBank b
    else if Reg.ERRREC_BANK_CTL.holds a then { s with ceCount := Sparse.set 0 s.ceCount b 0 }
    else s

/-- A write of PERI: a pad drives its shared source anew, and the source it left goes low (R559). -/
def State.writePeri (s : State) (r : Requester) (a : Nat) (v : W32) : State :=
  let w := s.worldOf r
  if Reg.PINMUX_PAD.holds a then
    let i := (a - 0x1B000000) / 4
    let old := s.reg a
    let s := s.writeFields w a v
    let new := s.reg a
    let s := if bit old 31 ∧ !(bit new 31 ∧ fld new 25 16 = fld old 25 16) then s.lineState (fld old 25 16) false else s
    if bit new 31 then s.gpioState i (s.rb (Reg.GPIO_DIN.at (i / 32)) (i % 32)) else s
  else s.writeFields w a v

/-- A write of a register that is no part of a pair. -/
def State.singleWrite (s : State) (r : Requester) (a : Nat) (v : W32) : State :=
  match blockOf a with
  | none => s
  | some (b, n, _) =>
    match b with
    | .SYSCTL => s.writeSysctl r a v
    | .PACER => s.writePacer r a v
    | .AON => s.writeFields (s.worldOf r) a v
    | .INTD => s.writeIntd r a v
    | .CLUSTER => s.writeCluster r n a v
    | .CSS => s.writeCss r a v
    | .ADPT => s.writeAdpt r n a v
    | .MASH => s.writeEngine r false a v
    | .KILN => s.writeEngine r true a v
    | .RELAY => s.writeRelay r n a v
    | .HOSTEP => s.writeHostep r a v
    | .MEMC => s.writeMemc r a v
    | .TRACE => s.writeTrace r a v
    | .DEBUG => s.writeDebug r a v
    | .BOOT => s.writeBoot r a v
    | .ERRREC => s.writeErrrec r a v
    | .PERI => s.writePeri r a v

/-- A write of NAME_HI (R21) commits the pair at a: the held low word, or the current one, with the high word, as one update. A gate of
a broadcast instance is committed in each controller (R248). -/
def State.pairWrite (s : State) (r : Requester) (a : Nat) (hi : W32) : State :=
  let w := s.worldOf r
  if Reg.PACER_QPUSH_LO.holds a then s.writeQpushHi r ((a - 0x10101000) / 0x20) hi
  else
    let held := s.held r a
    let s := s.setHeld r a none
    if 0x12000000 ≤ a ∧ a < 0x12600000 ∧ r ≠ .bootRom ∧ !s.adapterWritable a then s
    else
      let s' := (gateTargets a).foldl (fun s t => s.commitPair w t (held.getD (s.reg t)) hi) s
      if a = Reg.ERRREC_PFENCE_LO.at then s'.fenceNew s else s'

/-- A write that reaches its register. -/
def State.regWrite (s : State) (r : Requester) (a : Nat) (v : W32) : State :=
  match pairPartAt a with
  | .single => s.singleWrite r a v
  | .lo => if pairWritable a ∨ pairWritable (a + 4) then s.setHeld r a (some v) else s
  | .hi => s.pairWrite r (a - 4) v

/-- A register write by a requester. -/
def State.mmioWrite (s : State) (r : Requester) (a : Nat) (v : W32) : State := s.byReq r a (fun s => s.regWrite r a v)

end Sys2Proof.Machine
end

