-- ==== Sys2Proof/Machine/Access.lean ====
section
/-! DEFINITION. Loads and stores of a core (R86-R88, R150, R181-R190): translation of both pages, alignment, region type, watchpoints,
forwarding, gates, poison, and the windows that a response must answer. -/
namespace Sys2Proof.Machine

/-- A store-buffer entry drains with the full register write. -/
def State.drain1 (s : State) (c : Nat) (ecc : Ecc) (resp : Resp) : State := s.drainOne State.mmioWrite c ecc resp

/-- The whole store buffer drains. -/
def State.drainBuf (s : State) (c : Nat) : State := s.drainAll State.mmioWrite c

/-- A part of an access that lies in one 4 KiB page: virtual and physical address, length, type. -/
structure Part where
  va : W64
  pa : Nat
  len : Nat
  ty : RType
deriving DecidableEq, Repr

/-- The rank of a translation fault in R150: lower is raised first. -/
def TrFault.rank : TrFault → Nat
  | .trf => 14 | .s2trf _ => 15 | .prm => 16 | .s2prm _ => 17 | .ber => 20 | .psn => 21

/-- The pages of n bytes from a virtual address, each with its translation (R88). A stage-1 translation fault of the lower page outranks all, so
the upper one is then not translated (R150). -/
def State.translateSpan (s : State) (c lvl : Nat) (k : AccKind) (va : W64) (n : Nat) : State × List (W64 × Nat × Except TrFault (Nat × RType)) :=
  let room := 4096 - va.toNat % 4096
  let (s, r1) := s.translate c lvl k va
  if n ≤ room then (s, [(va, n, r1)])
  else if r1 matches .error .trf then (s, [(va, room, r1)])
  else
    let va2 := va + BitVec.ofNat 64 room
    let (s, r2) := s.translate c lvl k va2
    (s, [(va, room, r1), (va2, n - room, r2)])

/-- The watchpoint event of R447: kind 3 with the register's index, FAR at the lowest matching byte. -/
def watchExc (i : Nat) (va : W64) : Exc := { vec := 0x13, info := 3 + i * 4, far := some va }

/-- Does watchpoint i match an access of n bytes (R447)? The lowest matching byte, if so. -/
def Core.watchHit (k : Core) (i : Nat) (write : Bool) (va n : Nat) : Option Nat :=
  let w := k.srd (0xA45 + i)
  let ctl := k.srd 0xA40
  let d := fld w 63 3
  if bit w 0 && bit w (if write then 2 else 1) && decide (k.lvl < 3) && bit ctl (1 + k.lvl) then
    (List.range n).findSome? (fun j => if (va + j) % 2 ^ 64 / 8 = d then some ((va + j) % 2 ^ 64) else none)
  else none

/-- The first watchpoint that an access matches, as its event. -/
def Core.watch (k : Core) (write : Bool) (va n : Nat) : Option Exc :=
  match k.watchHit 0 write va n with
  | some a => some (watchExc 0 (BitVec.ofNat 64 a))
  | none => (k.watchHit 1 write va n).map (fun a => watchExc 1 (BitVec.ofNat 64 a))

/-- What a load gives: bytes; the wait for a response from outside the device (R122), with the lowest byte that lies outside by both addresses
and the bytes that memory gave; the failure of a Device load, which has committed and is reported as a vector later (R165); or nothing yet: an older
access holds it (R189, R190). -/
inductive Loaded where
  | bytes (bs : List Byte)
  | pending (device : Bool) (far : W64) (pa : Nat) (known : List (Nat × Byte))
  | failed (vec : Nat)
  | blocked
deriving DecidableEq, Repr

/-- The miss of a Normal-cached load is remembered for the prefetch side buffer (R220): the second of two misses in one
page with one stride of 1 to 16 lines starts a stream of DEPTH + 1 lines in that page. A line is requested only while fewer than 10 line requests
are in use: the miss itself and the prefetches before it. -/
def State.notePrefetch (s : State) (c : Nat) (t : AccessTag) (pa : Nat) : State :=
  let k := s.core c
  let n := pa / 64
  if !bit (k.srd 0x500) 0 ∨ (s.mem.copyAt n (.l1d c)).isSome then s
  else
    let same := match k.missLine with
      | some m => decide (m / 64 = n / 64)
      | none => false
    let stride : Option Int := match k.missLine with
      | some m => if same then some ((n : Int) - (m : Int)) else none
      | none => none
    let start := match stride, k.missStride with
      | some d, some e => d == e && decide (1 ≤ d.natAbs) && decide (d.natAbs ≤ 16)
      | _, _ => false
    let s := s.setCore c { k with missLine := some n, missStride := stride }
    if !start then s
    else
      let d := stride.getD 0
      (List.range (fld (k.srd 0x500) 2 1 + 1)).foldl (fun (s : State) (i : Nat) =>
        let m := Int.toNat ((n : Int) + d * ((i : Int) + 1))
        if m / 64 = n / 64 ∧ 1 + i < 10 ∧ (s.mem.copyAt m (.l1d c)).isNone then
          match s.checkHit (l2Places (clusterOf c)) t false (m * 64) with
          | (s, some _) => s
          | (s, none) => (s.fillL2 (clusterOf c) m t).fillSide c m t
        else s) s

/-- A demand load that hits the side buffer moves the line into L1D (R220). -/
def State.promote (s : State) (c : Nat) (t : AccessTag) (pa : Nat) : State :=
  let n := pa / 64
  match s.mem.copyAt n (.side c) with
  | none => s
  | some _ =>
    ((s.discardAt n (fun x => x.place == .side c) false).modCore c (fun k => { k with side := k.side.filter (fun m => m != n) })).fillL1d c n t

/-- The first byte that a part accesses in each line it touches. -/
def Part.lines (p : Part) : List Nat := (List.range ((p.pa % 64 + p.len + 63) / 64)).map (fun i => max p.pa ((p.pa / 64 + i) * 64))

/-- The virtual address of a byte of a part. -/
def Part.vaOf (p : Part) (a : Nat) : W64 := p.va + BitVec.ofNat 64 (a - p.pa)

/-- The places that a part of an access looks in. -/
def Part.places (p : Part) (c : Nat) : List CopyAt := if p.ty = .cached then dataPlaces c else []

/-- May a part be read: gates or fill tags, line by line, and a window as a whole. The first byte refused, if any (R147). -/
def State.admitRead (s : State) (c : Nat) (t : AccessTag) (p : Part) : State × Option W64 :=
  if inWindow p.pa then
    match s.admits t false p.pa with
    | (s, some _) => (s, some p.va)
    | (s, none) => (s, none)
  else p.lines.foldl (fun (acc : State × Option W64) a =>
    match acc with
    | (s, some f) => (s, some f)
    | (s, none) =>
      match s.checkHit (p.places c) t false a with
      | (s, some _) => (s, some (p.vaOf a))
      | (s, none) => (s, none)) (s, none)

/-- The first byte that a part consumes of a poisoned line, by both addresses; what a window holds is not known. -/
def State.poisonIn (s : State) (p : Part) : Option (W64 × Nat) :=
  if inWindow p.pa then none else (p.lines.find? (fun a => s.mem.poisonAt a)).map (fun a => (p.vaOf a, a))

/-- The offsets and bytes that memory gives for the parts of a load; ofs: the offset of the first part. -/
def State.knownBytes (s : State) : List Part → Nat → List (Nat × Byte)
  | [], _ => []
  | p :: ps, ofs =>
    (if inWindow p.pa then [] else (List.range p.len).map (fun i => (ofs + i, s.byte (p.pa + i)))) ++ State.knownBytes s ps (ofs + p.len)

/-- The reads that the parts of a load send outside the device, each for its offset. -/
def State.sendReads (s : State) (c : Nat) : List Part → Nat → State
  | [], _ => s
  | p :: ps, ofs => State.sendReads (if inWindow p.pa then s.windowRead c p.pa p.len ofs else s) c ps (ofs + p.len)

/-- The checked parts of a load are read (R150: every BER before any PSN): memory's bytes at once, and a window's by its response (R122). -/
def State.readParts (s : State) (c : Nat) (t : AccessTag) (ps : List Part) : State × Except Exc Loaded :=
  let (s, bad) := ps.foldl (fun (acc : State × Option W64) p =>
    match acc with
    | (s, some f) => (s, some f)
    | (s, none) => s.admitRead c t p) (s, none)
  match bad with
  | some f => (s, .error { vec := 0x0B, far := some f })
  | none =>
    match ps.findSome? s.poisonIn with
    | some (f, a) => (s.recordPoison c t false a, .error { vec := 0x0E, far := some f })
    | none =>
      match ps.find? (fun p => inWindow p.pa) with
      | some w =>
        let known := s.knownBytes ps 0
        let s := { s with relay := { s.relay with parts := Sparse.set [] s.relay.parts c [] } }
        (s.sendReads c ps 0, .ok (.pending w.ty.device w.va w.pa known))
      | none =>
        let s := ps.foldl (fun (s : State) p => if p.ty = .cached then (s.notePrefetch c t p.pa).promote c t p.pa else s) s
        (s, .ok (.bytes (ps.flatMap (fun p => s.bytes p.pa p.len))))

/-- How an access of a load fails: a Device load has committed and is reported later (R165), any other load raises its exception. -/
def loadFailure (device : Bool) (e : Exc) : Except Exc Loaded := if device then .ok (.failed e.vec) else .error e

/-- A load from a Device region, of one part (R188, R189, R190): the store buffer is empty first, a strict one waits for every acknowledgement, and a
register takes aligned words only (R10). -/
def State.readDevice (s : State) (c : Nat) (t : AccessTag) (p : Part) : State × Except Exc Loaded :=
  let s := s.drainBuf c
  if !(s.core c).sbuf.isEmpty || (p.ty == .devStrict && s.unacknowledged c) then (s, .ok .blocked)
  else if inRegs p.pa then
    match s.admits t false p.pa with
    | (s, some _) => (s, loadFailure true { vec := 0x0B, far := some p.va })
    | (s, none) =>
      if p.len = 4 ∧ p.pa % 4 = 0 then
        let (s, v) := s.mmioRead (.core c) p.pa
        (s, .ok (.bytes (leBytes 4 v.toNat)))
      else (s.sizeError t p.pa, loadFailure true { vec := 0x0B, far := some p.va })
  else match s.readParts c t [p] with
    | (s, .error e) => (s, loadFailure true e)
    | (s, .ok l) => (s, .ok l)

/-- A load from Normal regions (R183): served whole from the store buffer where its youngest overlapping entry holds it all, and read after every
overlapping entry has been written otherwise. -/
def State.readNormal (s : State) (c : Nat) (t : AccessTag) (ps : List Part) : State × Except Exc Loaded :=
  match ps with
  | [p] =>
    match s.forward State.mmioWrite c p.pa p.len p.ty with
    | (s, some bs) => (s, .ok (.bytes bs))
    | (s, none) => s.readParts c t ps
  | ps => (ps.foldl (fun (s : State) p => s.drainOver State.mmioWrite c p.pa p.len) s).readParts c t ps

/-- An access of a core commits: its tag is the one that a sparing's record will name (R171). -/
def State.noteAccess (s : State) (c : Nat) (t : AccessTag) : State := s.modCore c (fun k => { k with lastTag := some t })

/-- The checked parts of a load are performed: by their region type. -/
def State.readAll (s : State) (c : Nat) (t : AccessTag) (ps : List Part) : State × Except Exc Loaded :=
  match (match ps.find? (fun p => p.ty.device) with
    | some p => s.readDevice c t p
    | none => s.readNormal c t ps) with
  | (s, .ok (.bytes bs)) => (s.noteAccess c t, .ok (.bytes bs))
  | r => r

/-- What the checks of a data access find, each with its rank in R150: translation of both pages, alignment (where every access takes it, or the
lowest byte in a Device page, R88), and region type. cachedOnly: LDRES, STCND and block operations take ATY elsewhere (R104, R106, R187). -/
def spanFaults (k : AccKind) (va : W64) (n : Nat) (strictAlign cachedOnly : Bool) (pages : List (W64 × Nat × Except TrFault (Nat × RType))) :
    List (Nat × Exc) :=
  let typed := pages.filterMap (fun x => match x.2.2 with | .ok (_, ty) => some (x.1, ty) | .error _ => none)
  pages.filterMap (fun x => match x.2.2 with | .error f => some (f.rank, f.exc k x.1) | .ok _ => none) ++
  (if va.toNat % n = 0 then []
   else if strictAlign then [(18, { vec := 0x04, far := some va })]
   else if cachedOnly then []
   else (typed.filter (fun x => x.2.device)).map (fun x => (18, { vec := 0x04, far := some x.1 }))) ++
  (if cachedOnly then (typed.filter (fun x => x.2 != .cached)).map (fun x => (19, { vec := 0x0F, far := some x.1, wnr := k == .store })) else [])

/-- The first exception of R150's order among those found; of two of one rank, the one found first. -/
def firstFault : List (Nat × Exc) → Option (Nat × Exc)
  | [] => none
  | x :: t => match firstFault t with
    | some y => if y.1 < x.1 then some y else some x
    | none => some x

/-- The parts of an access whose pages are all translated. -/
def spanParts (pages : List (W64 × Nat × Except TrFault (Nat × RType))) : List Part :=
  pages.filterMap (fun x => match x.2.2 with | .ok (pa, ty) => some { va := x.1, pa := pa, len := x.2.1, ty := ty } | .error _ => none)

/-- The checks of a data access in R150's order before it is performed, then the watchpoint (R447; watch = false for the accesses of entries,
gates and returns, log entry 10). -/
def State.checkAccess (s : State) (c lvl : Nat) (k : AccKind) (va : W64) (n : Nat) (strictAlign cachedOnly watch : Bool) :
    State × Except Exc (List Part) :=
  let (s, pages) := s.translateSpan c lvl k va n
  match firstFault (spanFaults k va n strictAlign cachedOnly pages) with
  | some (_, e) => (s, .error e)
  | none =>
    match (if watch then (s.core c).watch (k == .store) va.toNat n else none) with
    | some e => (s, .error e)
    | none => (s, .ok (spanParts pages))

/-- A load of n bytes at a level (R86-R88). -/
def State.loadBytes (s : State) (c lvl : Nat) (va : W64) (n : Nat) (watch : Bool) : State × Except Exc Loaded :=
  match s.checkAccess c lvl .load va n false false watch with
  | (s, .error e) => (s, .error e)
  | (s, .ok ps) => s.readAll c ((s.core c).tagAt c lvl) ps

/-- The parts of a checked store enter the store buffer, one after the other. -/
def State.pushEach (s : State) (c : Nat) (t : AccessTag) (lvl : Nat) (whole : Bool) : List Part → List Byte → State
  | [], _ => s
  | p :: ps, bs =>
    State.pushEach (s.pushStore State.mmioWrite c t lvl p.va p.pa p.ty (bs.take p.len) whole) c t lvl whole ps (bs.drop p.len)

/-- A checked store enters the store buffer (R181). After a Device-strict one the core issues nothing more until its target has acknowledged
it (R190). -/
def State.pushParts (s : State) (c : Nat) (t : AccessTag) (lvl : Nat) (ps : List Part) (bs : List Byte) : State :=
  let s := (s.pushEach c t lvl (ps.length == 1) ps bs).noteAccess c t
  if ps.any (fun p => p.ty == .devStrict) then s.modCore c (fun k => { k with wait := .ack }) else s

/-- A store of bytes at a level (R86-R88, R181). -/
def State.storeBytes (s : State) (c lvl : Nat) (va : W64) (bs : List Byte) (watch : Bool) : State × Except Exc Unit :=
  match s.checkAccess c lvl .store va bs.length false false watch with
  | (s, .error e) => (s, .error e)
  | (s, .ok ps) => (s.pushParts c ((s.core c).tagAt c lvl) lvl ps bs, .ok ())

/-- A doubleword read for an entry, a gate or a return. What a window would answer is open (log entry 9). -/
def State.read64 (s : State) (c lvl : Nat) (va : W64) : State × Except Exc W64 :=
  match s.loadBytes c lvl va 8 false with
  | (s, .error e) => (s, .error e)
  | (s, .ok (.bytes bs)) => (s, .ok (BitVec.ofNat 64 (leNat bs)))
  | (s, .ok (.failed v)) => (s, .error { vec := v, far := some va })
  | (s, .ok _) => (s.took, .ok (BitVec.ofNat 64 s.free))

/-- May the doubleword of a frame be written at one page part? Its error response raises BER at once (R152, R157): a register
takes single words only (R10), memory is asked line by line. -/
def State.admitPart (s : State) (t : AccessTag) (c : Nat) (p : Part) : State × Bool :=
  if inRegs p.pa then
    match s.admits t true p.pa with
    | (s, some _) => (s, false)
    | (s, none) => if p.len = 4 ∧ p.pa % 4 = 0 then (s, true) else (s.sizeError t p.pa, false)
  else
    p.lines.foldl (fun (acc : State × Bool) a =>
      if acc.2 then
        match acc.1.checkHit (p.places c) t true a with
        | (s, some _) => (s, false)
        | (s, none) => (s, true)
      else acc) (s, true)

/-- The checks of a frame's doubleword: translation and permission, then whether its target takes the write (R152: TRF, PRM or BER). -/
def State.checkFrame (s : State) (c lvl : Nat) (va : W64) : State × Except Exc (List Part) :=
  match s.checkAccess c lvl .store va 8 false false false with
  | (s, .error e) => (s, .error e)
  | (s, .ok ps) =>
    let t := (s.core c).tagAt c lvl
    let (s, ok) := ps.foldl (fun (acc : State × Bool) p => if acc.2 then acc.1.admitPart t c p else acc) (s, true)
    if ok then (s, .ok ps) else (s, .error { vec := 0x0B, far := some va, wnr := true })

/-- A doubleword written for an entry or a gate. -/
def State.write64 (s : State) (c lvl : Nat) (va v : W64) : State × Except Exc Unit :=
  match s.checkFrame c lvl va with
  | (s, .error e) => (s, .error e)
  | (s, .ok ps) => (s.pushParts c ((s.core c).tagAt c lvl) lvl ps (leBytes 8 v.toNat), .ok ())

end Sys2Proof.Machine
end

