-- ==== Sys2Proof/Machine/Entry.lean ====
section
/-! DEFINITION. Taking exceptions and interrupts (R140-R154, R447): the entry of R145 with escalation, the emergency entry and
check-stop; and the completion of an instruction (R73, R113, R447): next PC, loop, trace, single step. -/
namespace Sys2Proof.Machine

/-! ## STAT -/

/-- A STAT value from its parts (STAT's table): WORLD is 1 exactly at M (R79). -/
def statWord (lvl mlv : Nat) (fh fpe : Bool) : W64 :=
  BitVec.ofNat 64 (lvl % 4 + (if lvl % 4 = 3 then 4 else 0) + mlv % 16 * 16 + b2n fh * 256 + b2n fpe * 512)

/-- The value that a write of MLV stores at a resulting level (R144). -/
def Core.capMlv (k : Core) (lvl v : Nat) : Nat :=
  if lvl ≤ 1 then min v (fld (k.srd 0x888) 3 0) else if lvl = 2 then min v (fld (k.srd 0xC88) 3 0) else v

/-- STAT written by a return (R112): LVL, MLV, FH and FPE of a status image; img[2] is ignored. -/
def Core.restoreStat (k : Core) (img : W64) : Core :=
  { k with stat := statWord (fld img 1 0) (k.capMlv (fld img 1 0) (fld img 7 4)) (bit img 8) (bit img 9) }

/-- The number of an exception register of level T in {1, 2, 3} by its number for K (the group 2 tables). -/
def xreg (base t : Nat) : Nat := base + (t - 1) * 0x400

/-- EMGACT of a level, set. -/
def Core.setEmg (k : Core) (t : Nat) (v : Bool) : Core :=
  if t = 1 then { k with emgK := v } else if t = 2 then { k with emgH := v } else { k with emgM := v }

/-! ## Entry -/

/-- An exception, interrupt or report about to be taken (R145-R148). -/
structure EntryReq where
  vec : Nat
  info : Nat := 0
  far : Option W64 := none
  fipa : Option Nat := none
  wnr : Bool := false
  fetch : Bool := false
  async : Bool := false
  epc : W64
deriving DecidableEq, Repr

/-- The status doubleword of a frame (R146). -/
def EntryReq.estat (r : EntryReq) (stat : W64) : W64 :=
  let wnrVecs := [0x06, 0x08, 0x09, 0x0B, 0x0E, 0x0F]
  BitVec.ofNat 64 (fld stat 9 0 + r.vec % 64 * 2 ^ 10 + b2n r.async * 2 ^ 16 + b2n (r.fetch && r.vec == 0x09) * 2 ^ 17 +
    b2n (r.wnr && wnrVecs.contains r.vec) * 2 ^ 18 + r.info % 2 ^ 16 * 2 ^ 32)

/-- Check-stop (R154): the core stops fetching, with a Fatal record that names it and the vector that could not be taken. -/
def State.checkStop (s : State) (c vec : Nat) : State :=
  (s.modCore c (fun k => { k with checkStopped := true })).record
    { bank := 1 + clusterOf c, unit := 0x2F, code := 0x07, sev := .fatal, tag := some ((s.core c).tag c),
      misc0 := c + vec % 64 * 256 }

/-- The state changes at the end of every entry (R145, R152): SP, reservation, STAT, EMGACT, the fault registers, MENTRY (R438), PC and the predictor's
context (R132). vec: the vector that gives MLV, an interrupt's priority. A frame in a Device-strict region still holds the core (R190). -/
def State.enter (s : State) (c t : Nat) (sp handler : W64) (emg : Bool) (vec : Nat) (r : EntryReq) : State :=
  let k0 := s.core c
  let ctx0 := ctxOf c k0
  let mlv := if 0x21 ≤ vec ∧ vec ≤ 0x2F then k0.capMlv t (vec - 0x20) else k0.mlv
  let k := (k0.setSpOf t sp).setEmg t emg
  let k := { k with resv := none, hold := none, overlaid := [], stat := statWord t mlv true false,
                     pc := BitVec.ofNat 64 (fld handler 63 2 * 4), wait := if k0.wait = .ack then .ack else .none, retries := 0 }
  let k := if t = 3 ∧ k0.lvl < 3 then { k with mEpc := r.epc, mStat := fld k0.stat 9 0 } else k
  let k := match r.far with
    | some a => k.swr (xreg 0x483 t) a
    | none => k
  let k := match r.fipa with
    | some a => k.swr 0x886 (BitVec.ofNat 64 (a % 2 ^ 48))
    | none => k
  let s := ((s.setCore c k).dropLineBuf c).newContext c
  s.traceCore c false k0.pc ctx0 [.exc r.vec r.epc k.pc]

/-- The frame of an entry: EPC, then ESTAT, under the target level's translation (R145). -/
def State.pushFrame (s : State) (c t : Nat) (frame : W64) (r : EntryReq) : State × Bool :=
  match s.write64 c t frame r.epc with
  | (s, .error _) => (s, false)
  | (s, .ok _) =>
    match s.write64 c t (frame + 8) (r.estat (s.core c).stat) with
    | (s, .error _) => (s, false)
    | (s, .ok _) => (s, true)

/-- An emergency entry at a level (R152): its frame at EMSP - 16, its handler EMVEC. False where the frame cannot be
written (R153). prio: the vector whose priority MLV takes when the entry was an interrupt's. -/
def State.emergencyAt (s : State) (c t prio : Nat) (r : EntryReq) : State × Bool :=
  let k := s.core c
  let frame := k.srd (xreg 0x485 t) - 16
  match s.pushFrame c t frame r with
  | (s, false) => (s, false)
  | (s, true) => (s.enter c t frame (k.srd (xreg 0x484 t)) true prio r, true)

/-- An emergency vector (R147): FAR holds SP of the level before the entry, INFO the original vector. DESIGN CHOICE (log entry 43): ESTAT.ASYNC is 0,
also where a report started the entry, for ASYNC tells of the vector that the frame holds. -/
def emergencyReq (r : EntryReq) (ev orig kind : Nat) (sp : W64) : EntryReq :=
  { r with vec := ev, info := orig % 64 + (if ev = 0x3E then kind * 64 else 0), far := some sp, fipa := none,
           wnr := false, fetch := false, async := false }

/-- Entry at a level without the escalation test of FH (R145). A level whose emergency frame cannot be written passes
the event on as vector 0x14, and M ends in check-stop (R153). While entries to M are held, an exception that targets M is not taken, and
its instruction raises it again (R440). The fuel counts the levels left. -/
def State.entryAt : Nat → State → Nat → Nat → EntryReq → State
  | 0, s, c, _, r => s.checkStop c r.vec
  | f + 1, s, c, t, r =>
    if t = 3 ∧ s.mHeld c then s else
    let sp := (s.core c).spOf t
    let emergency := fun (s : State) (ev kind : Nat) =>
      match s.emergencyAt c t r.vec (emergencyReq r ev r.vec kind sp) with
      | (s, true) => s
      | (s, false) =>
        if t = 3 then s.checkStop c ev
        else State.entryAt f s c (t + 1)
          { r with vec := 0x14, info := ev + r.vec % 64 * 256, far := some sp, fipa := none, wnr := false, fetch := false,
                   async := false }
    match s.read64 c t ((s.core c).srd (xreg 0x480 t) + BitVec.ofNat 64 (r.vec * 8)) with
    | (s, .error _) => emergency s 0x3E 0
    | (s, .ok handler) =>
      let frame := sp - 16
      if frame < (s.core c).srd (xreg 0x482 t) ∨ sp < frame then emergency s 0x3F 0
      else match s.pushFrame c t frame r with
        | (s, false) => emergency s 0x3E 1
        | (s, true) => s.enter c t frame handler false r.vec r

/-- A synchronous exception (R145, R154): escalated when it targets the current level while FH = 1. -/
def State.syncEntry (s : State) (c t : Nat) (r : EntryReq) : State :=
  let k := s.core c
  if t = k.lvl ∧ k.fh then
    if t = 3 then
      if k.emgM then s.checkStop c r.vec
      else
        let sp := k.spOf 3
        match s.emergencyAt c 3 r.vec (emergencyReq r 0x3D r.vec 0 sp) with
        | (s, true) => s
        | (s, false) => s.checkStop c 0x3D
    else State.entryAt 3 s c (t + 1) { r with vec := 0x14, info := r.vec, fipa := none, wnr := false, fetch := false }
  else State.entryAt 3 s c t r

/-- A synchronous exception of the instruction at PC (R142, R148). On a halted core that executes ITR, no entry occurs:
CORECTL.ERR and EVEC report it (R449). -/
def State.raise (s : State) (c : Nat) (e : Exc) : State :=
  let k := s.core c
  if k.itr then
    ((s.setRb (Reg.DEBUG_CORECTL.at c) 29 true).setRf (Reg.DEBUG_CORECTL.at c) 28 23 e.vec).modCore c (fun k => { k with itr := k.halted })
  else
    let t := if e.vec = 0x13 then 2 else k.routeOf k.lvl e.vec
    s.syncEntry c t { vec := e.vec, info := e.info, far := e.far, fipa := e.fipa, wnr := e.wnr, fetch := e.fetch, epc := k.pc }

/-- The restart entry of R441: 16 bytes at the image's stack top, the registers of R470 but g1, and PC at the image's entry address. A
frame that cannot be written stops the core. -/
def State.restartEntry (s : State) (c : Nat) : State :=
  let k := s.core c
  match k.restart, s.boot.booted with
  | some gone, some b =>
    let sp := BitVec.ofNat 64 (b.stack.getD c 0) - 16
    let epc := if gone then k.mEpc else k.pc
    let st := if gone then k.mStat else fld k.stat 9 0
    let s := s.setCore c ({ k with restart := none, gs := Sparse.set 0 k.gs 2 (BitVec.ofNat 64 c) }.swr 0x900 0 |>.swr 0xCC0 0)
    let r : EntryReq := { vec := 0, info := b2n gone, epc := epc }
    match s.write64 c 3 sp epc with
    | (s, .error _) => s.checkStop c 0
    | (s, .ok _) =>
      match s.write64 c 3 (sp + 8) (BitVec.ofNat 64 (st + b2n gone * 2 ^ 32)) with
      | (s, .error _) => s.checkStop c 0
      | (s, .ok _) =>
        (s.enter c 3 sp (BitVec.ofNat 64 b.entry) false 0 r).modCore c (fun k => { k with stat := statWord 3 0xF true false })
  | _, _ => s

/-! ## Running and completing -/

/-- May a core execute: released, online, not stopped, halted, waiting or asleep, with the device running? -/
def State.runs (s : State) (c : Nat) : Bool :=
  let k := s.core c
  decide (c < numCores) && k.released && s.online c && !s.sparing c && !k.checkStopped && !k.halted && k.wait == .none &&
    k.sleep == .run && !s.abandoned c && !s.stopped && s.clk.power == .run

/-- How an instruction ends. next: falls through; i0: falls through as one of class I0 or an LDRES, across which the hold of R105 lasts; notTaken, taken:
a conditional branch; jump: a direct transfer; indirect: JR and JLR; loop: LOOP (entered or skipped); ret: GATE, GRET and ERET; hold: it
has not completed. -/
inductive Done where
  | next
  | i0
  | notTaken
  | taken (target : W64)
  | jump (target : W64)
  | indirect (target : W64)
  | loop (target : W64) (entered : Bool)
  | ret (target : W64)
  | hold
deriving DecidableEq, Repr

/-- The trace events of an ending (R500). -/
def Done.events : Done → List TEvent
  | .notTaken => [.atom false]
  | .taken _ => [.atom true]
  | .loop _ e => [.atom e]
  | .indirect t => [.addr t]
  | .ret t => [.addr t]
  | .next | .i0 | .jump _ | .hold => []

/-- The target of a taken transfer. DESIGN CHOICE (log entry 43): GATE, GRET and ERET at LEND count as taken jumps do, so LCNT stays (R74). -/
def Done.target : Done → Option W64
  | .taken t | .jump t | .indirect t | .ret t => some t
  | .loop t e => if e then none else some t
  | .next | .i0 | .notTaken | .hold => none

/-- The next PC and the loop registers after the instruction at pc completes (R73, R74), with the loop's atom. -/
def Core.advance (k : Core) (pc : W64) (d : Done) : Core × List TEvent :=
  match d.target with
  | some t => ({ k with pc := t }, [])
  | none =>
    if pc = k.lend ∧ 1 < k.lcnt then ({ k with pc := k.lbeg, lcnt := k.lcnt - 1 }, [.atom true])
    else if pc = k.lend ∧ k.lcnt = 1 then ({ k with pc := pc + 4, lcnt := 0 }, [.atom false])
    else ({ k with pc := pc + 4 }, [])

/-- The hold of R105 ends: a write that another requester has made to the granule meanwhile now counts, and the reservation is lost (R103). -/
def Core.endHold (k : Core) : Core :=
  let k' := { k with hold := none, overlaid := [] }
  if k.overlaid = [] then k' else { k' with resv := none }.swr 0x1C1 (k.srd 0x1C1 ||| 1)

/-- The hold of R105 after an instruction: it lasts for 8 instructions of class I0 after the LDRES, and no other. -/
def Core.holdAfter (k : Core) (d : Done) : Core :=
  match k.hold with
  | none => k
  | some n => if d = .i0 ∧ n ≠ 0 then { k with hold := some (n - 1) } else k.endHold

/-- The predictor after an ending (R128-R134): k0 is the core before the instruction, whose branch the front end predicted. -/
def Core.learn (k : Core) (k0 : Core) (d : Done) : Core :=
  match k.pred.last with
  | none => k
  | some r =>
    if k0.staticPred ∨ r.pc ≠ k0.pc then k
    else match d with
      | .taken _ | .jump _ | .indirect _ => { k with pred := k.pred.train k0.pred k0.predCtx r true }
      | .notTaken => { k with pred := k.pred.train k0.pred k0.predCtx r false }
      | _ => k

/-- The register-file, checkpoint and latch writes of a commit meet the injectors (R541, R542): the register written, and its doubleword of the
checkpoint, or the PC's where no register is. -/
def State.injectCommit (s : State) (c : Nat) (k0 k : Core) : State :=
  let b := 1 + clusterOf c
  let gs := changedRegs k.gs k0.gs
  let fs := changedRegs k.fs k0.fs
  let s := if k.gs ≠ k0.gs ∨ k.late ≠ k0.late then s.injectWrite b 0x20 (some c) none (gs.headD 0) none else s
  let s := if k.fs ≠ k0.fs then s.injectWrite b 0x21 (some c) none (fs.headD 0) none else s
  (s.injectWrite b 0x22 (some c) none ((gs ++ fs.map (fun r => r + 35)).headD 0) none).injectWrite b 0x27 (some c) none 0 none

/-- Is the invasive debug enable of a world set (R443, R448)? -/
def State.invEnabled (s : State) (sealedWorld : Bool) : Bool := s.rb Reg.DEBUG_AUTH.at (if sealedWorld then 3 else 1)

/-- A core halts (R448): a WEV or WTU ends, CORECTL shows HALTED and the level, and late writebacks are written (R119). -/
def State.haltNow (s : State) (c : Nat) : State :=
  let a := Reg.DEBUG_CORECTL.at c
  let s := s.modCore c (fun k => { k.settle.endHold with halted := true, stepping := false })
  ((s.setRb a 31 true).setRb a 30 false).setRf a 17 16 (s.core c).lvl

/-- A pending halt request is taken at a boundary when the enable of the core's world is set (R448); a step that has
executed its instruction halts again. -/
def State.haltBoundary (s : State) (c : Nat) : State :=
  let k := s.core c
  if k.itr ∨ k.halted then s
  else if k.stepping then s.haltNow c
  else if s.rb (Reg.DEBUG_CORECTL.at c) 30 ∧ s.invEnabled (k.lvl == 3) then s.haltNow c
  else s

/-- The completion of an instruction: next PC and loop (R73), trace (R500), injectors (R541), the single step (R447) and
a debug halt (R448). k0 is the core before it. The report of a Device load comes before a single step's event (R149). -/
def State.finish (s : State) (c : Nat) (k0 : Core) (d : Done) : State :=
  match d with
  | .hold => s
  | d =>
    let k := (s.core c).holdAfter d
    if k.itr then s.setCore c { k with pc := k0.pc, itr := k.halted }
    else
      let (k, evs) := (k.learn k0 d).advance k0.pc d
      let s := s.setCore c { k with retries := 0 }
      let s := s.injectCommit c k0 k
      let s := s.traceCore c true k0.pc (ctxOf c k0) (d.events ++ evs)
      let s := if bit (k.srd 0xA40) 0 ∧ k0.lvl ≤ 1 ∧ k.lvl ≠ 3 ∧ k.loadRep = none then s.raise c { vec := 0x13, info := 1 } else s
      s.haltBoundary c

/-- The breakpoint that the fetch of PC matches, as its event (R447). -/
def Core.breakHit (k : Core) : Option Exc :=
  let ctl := k.srd 0xA40
  if k.lvl ≥ 3 ∨ !bit ctl (1 + k.lvl) ∨ k.itr then none
  else ((List.range 4).find? (fun i => bit (k.srd (0xA41 + i)) 0 && fld (k.srd (0xA41 + i)) 63 2 == fld k.pc 63 2)).map
    (fun i => { vec := 0x13, info := 2 + i * 4 })

/-- Is a debug halt due at the next boundary of a core (R448)? -/
def State.haltDue (s : State) (c : Nat) : Bool :=
  let k := s.core c
  s.rb (Reg.DEBUG_CORECTL.at c) 30 && s.invEnabled (k.lvl == 3) && !k.itr

/-- Is the pending report of a store deliverable (R151)? While the core's level lies above its target it stays pending, and one for M until the core
is at M. -/
def Core.reportReady (k : Core) : Option AsyncRep :=
  match k.report with
  | some r => if k.lvl ≤ r.tgt ∧ (r.tgt = 3 → k.lvl = 3) then some r else none
  | none => none

/-- An event of the orders 1 to 3 of R149, and the restart entry of R441, which comes before every other entry (R440). -/
inductive Due where
  | halt
  | restart
  | load (r : AsyncRep)
  | store (r : AsyncRep)
  | irq (a : IrqCand)
deriving DecidableEq, Repr

/-- The event that a core takes at its next boundary before any instruction (R149): none for an instruction of ITR. -/
def State.due (s : State) (c : Nat) : Option Due :=
  let k := s.core c
  if k.itr then none
  else if s.haltDue c then some .halt
  else if k.restart.isSome then some .restart
  else match k.loadRep with
    | some r => some (.load r)
    | none =>
      match k.reportReady with
      | some r => some (.store r)
      | none => (s.takeable c).map Due.irq

/-- A report is taken (R151, R165): EPC is the first uncommitted instruction. DEDUCED (log entry 43): MULTI stands in INFO[0] of whatever vector it is. -/
def State.takeReport (s : State) (c : Nat) (r : AsyncRep) : State :=
  State.entryAt 3 s c r.tgt { vec := r.vec, info := b2n r.multi, far := some r.far, wnr := r.wnr, async := r.asyncBit, epc := (s.core c).pc }

/-- A due event is taken; an interrupt's source is acknowledged (R424). -/
def State.takeEvent (s : State) (c : Nat) (d : Due) : State :=
  match d with
  | .halt => s.haltNow c
  | .restart => s.restartEntry c
  | .load r => (s.modCore c (fun k => { k with loadRep := none })).takeReport c r
  | .store r => (s.modCore c (fun k => { k with report := none })).takeReport c r
  | .irq a => State.entryAt 3 (s.acknowledge c a) c a.lvl { vec := 0x20 + a.prio, epc := (s.core c).pc }

/-- One instruction of a core: nothing when it cannot run (log entry 7). A due event comes before it and suppresses it (R149), and so does a breakpoint;
else its own effect, and its completion or its exception. -/
def State.execute (s : State) (c : Nat) (body : State → State × Except Exc Done) : State :=
  if !s.runs c then s
  else match s.due c with
    | some d => s.takeEvent c d
    | none =>
      let k := s.core c
      match k.breakHit with
      | some e => (s.raise c e).haltBoundary c
      | none =>
        match body s with
        | (s, .error e) => (s.raise c e).haltBoundary c
        | (s, .ok d) => s.finish c k d

/-- An instruction that only changes the core and falls through. -/
def State.alu (s : State) (c : Nat) (f : Core → Core) : State := s.execute c (fun s => (s.modCore c f, .ok .next))

/-- The same of class I0 (R91). -/
def State.alu0 (s : State) (c : Nat) (f : Core → Core) : State := s.execute c (fun s => (s.modCore c f, .ok .i0))

/-- FCSR.RM holds a reserved rounding mode (FCSR's table). -/
def Core.badRm (k : Core) : Bool := decide (fld k.fcsrNow 2 0 ≥ 5)

/-- A floating-point or packed instruction: FP Disabled first, then Undefined for a reserved rounding mode that it uses
(R71, R150), then its effect on the core. -/
def State.fpu (s : State) (c : Nat) (usesRm : Bool) (f : Core → Core) : State :=
  s.execute c (fun s =>
    let k := s.core c
    if !k.fpe then (s, .error { vec := 0x03 })
    else if usesRm ∧ k.badRm then (s, .error { vec := 0x01 })
    else (s.modCore c f, .ok .next))

/-- A privileged instruction: Privileged below a level (R82), then its body. -/
def State.privileged (s : State) (c lvl : Nat) (body : State → State × Except Exc Done) : State :=
  s.execute c (fun s => if (s.core c).lvl < lvl then (s, .error { vec := 0x02 }) else body s)

/-! ## Waiting and waking -/

/-- A core leaves IDLE, NAP or DOZE (R482): after DOZE its L1 caches are invalid and marked initialised. -/
def State.wakeCore (s : State) (c : Nat) : State :=
  let k := s.core c
  match k.sleep with
  | .run => s
  | .doze =>
    let s := s.setCore c ({ k with sleep := .run }.swr 0x900 (k.srd 0x900 ||| 0x300))
    s.emptyL1 c
  | _ => s.setCore c { k with sleep := .run }

/-- The end of a WEV, WTU or TAKE wait without a grant: the instruction completes (R109, R111). -/
def State.endWait (s : State) (c : Nat) : State :=
  let s := s.wakeCore c
  let k := s.core c
  match k.wait with
  | .wev => (s.setCore c ({ k with wait := .none }.swr 0x1C1 0)).finish c k .next
  | .wtu rx _ => (s.setCore c (({ k with wait := .none }.swr 0x1C1 0).setG rx s.clk.etc)).finish c k .next
  | .take rd => ((s.stopWaiting c).setCore c ({ k with wait := .none }.setG rd 0)).finish c k .next
  | _ => s

/-- The wait that a halt or an interrupt ends (R448, R109, R111): WEV, WTU and TAKE end; a waiting barrier has not
committed and is executed again. -/
def State.interruptWait (s : State) (c : Nat) : State :=
  match (s.core c).wait with
  | .wev | .wtu _ _ | .take _ => s.endWait c
  | .barrier _ => s.modCore c (fun k => { k with wait := .none })
  | _ => s.wakeCore c

/-- A boundary may be reached: the core runs, or waits in a way that events end. -/
def State.atBoundary (s : State) (c : Nat) : Bool :=
  let k := s.core c
  decide (c < numCores) && k.released && s.online c && !s.sparing c && !k.checkStopped && !k.halted && !s.abandoned c &&
    !s.stopped && s.clk.power == .run &&
    (match k.wait with | .load _ | .ack => false | _ => true)

/-- A core at a boundary takes the event that is due (R149), out of a wait if it waits; what the end of the wait itself brings (a single step, a halt)
comes first, and the events are weighed again. -/
def State.boundary (s : State) (c : Nat) : State :=
  if !s.atBoundary c then s
  else match s.due c with
    | none => s
    | some d =>
      if (s.core c).wait = .none ∧ (s.core c).sleep = .run then s.takeEvent c d
      else
        let s := s.interruptWait c
        if !s.atBoundary c then s
        else match s.due c with
          | none => s
          | some d => s.takeEvent c d

end Sys2Proof.Machine
end

