-- ==== Sys2Proof/Machine/Flags.lean ====
section
/-! DEFINITION. Floating-point arithmetic and its FCSR flags (R70, R72, R97-R99): IEEE 754-2019 for binary32 and binary64,
computed exactly on integers and rounded once. -/
namespace Sys2Proof
open Sys2Proof.Machine

/-! ## FCSR flags -/

/-- FCSR.NV. -/
def flagNV : W64 := 0x80
/-- FCSR.DZ. -/
def flagDZ : W64 := 0x40
/-- FCSR.OF with NX: an overflowed result is inexact. -/
def flagOFNX : W64 := 0x28
/-- FCSR.UF with NX. -/
def flagUFNX : W64 := 0x18
/-- FCSR.NX. -/
def flagNX : W64 := 0x08
/-- FCSR.SAT. -/
def flagSAT : W64 := 0x100

/-- A result with the FCSR flags it raises. -/
abbrev FRes := W64 × W64

/-! ## Formats -/

/-- Precision in bits. -/
def Fmt.prec : Fmt → Nat | .s => 24 | .d => 53
/-- Width of the exponent field. -/
def Fmt.ebits : Fmt → Nat | .s => 8 | .d => 11
/-- Exponent bias. -/
def Fmt.bias : Fmt → Nat | .s => 127 | .d => 1023
/-- Width of the format. -/
def Fmt.width : Fmt → Nat | .s => 32 | .d => 64
/-- The canonical quiet NaN (R97). -/
def Fmt.nan : Fmt → W64 | .s => 0x7FC00000 | .d => 0x7FF8000000000000
/-- The exponent of the lowest bit of a subnormal. -/
def Fmt.qmin (f : Fmt) : Int := 2 - (f.bias : Int) - (f.prec : Int)

/-- A floating-point datum: fin s m e is (-1)^s m 2^e with m > 0. -/
inductive FVal where
  | nan (signalling : Bool)
  | inf (sg : Bool)
  | zero (sg : Bool)
  | fin (sg : Bool) (m : Nat) (e : Int)
deriving DecidableEq, Repr

/-- An operand of a format, from the low bits of an f register (R70). -/
def Fmt.unpack (f : Fmt) (v : W64) : FVal :=
  let n := v.toNat % 2 ^ f.width
  let frac := n % 2 ^ (f.prec - 1)
  let ex := n / 2 ^ (f.prec - 1) % 2 ^ f.ebits
  let sg := n / 2 ^ (f.width - 1) % 2 == 1
  if ex = 2 ^ f.ebits - 1 then
    (if frac = 0 then .inf sg else .nan (frac / 2 ^ (f.prec - 2) == 0))
  else if ex = 0 then (if frac = 0 then .zero sg else .fin sg frac f.qmin)
  else .fin sg (frac + 2 ^ (f.prec - 1)) (f.qmin + ((ex : Int) - 1))

/-- Is a datum subnormal in a format? -/
def Fmt.subnormal (f : Fmt) : FVal → Bool
  | .fin _ m e => decide (m < 2 ^ (f.prec - 1)) && e == f.qmin
  | _ => false

/-- An operand as arithmetic sees it: under FZ a subnormal is a zero of its sign (FCSR's table). -/
def Fmt.operand (f : Fmt) (fz : Bool) (v : W64) : FVal :=
  match f.unpack v with
  | .fin sg m e => if fz && f.subnormal (.fin sg m e) then .zero sg else .fin sg m e
  | x => x

/-- The sign bit of a format. -/
def Fmt.signBit (f : Fmt) (sg : Bool) : Nat := b2n sg * 2 ^ (f.width - 1)
/-- An infinity. -/
def Fmt.infBits (f : Fmt) (sg : Bool) : W64 := BitVec.ofNat 64 (f.signBit sg + (2 ^ f.ebits - 1) * 2 ^ (f.prec - 1))
/-- The largest finite number. -/
def Fmt.maxBits (f : Fmt) (sg : Bool) : W64 := BitVec.ofNat 64 (f.signBit sg + (2 ^ f.ebits - 1) * 2 ^ (f.prec - 1) - 1)
/-- A zero. -/
def Fmt.zeroBits (f : Fmt) (sg : Bool) : W64 := BitVec.ofNat 64 (f.signBit sg)

/-- The number of bits of a number. -/
def bitLen (n : Nat) : Nat := if n = 0 then 0 else Nat.log2 n + 1

/-- Does a rounding mode round a magnitude up, from the kept value's low bit and twice the rest against one unit?
rest: 0 exact, 1 below half, 2 half, 3 above half. -/
def roundsUp (rm : Nat) (sg odd : Bool) (rest : Nat) : Bool :=
  if rest = 0 then false
  else if rm = 0 then rest == 3 || (rest == 2 && odd)
  else if rm = 1 then false
  else if rm = 2 then !sg
  else if rm = 3 then sg
  else decide (rest ≥ 2)

/-- m / 2^sh rounded, and whether it was inexact. -/
def roundShift (rm : Nat) (sg : Bool) (m sh : Nat) : Nat × Bool :=
  if sh = 0 then (m, false)
  else
    let q := m / 2 ^ sh
    let r := m % 2 ^ sh
    let h := 2 ^ (sh - 1)
    let rest := if r = 0 then 0 else if r < h then 1 else if r = h then 2 else 3
    (if roundsUp rm sg (q % 2 == 1) rest then q + 1 else q, r != 0)

/-- m 2^e on the grid of multiples of 2^q, rounded. -/
def roundAt (rm : Nat) (sg : Bool) (m : Nat) (e q : Int) : Nat × Bool :=
  if q ≤ e then (m * 2 ^ (e - q).toNat, false) else roundShift rm sg m (q - e).toNat

/-- The rounded result of an exact nonzero value (R97): tininess after rounding, FZ flushing a subnormal result. -/
def Fmt.round (f : Fmt) (rm : Nat) (fz sg : Bool) (m : Nat) (e : Int) : FRes :=
  let p : Int := f.prec
  let top : Int := e + (bitLen m : Int) - 1          -- exponent of the leading bit
  let emin : Int := 1 - (f.bias : Int)
  let q := max (top - (p - 1)) f.qmin
  let (r, inexact) := roundAt rm sg m e q
  let (u, _) := roundAt rm sg m e (top - (p - 1))      -- unbounded exponent
  let tiny := decide (top < emin) && !(top == emin - 1 && u == 2 ^ f.prec)
  let sub := decide (r < 2 ^ (f.prec - 1))
  if r = 0 then (f.zeroBits sg, flagUFNX)
  else if sub && fz then (f.zeroBits sg, flagUFNX)
  else
    -- exponent field: 0 for a subnormal, else by the grid; a carry out of the mantissa moves into it
    let field : Int := if sub then 0 else q - f.qmin + 1
    let bits : Int := if sub then (r : Int) else (field - 1) * 2 ^ (f.prec - 1) + (r : Int)
    let limit : Int := ((2 ^ f.ebits - 1) * 2 ^ (f.prec - 1) : Nat)
    if bits ≥ limit then
      let big := rm = 0 ∨ rm = 4 ∨ (rm = 2 ∧ !sg) ∨ (rm = 3 ∧ sg)
      (if big then f.infBits sg else f.maxBits sg, flagOFNX)
    else (BitVec.ofNat 64 (f.signBit sg + bits.toNat), if inexact then (if tiny then flagUFNX else flagNX) else 0)

/-! ## Arithmetic -/

/-- Does any operand signal? -/
def anySnan (xs : List FVal) : Bool := xs.any (fun x => match x with | .nan true => true | _ => false)
/-- Is any operand a NaN? -/
def anyNan (xs : List FVal) : Bool := xs.any (fun x => match x with | .nan _ => true | _ => false)

/-- The NaN result of an operation with a NaN operand (R97). -/
def Fmt.nanRes (f : Fmt) (xs : List FVal) : FRes := (f.nan, if anySnan xs then flagNV else 0)

/-- The sign of an exact zero sum (IEEE 754-2019, 6.3). -/
def zeroSumSign (rm : Nat) : Bool := rm == 3

/-- The value of a finite datum as a signed integer times 2^e0. -/
def scaled (sg : Bool) (m : Nat) (e e0 : Int) : Int :=
  let n : Int := (m * 2 ^ (e - e0).toNat : Nat)
  if sg then -n else n

/-- The sum of two data, rounded. -/
def Fmt.addV (f : Fmt) (rm : Nat) (fz : Bool) (x y : FVal) : FRes :=
  match x, y with
  | .nan a, _ => f.nanRes [.nan a, y]
  | _, .nan b => f.nanRes [x, .nan b]
  | .inf a, .inf b => if a = b then (f.infBits a, 0) else (f.nan, flagNV)
  | .inf a, _ => (f.infBits a, 0)
  | _, .inf b => (f.infBits b, 0)
  | .zero a, .zero b => (f.zeroBits (if a = b then a else zeroSumSign rm), 0)
  | .zero _, .fin sg m e => f.round rm fz sg m e
  | .fin sg m e, .zero _ => f.round rm fz sg m e
  | .fin sg m e, .fin t n g =>
    let e0 := min e g
    let v := scaled sg m e e0 + scaled t n g e0
    if v = 0 then (f.zeroBits (zeroSumSign rm), 0) else f.round rm fz (decide (v < 0)) v.natAbs e0

/-- A datum with its sign inverted. -/
def FVal.neg : FVal → FVal
  | .inf sg => .inf (!sg) | .zero sg => .zero (!sg) | .fin sg m e => .fin (!sg) m e | .nan b => .nan b

/-- The exact product of two data that are not NaN; none for infinity times zero. -/
def mulV (x y : FVal) : Option FVal :=
  match x, y with
  | .inf a, .inf b => some (.inf (a != b))
  | .inf a, .fin b _ _ => some (.inf (a != b))
  | .fin a _ _, .inf b => some (.inf (a != b))
  | .zero a, .zero b => some (.zero (a != b))
  | .zero a, .fin b _ _ => some (.zero (a != b))
  | .fin a _ _, .zero b => some (.zero (a != b))
  | .fin a m e, .fin b n g => some (.fin (a != b) (m * n) (e + g))
  | _, _ => none

/-- A datum that is exact, rounded to the format. -/
def Fmt.pack (f : Fmt) (rm : Nat) (fz : Bool) : FVal → FRes
  | .nan b => f.nanRes [.nan b]
  | .inf sg => (f.infBits sg, 0)
  | .zero sg => (f.zeroBits sg, 0)
  | .fin sg m e => f.round rm fz sg m e

/-- FADD and FSUB (R97). -/
def Fmt.add (f : Fmt) (rm : Nat) (fz sub : Bool) (a b : W64) : FRes :=
  let y := f.operand fz b
  f.addV rm fz (f.operand fz a) (if sub then y.neg else y)

/-- FMUL (R97). -/
def Fmt.mul (f : Fmt) (rm : Nat) (fz : Bool) (a b : W64) : FRes :=
  let x := f.operand fz a
  let y := f.operand fz b
  if anyNan [x, y] then f.nanRes [x, y]
  else match mulV x y with
    | none => (f.nan, flagNV)
    | some z => f.pack rm fz z

/-- FMAC and FMSC (R97): c + a b, or c - a b, rounded once. openNV: the flag that IEEE 754-2019 leaves to the
implementation for infinity times zero plus a quiet NaN (log entry 3). -/
def Fmt.fma (f : Fmt) (rm : Nat) (fz negate openNV : Bool) (c a b : W64) : FRes :=
  let x := f.operand fz a
  let y := f.operand fz b
  let z := f.operand fz c
  if anyNan [x, y] then f.nanRes [x, y, z]
  else match mulV x y with
    | none => (f.nan, if anyNan [z] ∧ !anySnan [z] then (if openNV then flagNV else 0) else flagNV)
    | some pr => f.addV rm fz z (if negate then pr.neg else pr)

/-- FDIV (R97). -/
def Fmt.div (f : Fmt) (rm : Nat) (fz : Bool) (a b : W64) : FRes :=
  let x := f.operand fz a
  let y := f.operand fz b
  match x, y with
  | .nan _, _ => f.nanRes [x, y]
  | _, .nan _ => f.nanRes [x, y]
  | .inf _, .inf _ => (f.nan, flagNV)
  | .zero _, .zero _ => (f.nan, flagNV)
  | .inf sg, .fin t _ _ => (f.infBits (sg != t), 0)
  | .inf sg, .zero t => (f.infBits (sg != t), 0)
  | .fin sg _ _, .inf t => (f.zeroBits (sg != t), 0)
  | .zero sg, .inf t => (f.zeroBits (sg != t), 0)
  | .zero sg, .fin t _ _ => (f.zeroBits (sg != t), 0)
  | .fin sg _ _, .zero t => (f.infBits (sg != t), flagDZ)
  | .fin sg m e, .fin t n g =>
    let k := 2 * f.prec + 4
    let q := m * 2 ^ k / n
    let q' := 2 * q + b2n (m * 2 ^ k % n != 0)
    f.round rm fz (sg != t) q' (e - g - (k : Int) - 1)

/-- The integer square root of n, bit by bit from bit i down. -/
def isqrtFrom : Nat → Nat → Nat → Nat
  | 0, _, r => r
  | i + 1, n, r => if (r + 2 ^ i) * (r + 2 ^ i) ≤ n then isqrtFrom i n (r + 2 ^ i) else isqrtFrom i n r

/-- FSQRT (R97). -/
def Fmt.sqrt (f : Fmt) (rm : Nat) (fz : Bool) (a : W64) : FRes :=
  match f.operand fz a with
  | .nan b => f.nanRes [.nan b]
  | .zero sg => (f.zeroBits sg, 0)
  | .inf sg => if sg then (f.nan, flagNV) else (f.infBits false, 0)
  | .fin sg m e =>
    if sg then (f.nan, flagNV)
    else
      let k := 2 * f.prec + 6
      let odd := (e % 2).toNat               -- make the exponent even
      let n := m * 2 ^ (k * 2 + odd)
      let r := isqrtFrom (bitLen n / 2 + 1) n 0
      f.round rm fz false (2 * r + b2n (r * r != n)) ((e - odd) / 2 - (k : Int) - 1)

/-- Orders of data that are not NaN: is x below y? -0 and +0 are equal here. -/
def FVal.lt (x y : FVal) : Bool :=
  match x, y with
  | .inf a, .inf b => a && !b
  | .inf a, _ => a
  | _, .inf b => !b
  | .zero _, .zero _ => false
  | .zero _, .fin sg _ _ => !sg
  | .fin sg _ _, .zero _ => sg
  | .fin sg m e, .fin t n g => let e0 := min e g; decide (scaled sg m e e0 < scaled t n g e0)
  | _, _ => false

/-- Equality of data that are not NaN. -/
def FVal.eq (x y : FVal) : Bool :=
  match x, y with
  | .nan _, _ => false
  | _, .nan _ => false
  | _, _ => !x.lt y && !y.lt x

/-- The sign of a datum. -/
def FVal.sign : FVal → Bool
  | .inf sg => sg | .zero sg => sg | .fin sg _ _ => sg | .nan _ => false

/-- FMIN and FMAX (R97): minimumNumber and maximumNumber, -0 below +0. -/
def Fmt.minMax (f : Fmt) (fz isMax : Bool) (a b : W64) : FRes :=
  let x := f.operand fz a
  let y := f.operand fz b
  let fl := if anySnan [x, y] then flagNV else 0
  let bits := fun z v => match z with
    | FVal.zero sg => f.zeroBits sg
    | _ => BitVec.ofNat 64 (v % 2 ^ f.width)
  match x, y with
  | .nan _, .nan _ => (f.nan, fl)
  | .nan _, _ => (bits y b.toNat, fl)
  | _, .nan _ => (bits x a.toNat, fl)
  | _, _ =>
    let less := x.lt y || (x.eq y && x.sign && !y.sign)
    (if less != isMax then bits x a.toNat else bits y b.toNat, fl)

/-- FEQ, FLT, FLE (R97): kind 0, 1, 2. FEQ signals only for a signalling NaN. -/
def Fmt.compare (f : Fmt) (fz : Bool) (kind : Nat) (a b : W64) : FRes :=
  let x := f.operand fz a
  let y := f.operand fz b
  if anyNan [x, y] then (0, if kind ≠ 0 ∨ anySnan [x, y] then flagNV else 0)
  else
    let r := if kind = 0 then x.eq y else if kind = 1 then x.lt y else x.lt y || x.eq y
    (BitVec.ofNat 64 (b2n r), 0)

/-- An operand's bits with its sign bit changed: FABS and FNEG copy NaNs bit for bit (R97). -/
def Fmt.withSign (f : Fmt) (v : W64) (g : Bool → Bool) : W64 :=
  let n := v.toNat % 2 ^ f.width
  BitVec.ofNat 64 (f.signBit (g (n / 2 ^ (f.width - 1) == 1)) + n % 2 ^ (f.width - 1))

/-- FCLASS (R98): FZ is ignored and no flag is set. -/
def Fmt.classOf (f : Fmt) (v : W64) : W64 :=
  let n := v.toNat % 2 ^ f.width
  let sg := b2n (n / 2 ^ (f.width - 1) == 1) * 8
  match f.unpack v with
  | .zero _ => BitVec.ofNat 64 (0 + sg + 16)
  | .inf _ => BitVec.ofNat 64 (3 + sg)
  | .nan q => BitVec.ofNat 64 ((if q then 5 else 4) + sg)
  | .fin t m e =>
    if f.subnormal (.fin t m e) then BitVec.ofNat 64 (1 + sg)
    else
      let integral := decide (0 ≤ e) || m % 2 ^ (-e).toNat == 0
      BitVec.ofNat 64 (2 + sg + b2n integral * 16)

/-- FCVT to a signed or unsigned 64-bit integer (R97). -/
def Fmt.toInteger (f : Fmt) (rm : Nat) (fz uns : Bool) (v : W64) : FRes :=
  let lo : Int := if uns then 0 else -(2 ^ 63)
  let hi : Int := if uns then 2 ^ 64 - 1 else 2 ^ 63 - 1
  match f.operand fz v with
  | .nan _ => (0, flagNV)
  | .inf sg => (BitVec.ofInt 64 (if sg then lo else hi), flagNV)
  | .zero _ => (0, 0)
  | .fin sg m e =>
    let (r, ix) := roundAt rm sg m e 0
    let i : Int := if sg then -(r : Int) else r
    if i < lo then (BitVec.ofInt 64 lo, flagNV)
    else if hi < i then (BitVec.ofInt 64 hi, flagNV)
    else (BitVec.ofInt 64 i, if ix then flagNX else 0)

/-- FCVT from a signed or unsigned 64-bit integer (R97). -/
def Fmt.ofInteger (f : Fmt) (rm : Nat) (uns : Bool) (v : W64) : FRes :=
  let i : Int := if uns then (v.toNat : Int) else v.toInt
  if i = 0 then (f.zeroBits false, 0) else f.round rm false (decide (i < 0)) i.natAbs 0

/-- FCVT.S.D and FCVT.D.S (R97): the second is exact. -/
def convertFmt (src dst : Fmt) (rm : Nat) (fz : Bool) (v : W64) : FRes := dst.pack rm fz (src.operand fz v)

/-! ## Packed data -/

/-- Width of a lane (R70). -/
def Lane.bits : Lane → Nat | .b => 8 | .h => 16 | .w => 32

/-- An operation on every lane of width w (R70). -/
def lanes (w : Nat) (f : Nat → Nat → Nat) (a b : W64) : W64 :=
  BitVec.ofNat 64 (((List.range (64 / w)).map (fun k =>
    f (a.toNat / 2 ^ (k * w) % 2 ^ w) (b.toNat / 2 ^ (k * w) % 2 ^ w) % 2 ^ w * 2 ^ (k * w))).sum)

/-- Is a property true of some lane? -/
def anyLane (w : Nat) (p : Nat → Nat → Bool) (a b : W64) : Bool :=
  (List.range (64 / w)).any (fun k => p (a.toNat / 2 ^ (k * w) % 2 ^ w) (b.toNat / 2 ^ (k * w) % 2 ^ w))

/-- The signed value of a lane. -/
def laneInt (w x : Nat) : Int := if x < 2 ^ (w - 1) then (x : Int) else (x : Int) - 2 ^ w

/-- A number as a lane of width w. -/
def laneOf (w : Nat) (i : Int) : Nat := (i % 2 ^ w).toNat

/-- A value clamped to a signed or unsigned lane (R99). -/
def clamp (w : Nat) (signed : Bool) (i : Int) : Int :=
  let lo : Int := if signed then -(2 ^ (w - 1)) else 0
  let hi : Int := if signed then 2 ^ (w - 1) - 1 else 2 ^ w - 1
  max lo (min hi i)

/-- A lane's exact sum or difference. -/
def laneSum (w : Nat) (signed sub : Bool) (x y : Nat) : Int :=
  let u : Int := if signed then laneInt w x else x
  let v : Int := if signed then laneInt w y else y
  if sub then u - v else u + v

/-- A saturating packed add or subtract, with SAT where a lane clamps (R99). -/
def satLanes (w : Nat) (signed sub : Bool) (a b : W64) : FRes :=
  (lanes w (fun x y => laneOf w (clamp w signed (laneSum w signed sub x y))) a b,
   if anyLane w (fun x y => decide (clamp w signed (laneSum w signed sub x y) ≠ laneSum w signed sub x y)) a b then flagSAT else 0)

/-- A two-lane binary32 operation (R97): the lanes' flags are combined by OR. -/
def lanes2 (g : W64 → W64 → W64 → FRes) (c a b : W64) : FRes :=
  let lo := g (c &&& 0xFFFFFFFF) (a &&& 0xFFFFFFFF) (b &&& 0xFFFFFFFF)
  let hi := g (c >>> 32) (a >>> 32) (b >>> 32)
  ((hi.1 <<< 32) ||| (lo.1 &&& 0xFFFFFFFF), hi.2 ||| lo.2)

end Sys2Proof
end

