-- ==== Sys2Proof/Machine/Operands.lean ====
section
/-! DEFINITION. Every operand form of the core instructions (R84-R87, R96): shifts, immediates, bit fields, data sizes,
effective addresses, base updates, and the ways an instruction writes its result. -/
namespace Sys2Proof

/-- The bytes of a width. -/
def Width.bytes : Width → Nat | .b => 1 | .h => 2 | .w => 4 | .d => 8

/-- The bytes of a data size (R86). -/
def MemSize.bytes : MemSize → Nat
  | .b | .bs => 1 | .h | .hs => 2 | .w | .ws | .fw => 4 | .d | .fd => 8

/-- Does a size name an f register (R86)? -/
def MemSize.isF : MemSize → Bool | .fw | .fd => true | _ => false

/-- Is a size sign-extended, for loads only (R86)? -/
def MemSize.isSigned : MemSize → Bool | .bs | .hs | .ws => true | _ => false

end Sys2Proof

namespace Sys2Proof.Machine

/-! ## Integer operations -/

/-- The number of a truth value. -/
def truth (b : Bool) : W64 := BitVec.ofNat 64 (b2n b)

/-- Shift left. -/
def shl64 (x : W64) (n : Nat) : W64 := x <<< n
/-- Logical shift right. -/
def shr64 (x : W64) (n : Nat) : W64 := x >>> n
/-- Arithmetic shift right. -/
def sar64 (x : W64) (n : Nat) : W64 := x.sshiftRight n
/-- Rotate right. -/
def ror64 (x : W64) (n : Nat) : W64 := x.rotateRight n
/-- 32-bit shift left. -/
def sllw (x : W64) (n : Nat) : W64 := sext32 (x <<< n)
/-- 32-bit logical shift right. -/
def srlw (x : W64) (n : Nat) : W64 := sext32 (zextN 32 x >>> n)
/-- 32-bit arithmetic shift right. -/
def sraw (x : W64) (n : Nat) : W64 := sext32 ((sext32 x).sshiftRight n)

/-- Bits [127:64] of an exact product. -/
def mulHigh (x y : Int) : W64 := BitVec.ofInt 64 (x * y / 2 ^ 64)

/-- Signed division toward zero (R94). -/
def divS {w : Nat} (x y : BitVec w) : BitVec w := if y = 0 then BitVec.allOnes w else x.sdiv y
/-- Unsigned division (R94). -/
def divU {w : Nat} (x y : BitVec w) : BitVec w := if y = 0 then BitVec.allOnes w else x / y
/-- Signed remainder (R94). -/
def remS {w : Nat} (x y : BitVec w) : BitVec w := if y = 0 then x else x.srem y
/-- Unsigned remainder (R94). -/
def remU {w : Nat} (x y : BitVec w) : BitVec w := if y = 0 then x else x % y

/-- CRC32C.x (R95): no initial or final inversion. -/
def crc32cFold (x : W64) (bs : List Byte) : W64 := BitVec.ofNat 64 (bs.foldl crc32cByte (x.toNat % 2 ^ 32))

/-- imm21 shifted left and sign-extended. -/
def imm21Shift (imm : BitVec 21) (n : Nat) : W64 := (imm.signExtend 64) <<< n

/-! ## How results are written -/

/-- rd := f rs1 rs2, of class I0 (R91), as the next ones are. -/
def State.op3 (s : State) (c : Nat) (rd rs1 rs2 : RegNo) (f : W64 → W64 → W64) : State :=
  s.alu0 c (fun k => k.setG rd.toNat (f (k.g rs1.toNat) (k.g rs2.toNat)))

/-- rd := f rs1 rs2, of class I1 (R91). -/
def State.opMul (s : State) (c : Nat) (rd rs1 rs2 : RegNo) (f : W64 → W64 → W64) : State :=
  s.alu c (fun k => k.setG rd.toNat (f (k.g rs1.toNat) (k.g rs2.toNat)))

/-- rd := f rd rs1 rs2. -/
def State.op3rd (s : State) (c : Nat) (rd rs1 rs2 : RegNo) (f : W64 → W64 → W64 → W64) : State :=
  s.alu0 c (fun k => k.setG rd.toNat (f (k.g rd.toNat) (k.g rs1.toNat) (k.g rs2.toNat)))

/-- rd := f rs1. -/
def State.op2 (s : State) (c : Nat) (rd rs1 : RegNo) (f : W64 → W64) : State :=
  s.alu0 c (fun k => k.setG rd.toNat (f (k.g rs1.toNat)))

/-- rd := f rs1 imm, the immediate sign-extended (R84). -/
def State.opImm (s : State) (c : Nat) (rd rs1 : RegNo) (imm : BitVec 12) (f : W64 → W64 → W64) : State :=
  s.alu0 c (fun k => k.setG rd.toNat (f (k.g rs1.toNat) (imm.signExtend 64)))

/-- rd := f PC rd. -/
def State.opUpper (s : State) (c : Nat) (rd : RegNo) (f : W64 → W64 → W64) : State :=
  s.alu0 c (fun k => k.setG rd.toNat (f k.pc (k.g rd.toNat)))

/-- rd := f rs1 rs2, by the multiplier-divider's late writeback (R119, unit 0x25). -/
def State.opLate (s : State) (c : Nat) (rd rs1 rs2 : RegNo) (f : W64 → W64 → W64) : State :=
  s.alu c (fun k => k.oweG 0x25 rd.toNat (f (k.g rs1.toNat) (k.g rs2.toNat)))

/-- EXTU, EXTS, INS: rd := f rd rs1 pos len; Undefined when pos + len > 64 (R96). -/
def State.bitField (s : State) (c : Nat) (rd rs1 : RegNo) (pos lenM1 : BitVec 6) (f : W64 → W64 → Nat → Nat → W64) : State :=
  s.execute c (fun s =>
    if pos.toNat + lenM1.toNat + 1 > 64 then (s, .error { vec := 0x01 })
    else (s.modCore c (fun k => k.setG rd.toNat (f (k.g rd.toNat) (k.g rs1.toNat) pos.toNat (lenM1.toNat + 1))), .ok .i0))

/-! ## Floating-point results -/

/-- FCSR.RM. -/
def Core.rm (k : Core) : Nat := fld k.fcsrNow 2 0
/-- FCSR.FZ. -/
def Core.fz (k : Core) : Bool := bit k.fcsrNow 10

/-- Flags are raised (R72): none that stands is cleared. -/
def Core.raiseFlags (k : Core) (fl : W64) : Core := { k with fcsr := k.fcsr ||| fl }

/-- An f result and its flags, written with the stream (R117). -/
def Core.putF (k : Core) (fd : RegNo) (r : FRes) : Core := (k.setF fd.toNat r.1).raiseFlags r.2

/-- A g result and its flags. -/
def Core.putGF (k : Core) (rd : RegNo) (r : FRes) : Core := (k.setG rd.toNat r.1).raiseFlags r.2

/-- An f result and its flags, by the floating-point unit's late writeback (R119, unit 0x26). -/
def Core.lateF (k : Core) (fd : RegNo) (r : FRes) : Core := k.oweF 0x26 fd.toNat r.1 r.2

/-! ## Memory operands -/

/-- How a load or store forms its address (R86). -/
inductive AMode where
  | offset (imm : BitVec 12)
  | indexed (ri : RegNo) (scale : BitVec 2)
  | postInc (imm : BitVec 12)
  | preDec (imm : BitVec 12)
deriving DecidableEq, Repr

/-- The effective address (R86). -/
def Core.ea (k : Core) (rb : RegNo) : AMode → W64
  | .offset imm => k.g rb.toNat + imm.signExtend 64
  | .indexed ri sc => k.g rb.toNat + (k.g ri.toNat <<< sc.toNat)
  | .postInc _ => k.g rb.toNat
  | .preDec imm => k.g rb.toNat - imm.zeroExtend 64

/-- Does the mode update its base? -/
def AMode.updates : AMode → Bool
  | .postInc _ | .preDec _ => true
  | _ => false

/-- Is a load undefined (R87): an updating load into its own base register? -/
def loadUndefined (sz : MemSize) (rt rb : RegNo) (m : AMode) : Bool := m.updates && !sz.isF && rt == rb

/-- The register value of loaded bytes (R86). -/
def extendLoad (n : Nat) (signed : Bool) (bs : List Byte) : W64 :=
  let v := BitVec.ofNat 64 (leNat bs)
  if signed then sextN (8 * n) v else v

/-- The value that a store takes (R86). -/
def Core.storeValue (k : Core) (sz : MemSize) (rt : RegNo) : W64 := if sz.isF then k.f rt.toNat else k.g rt.toNat

end Sys2Proof.Machine
end

