-- ==== Sys2Proof/Machine/Alu.lean ====
section
/-! DEFINITION. Integer register and immediate operations (R94-R96): the tables of the chapter Instruction Reference. -/
namespace Sys2Proof.Machine

/-- ADD. -/
def execAdd (c : Nat) (rd rs1 rs2 : RegNo) (s : State) : Answer := .next (s.op3 c rd rs1 rs2 (fun x y => x + y))

/-- SUB. -/
def execSub (c : Nat) (rd rs1 rs2 : RegNo) (s : State) : Answer := .next (s.op3 c rd rs1 rs2 (fun x y => x - y))

/-- AND. -/
def execAnd (c : Nat) (rd rs1 rs2 : RegNo) (s : State) : Answer := .next (s.op3 c rd rs1 rs2 (fun x y => x &&& y))

/-- OR. -/
def execOr (c : Nat) (rd rs1 rs2 : RegNo) (s : State) : Answer := .next (s.op3 c rd rs1 rs2 (fun x y => x ||| y))

/-- XOR. -/
def execXor (c : Nat) (rd rs1 rs2 : RegNo) (s : State) : Answer := .next (s.op3 c rd rs1 rs2 (fun x y => x ^^^ y))

/-- ANDN. -/
def execAndn (c : Nat) (rd rs1 rs2 : RegNo) (s : State) : Answer := .next (s.op3 c rd rs1 rs2 (fun x y => x &&& ~~~ y))

/-- ORN. -/
def execOrn (c : Nat) (rd rs1 rs2 : RegNo) (s : State) : Answer := .next (s.op3 c rd rs1 rs2 (fun x y => x ||| ~~~ y))

/-- XNOR. -/
def execXnor (c : Nat) (rd rs1 rs2 : RegNo) (s : State) : Answer := .next (s.op3 c rd rs1 rs2 (fun x y => ~~~ (x ^^^ y)))

/-- SLT: signed. -/
def execSlt (c : Nat) (rd rs1 rs2 : RegNo) (s : State) : Answer := .next (s.op3 c rd rs1 rs2 (fun x y => truth (x.slt y)))

/-- SLTU: unsigned. -/
def execSltu (c : Nat) (rd rs1 rs2 : RegNo) (s : State) : Answer := .next (s.op3 c rd rs1 rs2 (fun x y => truth (x.ult y)))

/-- MIN: signed. -/
def execMin (c : Nat) (rd rs1 rs2 : RegNo) (s : State) : Answer := .next (s.op3 c rd rs1 rs2 (fun x y => if x.slt y then x else y))

/-- MAX: signed. -/
def execMax (c : Nat) (rd rs1 rs2 : RegNo) (s : State) : Answer := .next (s.op3 c rd rs1 rs2 (fun x y => if x.slt y then y else x))

/-- MINU: unsigned. -/
def execMinu (c : Nat) (rd rs1 rs2 : RegNo) (s : State) : Answer := .next (s.op3 c rd rs1 rs2 (fun x y => if x.ult y then x else y))

/-- MAXU: unsigned. -/
def execMaxu (c : Nat) (rd rs1 rs2 : RegNo) (s : State) : Answer := .next (s.op3 c rd rs1 rs2 (fun x y => if x.ult y then y else x))

/-- ADDW. -/
def execAddw (c : Nat) (rd rs1 rs2 : RegNo) (s : State) : Answer := .next (s.op3 c rd rs1 rs2 (fun x y => sext32 (x + y)))

/-- SUBW. -/
def execSubw (c : Nat) (rd rs1 rs2 : RegNo) (s : State) : Answer := .next (s.op3 c rd rs1 rs2 (fun x y => sext32 (x - y)))

/-- SLL by rs2[5:0]. -/
def execSll (c : Nat) (rd rs1 rs2 : RegNo) (s : State) : Answer := .next (s.op3 c rd rs1 rs2 (fun x y => shl64 x (fld y 5 0)))

/-- SRL by rs2[5:0]. -/
def execSrl (c : Nat) (rd rs1 rs2 : RegNo) (s : State) : Answer := .next (s.op3 c rd rs1 rs2 (fun x y => shr64 x (fld y 5 0)))

/-- SRA by rs2[5:0]. -/
def execSra (c : Nat) (rd rs1 rs2 : RegNo) (s : State) : Answer := .next (s.op3 c rd rs1 rs2 (fun x y => sar64 x (fld y 5 0)))

/-- ROR by rs2[5:0]. -/
def execRor (c : Nat) (rd rs1 rs2 : RegNo) (s : State) : Answer := .next (s.op3 c rd rs1 rs2 (fun x y => ror64 x (fld y 5 0)))

/-- SLLW by rs2[4:0]. -/
def execSllw (c : Nat) (rd rs1 rs2 : RegNo) (s : State) : Answer := .next (s.op3 c rd rs1 rs2 (fun x y => sllw x (fld y 4 0)))

/-- SRLW by rs2[4:0]. -/
def execSrlw (c : Nat) (rd rs1 rs2 : RegNo) (s : State) : Answer := .next (s.op3 c rd rs1 rs2 (fun x y => srlw x (fld y 4 0)))

/-- SRAW by rs2[4:0]. -/
def execSraw (c : Nat) (rd rs1 rs2 : RegNo) (s : State) : Answer := .next (s.op3 c rd rs1 rs2 (fun x y => sraw x (fld y 4 0)))

/-- CLZ. -/
def execClz (c : Nat) (rd rs1 : RegNo) (s : State) : Answer := .next (s.op2 c rd rs1 (fun x => BitVec.ofNat 64 (64 - bitLen x.toNat)))

/-- CTZ. -/
def execCtz (c : Nat) (rd rs1 : RegNo) (s : State) : Answer := .next (s.op2 c rd rs1 (fun x => BitVec.ofNat 64 ((lowestSet 64 0 x.toNat).getD 64)))

/-- POPC. -/
def execPopc (c : Nat) (rd rs1 : RegNo) (s : State) : Answer := .next (s.op2 c rd rs1 (fun x => BitVec.ofNat 64 (popCount 64 x.toNat)))

/-- REV8: the byte order reversed. -/
def execRev8 (c : Nat) (rd rs1 : RegNo) (s : State) : Answer := .next (s.op2 c rd rs1 (fun x => BitVec.ofNat 64 (leNat (leBytes 8 x.toNat).reverse)))

/-- BREV: the bit order reversed. -/
def execBrev (c : Nat) (rd rs1 : RegNo) (s : State) : Answer := .next (s.op2 c rd rs1 (fun x => x.reverse))

/-- SEXTB. -/
def execSextb (c : Nat) (rd rs1 : RegNo) (s : State) : Answer := .next (s.op2 c rd rs1 (fun x => sextN 8 x))

/-- SEXTH. -/
def execSexth (c : Nat) (rd rs1 : RegNo) (s : State) : Answer := .next (s.op2 c rd rs1 (fun x => sextN 16 x))

/-- SEXTW. -/
def execSextw (c : Nat) (rd rs1 : RegNo) (s : State) : Answer := .next (s.op2 c rd rs1 (fun x => sextN 32 x))

/-- ZEXTW. -/
def execZextw (c : Nat) (rd rs1 : RegNo) (s : State) : Answer := .next (s.op2 c rd rs1 (fun x => zextN 32 x))

/-- PICKZ: rd is read as a source (R96). -/
def execPickz (c : Nat) (rd rs1 rs2 : RegNo) (s : State) : Answer := .next (s.op3rd c rd rs1 rs2 (fun old x y => if y = 0 then x else old))

/-- PICKNZ: rd is read as a source (R96). -/
def execPicknz (c : Nat) (rd rs1 rs2 : RegNo) (s : State) : Answer := .next (s.op3rd c rd rs1 rs2 (fun old x y => if y = 0 then old else x))

/-- CRC32C (R95). -/
def execCrc32c (c : Nat) (wd : Width) (rd rs1 rs2 : RegNo) (s : State) : Answer := .next (s.opMul c rd rs1 rs2 (fun x y => crc32cFold x (leBytes wd.bytes y.toNat)))

/-- ADDI, with imm12 sign-extended (R84). -/
def execAddi (c : Nat) (rd rs1 : RegNo) (imm : BitVec 12) (s : State) : Answer := .next (s.opImm c rd rs1 imm (fun x i => x + i))

/-- ADDWI, with imm12 sign-extended (R84). -/
def execAddwi (c : Nat) (rd rs1 : RegNo) (imm : BitVec 12) (s : State) : Answer := .next (s.opImm c rd rs1 imm (fun x i => sext32 (x + i)))

/-- ANDI, with imm12 sign-extended (R84). -/
def execAndi (c : Nat) (rd rs1 : RegNo) (imm : BitVec 12) (s : State) : Answer := .next (s.opImm c rd rs1 imm (fun x i => x &&& i))

/-- ORI, with imm12 sign-extended (R84). -/
def execOri (c : Nat) (rd rs1 : RegNo) (imm : BitVec 12) (s : State) : Answer := .next (s.opImm c rd rs1 imm (fun x i => x ||| i))

/-- XORI, with imm12 sign-extended (R84). -/
def execXori (c : Nat) (rd rs1 : RegNo) (imm : BitVec 12) (s : State) : Answer := .next (s.opImm c rd rs1 imm (fun x i => x ^^^ i))

/-- SLTI: signed, with imm12 sign-extended (R84). -/
def execSlti (c : Nat) (rd rs1 : RegNo) (imm : BitVec 12) (s : State) : Answer := .next (s.opImm c rd rs1 imm (fun x i => truth (x.slt i)))

/-- SLTUI: unsigned, with imm12 sign-extended (R84). -/
def execSltui (c : Nat) (rd rs1 : RegNo) (imm : BitVec 12) (s : State) : Answer := .next (s.opImm c rd rs1 imm (fun x i => truth (x.ult i)))

/-- MULI: the low 64 bits, with imm12 sign-extended (R84). -/
def execMuli (c : Nat) (rd rs1 : RegNo) (imm : BitVec 12) (s : State) : Answer := .next (s.alu c (fun k => k.setG rd.toNat (k.g rs1.toNat * imm.signExtend 64)))

/-- SLLI. -/
def execSlli (c : Nat) (rd rs1 : RegNo) (sh : BitVec 6) (s : State) : Answer := .next (s.op2 c rd rs1 (fun x => shl64 x sh.toNat))

/-- SRLI. -/
def execSrli (c : Nat) (rd rs1 : RegNo) (sh : BitVec 6) (s : State) : Answer := .next (s.op2 c rd rs1 (fun x => shr64 x sh.toNat))

/-- SRAI. -/
def execSrai (c : Nat) (rd rs1 : RegNo) (sh : BitVec 6) (s : State) : Answer := .next (s.op2 c rd rs1 (fun x => sar64 x sh.toNat))

/-- RORI. -/
def execRori (c : Nat) (rd rs1 : RegNo) (sh : BitVec 6) (s : State) : Answer := .next (s.op2 c rd rs1 (fun x => ror64 x sh.toNat))

/-- SLLWI. -/
def execSllwi (c : Nat) (rd rs1 : RegNo) (sh : BitVec 5) (s : State) : Answer := .next (s.op2 c rd rs1 (fun x => sllw x sh.toNat))

/-- SRLWI. -/
def execSrlwi (c : Nat) (rd rs1 : RegNo) (sh : BitVec 5) (s : State) : Answer := .next (s.op2 c rd rs1 (fun x => srlw x sh.toNat))

/-- SRAWI. -/
def execSrawi (c : Nat) (rd rs1 : RegNo) (sh : BitVec 5) (s : State) : Answer := .next (s.op2 c rd rs1 (fun x => sraw x sh.toNat))

/-- EXTU (R96): pos + len above 64 is undefined. -/
def execExtu (c : Nat) (rd rs1 : RegNo) (pos lenM1 : BitVec 6) (s : State) : Answer := .next (s.bitField c rd rs1 pos lenM1 (fun _ x p l => zextN l (x >>> p)))

/-- EXTS (R96): pos + len above 64 is undefined. -/
def execExts (c : Nat) (rd rs1 : RegNo) (pos lenM1 : BitVec 6) (s : State) : Answer := .next (s.bitField c rd rs1 pos lenM1 (fun _ x p l => sextN l (x >>> p)))

/-- INS (R96): the other bits of rd are kept. -/
def execIns (c : Nat) (rd rs1 : RegNo) (pos lenM1 : BitVec 6) (s : State) : Answer := .next (s.bitField c rd rs1 pos lenM1 (fun old x p l => setFld old (p + l - 1) p x.toNat))

/-- LUI: bit 32 is the sign. -/
def execLui (c : Nat) (rd : RegNo) (imm : BitVec 21) (s : State) : Answer := .next (s.opUpper c rd (fun _ _ => imm21Shift imm 12))

/-- AUIPC. -/
def execAuipc (c : Nat) (rd : RegNo) (imm : BitVec 21) (s : State) : Answer := .next (s.opUpper c rd (fun pc _ => pc + imm21Shift imm 12))

/-- ADR. -/
def execAdr (c : Nat) (rd : RegNo) (imm : BitVec 21) (s : State) : Answer := .next (s.opUpper c rd (fun pc _ => pc + imm21Shift imm 2))

/-- LUHI: rd[42:0] kept. -/
def execLuhi (c : Nat) (rd : RegNo) (imm : BitVec 21) (s : State) : Answer := .next (s.opUpper c rd (fun _ old => setFld old 63 43 imm.toNat))

end Sys2Proof.Machine
end

