-- ==== Sys2Proof/Machine/Clocks.lean ====
section
/-! DEFINITION. Clock monitors, the elapsed-time counter and its comparators (chapter Clocks, Elapsed Time and Resets). -/
namespace Sys2Proof.Machine

/-- ETCCMP fires (R519): while ETCCTL.EN = 1 and ETC ≥ ETCCMP, private source 0 is raised and EN is cleared. -/
def State.compare (s : State) (c : Nat) : State :=
  let k := s.core c
  if bit (k.srd 0x5C1) 0 ∧ k.srd 0x5C0 ≤ s.clk.etc then
    (s.setCore c (k.swr 0x5C1 0)).raisePrivate c 0
  else s

/-- The comparators of every core, after a step of the count (R519). -/
def State.compareAll (s : State) : State := (List.range numCores).foldl (fun s c => s.compare c) s

/-- The count is stepped by an adoption or a correction of Relay time (R390); both copies take it. -/
def State.setEtc (s : State) (v : W64) : State :=
  { s with clk := { s.clk with etc := v, copy := v, frac := 0 } }.compareAll

/-- ETC_INCREMENT (R514): 40 per REF cycle, or 30517.578125 per ACLK cycle in PARK with 6 fraction bits; no count in OFF.
A mismatch of the two copies is Fatal. -/
def execEtcIncrement (copyOk : Bool) (s : State) : Host.Outcome State Fault Refusal :=
  .next (
    let s := match s.clk.power with
      | .off => s
      | .park =>
        let f := s.clk.frac + 37   -- 0.578125 = 37/64
        let v := s.clk.etc + BitVec.ofNat 64 (30517 + f / 64)
        { s with clk := { s.clk with etc := v, copy := v, frac := f % 64 } }
      | _ =>
        let v := s.clk.etc + 40
        { s with clk := { s.clk with etc := v, copy := v, frac := 0 } }
    if copyOk then s else s.record { bank := 47, unit := 0x03, code := 0x05, sev := .fatal })

/-- ETC_COMPARATOR (R519): the ETC has reached a core's ETCCMP. -/
def execEtcComparator (c : Nat) (s : State) : Host.Outcome State Fault Refusal :=
  .next (if c < numCores then s.compare c else s)

/-- REF_LOST (R513): REF deviates or stops. -/
def execRefLost (s : State) : Host.Outcome State Fault Refusal :=
  .next ((s.setRb Reg.AON_ETCSTAT.at 1 false).record { bank := 47, unit := 0x00, code := 0x06, sev := .fatal })

/-- PLL_LOCK_LOST (R513): REC_MISC0[3:0] names the PLL. -/
def execPllLockLost (pll : BitVec 4) (s : State) : Host.Outcome State Fault Refusal :=
  .next (s.record { bank := 47, unit := 0x01, code := 0x07, sev := .fatal, misc0 := pll.toNat })

/-- ACLK_LOST (R513): a Deferred record; ETCSTAT.ACLKOK limits the wake sources from then on. -/
def execAclkLost (s : State) : Host.Outcome State Fault Refusal :=
  .next ((s.setRb Reg.AON_ETCSTAT.at 2 false).record { bank := 47, unit := 0x02, code := 0x06, sev := .deferred })

end Sys2Proof.Machine
end

