-- ==== Sys2Proof/Machine/System.lean ====
section
/-! DEFINITION. System registers (R81-R83): MFS and MTS, and the operations that an MTS starts: interrupt completion (R426, R427), L1 operations
(R215, R223), way locks (R225, R226), predictor invalidation (R134) and range operations (R222). -/
namespace Sys2Proof.Machine

/-- What software may write in a system register without an effect of its own, as a mask; none: the number is not such
a register (the tables of the chapters). -/
def srMask (n : Nat) : Option W64 :=
  let all := BitVec.allOnes 64
  if n = 0x004 ∨ n = 0x402 then some all                                    -- TPTR_U, TPTR_K
  else if n = 0x480 ∨ n = 0x880 ∨ n = 0xC80 then some (all <<< 9)           -- VBASE
  else if n = 0x481 ∨ n = 0x881 ∨ n = 0xC81 then some (all <<< 15)          -- GTBASE
  else if n = 0x482 ∨ n = 0x882 ∨ n = 0xC82 then some (all <<< 4)           -- SLIM
  else if n = 0x483 ∨ n = 0x883 ∨ n = 0xC83 then some all                   -- FAR
  else if n = 0x484 ∨ n = 0x884 ∨ n = 0xC84 then some (all <<< 2)           -- EMVEC
  else if n = 0x485 ∨ n = 0x885 ∨ n = 0xC85 then some (all <<< 4)           -- EMSP
  else if n = 0x886 then some 0xFFFFFFFFFFFF                                -- FIPA_H
  else if n = 0x887 then some 0xFFFFFFFF                                    -- XROUTE_H
  else if n = 0x888 ∨ n = 0xC88 then some 0xF                               -- MLVCAP
  else if n = 0x4C0 then some 0xFFFF                                        -- ASID_K
  else if n = 0x4C1 ∨ n = 0x4C2 ∨ n = 0x8C0 ∨ n = 0xCC0 then some 0xFFFFFFFF001   -- TTB
  else if n = 0x8C1 then some 0x0FFF0FFFFFFFF001                            -- VTTB_H
  else if n = 0x500 then some 7                                             -- PFCTL
  else if n = 0x540 then some 0xFFFF                                        -- PSKEY
  else if n = 0x600 then some all                                           -- DSPQ
  else if n = 0x601 then some 3                                             -- SLPCTL
  else if n = 0x1C1 then some 1                                             -- EVENT
  else if n = 0xA40 then some 0xF                                           -- DBGCTL
  else if 0xA41 ≤ n ∧ n ≤ 0xA44 then some (all - 2)                         -- BKPT
  else if n = 0xA45 ∨ n = 0xA46 then some all                               -- WATCH
  else none

/-- Is a number assigned by a chapter of the manual (R82)? -/
def srAssigned (n : Nat) : Bool :=
  (srMask n).isSome || [0x000, 0x001, 0x002, 0x003, 0x008, 0x040, 0x041, 0x042, 0x043, 0x044, 0x045, 0x046, 0x047, 0x400,
    0x401, 0x800, 0x801, 0xC00, 0x100, 0x101, 0x102, 0x900, 0x901, 0x940, 0x980, 0x1C0, 0x5C0, 0x5C1, 0x200, 0x680,
    0x681, 0x682, 0xA80, 0x240].contains n

/-- FEAT0-FEAT7 (R83). -/
def featValue (i : Nat) : W64 :=
  if i = 0 then 0x11123111113
  else if i = 1 then 0x10c102f2c30
  else if i = 2 then 0x111401f
  else if i = 3 then 0x440160830
  else 0

/-- LCID of a logical core. -/
def lcidValue (c : Nat) : W64 := BitVec.ofNat 64 (indexOf c * 2 ^ 12 + clusterOf c * 2 ^ 8 + c)

/-- ICUR (R425): the top entry, visible when its LVL is at or below the current level. -/
def State.icur (s : State) (c lvl : Nat) : W64 :=
  let d := s.rpsDepth c
  let e := s.rps c d
  if d ≠ 0 ∧ fld e 25 24 ≤ lvl then
    BitVec.ofNat 64 (2 ^ 63 + fld e 19 16 * 2 ^ 16 + fld e 25 24 * 2 ^ 12 + fld e 10 0)
  else 0x7FF

/-- The value that MFS returns, once the checks of R82 pass. -/
def State.sysRead (s : State) (c n : Nat) : W64 :=
  let k := s.core c
  if n = 0x000 then k.fcsrNow
  else if n = 0x001 then k.lbeg
  else if n = 0x002 then k.lend
  else if n = 0x003 then k.lcnt
  else if n = 0x008 then lcidValue c
  else if 0x040 ≤ n ∧ n ≤ 0x047 then featValue (n - 0x040)
  else if n = 0x400 then k.stat
  else if n = 0x401 then k.spU
  else if n = 0x800 then k.spK
  else if n = 0xC00 then k.spH
  else if n = 0x1C0 then s.clk.etc
  else if n = 0x680 then s.icur c k.lvl
  else if n = 0x682 then BitVec.ofNat 64 (s.runPrio c * 2 ^ 16 + s.rpsDepth c)
  else if n = 0x681 ∨ n = 0xA80 then 0
  else if n = 0x940 then (if k.lvl = 3 then k.srd n else k.srd n &&& 7)
  else if n = 0x240 then BitVec.ofNat 64 (s.reg64 (Reg.DEBUG_DTR_LO.at c))
  else k.srd n

/-- CACHELOCK (R225): at most 2 locked ways of each L1. -/
def State.writeCacheLock (s : State) (c : Nat) (v : W64) : State :=
  let li := keepLowest 4 0 2 (fld v 3 0)
  let ld := keepLowest 4 0 2 (fld v 11 8)
  let s := s.modCore c (fun k => k.swr 0x901
    (BitVec.ofNat 64 (fld v 15 12 * 2 ^ 12 + ld * 2 ^ 8 + fld v 7 4 * 2 ^ 4 + li)))
  let s := s.unlockWays (fun p => p == .l1i c) (fun w => nfld li w w == 1)
  s.unlockWays (fun p => p == .l1d c) (fun w => nfld ld w w == 1)

/-- CACHECTL (R215, R216, R223): the operation bits act first; an enable needs its cache initialised; a cache that is
disabled is cleaned and invalidated. DESIGN CHOICE (log entry 43): of several operations in one MTS, the invalidations act first. -/
def State.writeCacheCtl (s : State) (c : Nat) (v : W64) : State :=
  let s := if bit v 17 then (s.invalidateL1d c).modCore c (fun k => k.swr 0x900 (k.srd 0x900 ||| 0x200)) else s
  let s := if bit v 16 then (s.invalidateL1i c).modCore c (fun k => k.swr 0x900 (k.srd 0x900 ||| 0x100)) else s
  let s := if bit v 18 then s.cleanL1d c false else s
  let s := if bit v 19 then s.cleanL1d c true else s
  let old := (s.core c).srd 0x900
  let ien := bit v 0 && bit old 8
  let den := bit v 1 && bit old 9
  let s := if bit old 1 && !den then (s.drainBuf c).cleanL1d c true else s
  let s := if bit old 0 && !ien then s.invalidateL1i c else s
  s.modCore c (fun k => k.swr 0x900 (setFld old 1 0 (b2n den * 2 + b2n ien)))

/-- PSCTL (R134): STATIC_M is SW; INVALL empties the predictor. -/
def State.writePsctl (s : State) (c : Nat) (v : W64) : State :=
  s.modCore c (fun k =>
    let keep := k.srd 0x940
    let w := if k.lvl = 3 then v &&& 0xF else (v &&& 7) ||| (keep &&& 8)
    let k := k.swr 0x940 w
    if bit v 8 then { k with pred := Predictor.empty } else k)

/-- Is a range operation running (R222)? -/
def Core.rangeBusy (k : Core) : Bool := bit (k.srd 0x102) 8

/-- CMR_CTL (R222): ignored while BUSY; START begins OP at the level of the MTS. An empty range is done at once. -/
def State.writeCmrCtl (s : State) (c : Nat) (v : W64) : State :=
  s.modCore c (fun k =>
    if k.rangeBusy then k
    else
      let w := (k.srd 0x102 &&& 0xF000) ||| (v &&& 0x203)
      if bit v 4 ∧ k.srd 0x101 ≠ 0 then { k.swr 0x102 (w ||| 0x100) with cmrLvl := k.lvl } else k.swr 0x102 w)

/-- STAT by MTS (R76, R144, R153): LVL and WORLD stay; writing FH = 0 clears EMGACT of the level. -/
def Core.writeStat (k : Core) (v : W64) : Core :=
  let k := if bit v 8 then k else k.setEmg k.lvl false
  { k with stat := statWord k.lvl (k.capMlv k.lvl (fld v 7 4)) (bit v 8) (bit v 9) }

/-- The numbers whose MTS refetches (R123): STAT, PART, the loop registers, PSKEY, PSCTL and groups 2-4. -/
def srRefetches (n : Nat) : Bool :=
  let g := n / 64 % 16
  n == 0x400 || n == 0x801 || n == 0x001 || n == 0x002 || n == 0x003 || n == 0x540 || n == 0x940 || g == 2 || g == 3 || g == 4

/-- The effect of an MTS, once the checks of R82 pass. Fields that are read-only keep their value. -/
def State.sysWrite (s : State) (c n : Nat) (v : W64) : State :=
  let k := s.core c
  let s :=
    if n = 0x000 then s.setCore c { k.settle with fcsr := v &&& 0x5FF }
    else if n = 0x001 then s.setCore c { k with lbeg := v &&& (BitVec.allOnes 64 <<< 2) }
    else if n = 0x002 then s.setCore c { k with lend := v &&& (BitVec.allOnes 64 <<< 2) }
    else if n = 0x003 then s.setCore c { k with lcnt := v }
    else if n = 0x400 then s.setCore c (k.writeStat v)
    else if n = 0x401 then s.setCore c { k with spU := v }
    else if n = 0x800 then s.setCore c { k with spK := v }
    else if n = 0xC00 then s.setCore c { k with spH := v }
    else if n = 0x801 then (if fld v 5 0 = 63 then s else s.setCore c (k.swr 0x801 (v &&& 0x3F)))
    else if n = 0x100 then (if k.rangeBusy then s else s.setCore c (k.swr 0x100 (v &&& (BitVec.allOnes 64 <<< 6))))
    else if n = 0x101 then (if k.rangeBusy then s else s.setCore c (k.swr 0x101 v))
    else if n = 0x102 then s.writeCmrCtl c v
    else if n = 0x900 then s.writeCacheCtl c v
    else if n = 0x901 then s.writeCacheLock c v
    else if n = 0x940 then s.writePsctl c v
    else if n = 0x5C0 then (s.setCore c (k.swr 0x5C0 v)).compare c
    else if n = 0x5C1 then (s.setCore c (k.swr 0x5C1 (v &&& 1))).compare c
    else if n = 0x681 then s.complete c k.lvl (fld v 10 0)
    else if n = 0xA80 then (if bit v 0 then s.clearStack 15 c k.lvl else s)
    else if n = 0x240 then s.setReg64 (Reg.DEBUG_DTR_LO.at c) v.toNat
    else match srMask n with
      | some m => s.setCore c (k.swr n (v &&& m))
      | none => s
  if srRefetches n then (s.dropLineBuf c).newContext c else s

/-- The checks of R82 and R71, in their order: Privileged, Undefined, FP Disabled. DBGDTR is reachable only by an
instruction transferred to a halted core (R449). -/
def Core.sysCheck (k : Core) (n : Nat) : Option Exc :=
  if n = 0x240 then (if k.itr then none else some { vec := 0x01 })
  else if k.lvl < n / 1024 % 4 then some { vec := 0x02 }
  else if !srAssigned n then some { vec := 0x01 }
  else if n = 0 ∧ !k.fpe then some { vec := 0x03 }
  else none

/-- An MTS of a value. -/
def State.mtsValue (s : State) (c n : Nat) (v : Core → W64) : State :=
  s.execute c (fun s =>
    match (s.core c).sysCheck n with
    | some e => (s, .error e)
    | none => (s.sysWrite c n (v (s.core c)), .ok .next))

/-- MFS (R82). -/
def execMfs (c : Nat) (rd : RegNo) (num : BitVec 12) (s : State) : Answer :=
  .next (s.execute c (fun s =>
    match (s.core c).sysCheck num.toNat with
    | some e => (s, .error e)
    | none =>
      let v := s.sysRead c num.toNat
      (s.modCore c (fun k => (if num = 0 then k.settle else k).setG rd.toNat v), .ok .next)))

/-- MTS (R82). -/
def execMts (c : Nat) (rs : RegNo) (num : BitVec 12) (s : State) : Answer :=
  .next (s.mtsValue c num.toNat (fun k => k.g rs.toNat))

/-- IEOI (R426): an MTS to IEOI of the value in rs. -/
def execIeoi (c : Nat) (rs : RegNo) (s : State) : Answer := .next (s.mtsValue c 0x681 (fun k => k.g rs.toNat))

/-- ISTKCLR (R427): an MTS to ISTKCLR of the value in rs. -/
def execIstkclr (c : Nat) (rs : RegNo) (s : State) : Answer := .next (s.mtsValue c 0xA80 (fun k => k.g rs.toNat))

/-! ## L1 operations (R215, R223) -/

/-- An MTS to CACHECTL that keeps the enables and sets an operation bit. -/
def State.cacheOp (s : State) (c i : Nat) : State := s.mtsValue c 0x900 (fun k => (k.srd 0x900 &&& 3) ||| BitVec.ofNat 64 (2 ^ i))

/-- DCLINV. -/
def execDclinv (c : Nat) (s : State) : Answer := .next (s.cacheOp c 19)

/-- DCLEAN. -/
def execDclean (c : Nat) (s : State) : Answer := .next (s.cacheOp c 18)

/-- DINV. -/
def execDinv (c : Nat) (s : State) : Answer := .next (s.cacheOp c 17)

/-- IINV. -/
def execIinv (c : Nat) (s : State) : Answer := .next (s.cacheOp c 16)

/-- CACHE_ENABLE: an MTS to CACHECTL of IEN and DEN. -/
def execCacheEnable (c : Nat) (ien den : Bool) (s : State) : Answer :=
  .next (s.mtsValue c 0x900 (fun _ => BitVec.ofNat 64 (b2n den * 2 + b2n ien)))

/-- INVALL (R134): an MTS to PSCTL that keeps its STATIC bits. -/
def execInvall (c : Nat) (s : State) : Answer := .next (s.mtsValue c 0x940 (fun k => k.srd 0x940 ||| 0x100))

/-! ## Range operations (R222) -/

/-- An MTS to CMR_CTL with START = 1 and an OP. -/
def State.rangeStart (s : State) (c op : Nat) : State := s.mtsValue c 0x102 (fun _ => BitVec.ofNat 64 (0x10 + op))

/-- RANGE_CLEAN. -/
def execRangeClean (c : Nat) (s : State) : Answer := .next (s.rangeStart c 0)

/-- RANGE_CLINV. -/
def execRangeClinv (c : Nat) (s : State) : Answer := .next (s.rangeStart c 1)

/-- RANGE_INV. -/
def execRangeInv (c : Nat) (s : State) : Answer := .next (s.rangeStart c 2)

/-- RANGE_IINV. -/
def execRangeIinv (c : Nat) (s : State) : Answer := .next (s.rangeStart c 3)

/-- DC.INV of one line: whether a dirty line had already been written to memory is open (R224; log entry 3). -/
def State.invLine (s : State) (n : Nat) : State :=
  if (s.mem.line n).dirty.isSome then
    (if s.free % 2 = 0 then s.took.dropLine n else s.took.clinvLine n)
  else s.dropLine n

/-- IC.INV of one line: every L1I and line buffer loses it (R221). -/
def State.icInvLine (s : State) (n : Nat) : State :=
  s.discardAt n (fun x => match x.place with
    | .l1i _ | .lineBuf _ => true
    | _ => false) true

/-- One line operation by its range code: CLEAN, CLINV, INV, IINV. -/
def State.lineOp (s : State) (op n : Nat) : State :=
  if op = 0 then s.cleanLine n else if op = 1 then s.clinvLine n else if op = 2 then s.invLine n else s.icInvLine n

/-- The access that R204 checks for a range code. -/
def opAccess (op : Nat) : AccKind := if op ≤ 1 then .load else if op = 2 then .store else .icInv

/-- RANGE_OPERATION_LINE (R222): the line at CMR_BASE is done and the range advances, or it stops with FAULT. -/
def execRangeOperationLine (c : Nat) (s : State) : Answer :=
  .next (
    let k := s.core c
    if !k.rangeBusy || !s.online c then s
    else
      let op := fld (k.srd 0x102) 1 0
      let op := if op = 2 ∧ k.cmrLvl = 0 then 1 else op
      let va := k.srd 0x100
      let (s, r) := s.translate c k.cmrLvl (opAccess op) va
      match r with
      | .error f =>
        s.modCore c (fun k => k.swr 0x102
          (setFld ((k.srd 0x102 &&& 0xF) ||| 0x200) 15 12 (f.exc (opAccess op) va).vec))
      | .ok (pa, ty) =>
        let s := if ty.device then s else (s.drainBuf c).lineOp op (pa / 64)
        s.modCore c (fun k =>
          let left := k.srd 0x101 - BitVec.ofNat 64 (min 64 (k.srd 0x101).toNat)
          let k := (k.swr 0x100 (va + 64)).swr 0x101 left
          if left = 0 then k.swr 0x102 (setFld (k.srd 0x102) 8 8 0) else k))

end Sys2Proof.Machine
end

