-- ==== Sys2Proof/Machine/Waiting.lean ====
section
/-! DEFINITION. Barriers (R110, R184), events and waits (R108, R109), sleep entry (R481) and dispatch (R111, R488-R489). -/
namespace Sys2Proof.Machine

/-! ## Barriers -/

/-- Is the condition of a barrier met (R110)? kind: 0 FENCE.C, 1 FENCE.K, 2 FENCE.S. In this model a load has its data
when it completes, and a drained store is visible everywhere (log entry 1); what is left is the store buffer, the Device writes that a Relay window's
target has not acknowledged, and a range operation that runs (R222). -/
def State.barrierMet (s : State) (c kind : Nat) : Bool :=
  let sb := (s.core c).sbuf
  if kind = 0 then !sb.any (fun e => e.rtype.device)
  else sb.isEmpty && (kind != 2 || (!s.unacknowledged c && !(s.core c).rangeBusy))

/-- A barrier completes, or holds until its condition is met (R110). -/
def State.barrier (s : State) (c kind : Nat) : State :=
  s.execute c (fun s =>
    if s.barrierMet c kind then (s, .ok .next)
    else (s.modCore c (fun k => { k with wait := .barrier kind }), .ok .hold))

/-- FENCE.C (R110). -/
def execFenceC (c : Nat) (s : State) : Answer := .next (s.barrier c 0)

/-- FENCE.K (R110). -/
def execFenceK (c : Nat) (s : State) : Answer := .next (s.barrier c 1)

/-- FENCE.S (R110). -/
def execFenceS (c : Nat) (s : State) : Answer := .next (s.barrier c 2)

/-- BARRIER_WAIT_END (R184): the condition of a waiting barrier is met. -/
def execBarrierWaitEnd (c : Nat) (s : State) : Answer :=
  .next (
    let k := s.core c
    match k.wait with
    | .barrier kind =>
      if s.barrierMet c kind ∧ !s.sparing c then (s.setCore c { k with wait := .none }).finish c k .next else s
    | _ => s)

/-- ISYNC (R110): what was fetched is discarded. Every older store of this core is visible to its fetch: its buffer
drains first. -/
def execIsync (c : Nat) (s : State) : Answer :=
  .next (s.execute c (fun s => ((s.drainBuf c).dropLineBuf c, .ok .next)))

/-! ## Events -/

/-- An instruction that ITR refuses (R449): CORECTL.ERR is set with EVEC 0. -/
def State.notItr (s : State) (c : Nat) (body : State → State × Except Exc Done) : State :=
  s.execute c (fun s => if (s.core c).itr then (s, .error { vec := 0 }) else body s)

/-- EVENT.PEND of a core. -/
def Core.event (k : Core) : Bool := bit (k.srd 0x1C1) 0

/-- Does a wait end at once or later: an interrupt it may take, or a debug halt (R109)? -/
def State.disturbed (s : State) (c : Nat) : Bool := s.pendingInterrupt c || s.haltDue c

/-- WEV (R109): consumes EVENT.PEND, or waits. -/
def execWev (c : Nat) (s : State) : Answer :=
  .next (s.notItr c (fun s =>
    let k := s.core c
    if k.event ∨ s.disturbed c then (s.setCore c (k.swr 0x1C1 0), .ok .next)
    else (s.setCore c { k with wait := .wev }, .ok .hold)))

/-- WTU (R109): waits until the ETC reaches the deadline in rx, or an end condition. A deadline of g0 is 0. -/
def execWtu (c : Nat) (rx : RegNo) (s : State) : Answer :=
  .next (s.notItr c (fun s =>
    let k := s.core c
    let d := k.g rx.toNat
    if d ≤ s.clk.etc ∨ k.event ∨ s.disturbed c then (s.setCore c ((k.swr 0x1C1 0).setG rx.toNat s.clk.etc), .ok .next)
    else (s.setCore c { k with wait := .wtu rx.toNat d }, .ok .hold)))

/-- The cores of an SEV's scope (R109). -/
def sevScope (c : Nat) (scope : BitVec 2) : List Nat :=
  if scope = 0 then [c] else if scope = 1 then List.range' (6 * clusterOf c) 6 else List.range numCores

/-- CLRRES (R103). -/
def execClrres (c : Nat) (s : State) : Answer := .next (s.alu c (fun k => { k with resv := none, hold := none, overlaid := [] }))

/-- Does an end condition hold for a core's WEV or WTU (R109)? -/
def State.waitOver (s : State) (c : Nat) : Bool :=
  let k := s.core c
  match k.wait with
  | .wev => k.event || s.disturbed c
  | .wtu _ d => decide (d ≤ s.clk.etc) || k.event || s.disturbed c
  | .take _ => s.disturbed c
  | _ => false

/-- WAIT_END (R482, R109, R111): an event, a takeable interrupt or a debug halt ends a wait, leaving any sleep state. -/
def execWaitEnd (c : Nat) (s : State) : Answer := .next (if s.waitOver c ∧ !s.sparing c then s.endWait c else s)

/-- WTU_DEADLINE (R109): the ETC has reached a waiting WTU's deadline. -/
def execWtuDeadline (c : Nat) (s : State) : Answer :=
  .next (match (s.core c).wait with
    | .wtu _ d => if d ≤ s.clk.etc ∧ !s.sparing c then s.endWait c else s
    | _ => s)

/-- IDLE_ENTRY (R481): a core that has waited 32 cycles in WEV, WTU or TAKE sleeps as SLPCTL.DEPTH selects: NAP drains
the store buffer, DOZE also empties L1, TLB, predictors and the reservation. The trace source sees the sleep. -/
def execIdleEntry (c : Nat) (s : State) : Answer :=
  .next (
    let k := s.core c
    let waits := match k.wait with
      | .wev | .wtu _ _ | .take _ => true
      | _ => false
    if !waits || k.sleep != .run || !s.online c || s.sparing c || k.halted then s
    else
      let d := fld (k.srd 0x601) 1 0
      if d = 0 then s.setCore c { k with sleep := .idle }
      else
        let s := (s.drainBuf c).traceSleep c
        if d = 1 then s.modCore c (fun k => { k with sleep := .nap })
        else
          let s := (s.cleanL1d c true).emptyL1 c
          s.modCore c (fun k => 
            { k with sleep := .doze, iTlb := [], dTlb := [], tlb := [], walks := [], side := [], resv := none, hold := none, overlaid := [],
                     pred := Predictor.empty }))

/-! ## Dispatch -/

/-- DSPCUR of a core. -/
def Core.dspcur (k : Core) : W64 := k.srd 0x200

/-- The task that a core holds is completed (R111). -/
def State.finishTask (s : State) (c : Nat) : State :=
  let d := (s.core c).dspcur
  if bit d 63 then (s.completeTask (fld d 11 0)).modCore c (fun k => k.swr 0x200 0) else s

/-- A grant to a core's TAKE: rd and DSPCUR are written together (R111). -/
def State.giveTask (s : State) (c rd q : Nat) : Option State :=
  (s.grantFrom c q).map (fun g => g.1.modCore c (fun k => (k.setG rd g.2.1).swr 0x200 g.2.2))

/-- TAKE (R111): the held task is completed; with an empty mask rd is 0; an eligible entry that no longer-waiting core
is to have is granted; else the core waits. -/
def execTake (c : Nat) (rd : RegNo) (s : State) : Answer :=
  .next (s.notItr c (fun s =>
    let s := s.finishTask c
    if (s.core c).srd 0x600 = 0 then (s.modCore c (fun k => k.setG rd.toNat 0), .ok .next)
    else
      let s := s.noteRefusal c
      match (match s.selectQueue c with
        | some q => if s.earlierWaiter c q then none else s.giveTask c rd.toNat q
        | none => none) with
      | some s => (s, .ok .next)
      | none =>
        if s.disturbed c then (s.modCore c (fun k => k.setG rd.toNat 0), .ok .next)
        else ((s.startWaiting c).modCore c (fun k => { k with wait := .take rd.toNat }), .ok .hold)))

/-- A waiting TAKE is granted from a queue, leaving any sleep state (R111, R482); one whose core is being spared is resumed after it (R169). -/
def State.grantWaiting (s : State) (c q : Nat) : State :=
  match (if s.sparing c then .none else (s.core c).wait) with
  | .take rd =>
    let s := s.wakeCore c
    match s.giveTask c rd q with
    | none => s
    | some s1 =>
      let k := s1.core c
      ((s1.stopWaiting c).setCore c { k with wait := .none }).finish c k .next
  | _ => s

/-- TAKE_GRANT (R111, R162): the Pacer grants an eligible entry to a waiting TAKE. The grant is sent again for each
failed check of the delivered word, and is written once. -/
def execTakeGrant (c : Nat) (_checkFails : Nat) (s : State) : Answer :=
  .next (match (s.core c).wait with
    | .take _ =>
      let s := s.noteRefusal c
      match s.selectQueue c with
      | some q => if s.sparing c || s.earlierWaiter c q then s else s.grantWaiting c q
      | none => s
    | _ => s)

/-- YIELD (R111, R490): the held entry goes to the tail of its queue, and its energy so far is charged. -/
def execYield (c : Nat) (s : State) : Answer :=
  .next (s.notItr c (fun s =>
    let d := (s.core c).dspcur
    if bit d 63 then ((s.yieldTask (fld d 11 0)).modCore c (fun k => k.swr 0x200 0), .ok .next)
    else (s, .ok .next)))

/-- What the check code of the Pacer's state arrays finds (R496 UNIT 0x05). -/
def State.pacerCheck (s : State) : ArrayCheck → State
  | .ok => s
  | .corrected => s.record { bank := 45, unit := 0x05, code := 0x01, sev := .corrected }
  | .bad => s.record { bank := 45, unit := 0x05, code := 0x02, sev := .fatal }

/-- EPOCH (R491-R493): the epoch's end, then one oversize grant to each group. Nothing while CTL.EN = 0. -/
def execEpoch (ms : List GroupMeas) (soc : Nat) (chk : ArrayCheck) (s : State) : Answer :=
  let s := s.pacerCheck chk
  .next (
    if !s.rb Reg.PACER_CTL.at 0 then s
    else
      let s := s.epochEnd ms soc
      (List.range 4).foldl (fun s g => match s.oversizeGrant g with
        | some (c, q) => (s.grantWaiting c q).setRb (Reg.PACER_QSTAT.at q) 31 true
        | none => s) s)

/-- QPUSH (R488): a write of QPUSH_HI by a requester, with its held low word. -/
def execQpush (r : Requester) (q : Nat) (v : W32) (s : State) : Answer :=
  .next (if q < 64 then s.byReq r (Reg.PACER_QPUSH_HI.at q) (fun s => s.writeQpushHi r q v) else s)

end Sys2Proof.Machine
end

