-- ==== Sys2Proof/Machine/Gates.lean ====
section
/-! DEFINITION. Gates and returns (R112, R155-R157), BRK, and the events that enter a handler: exceptions (R145) and interrupts (R143, R424). -/
namespace Sys2Proof.Machine

/-! ## The gate table -/

/-- A gate table entry (R155), as its four doublewords. -/
structure GateEntry where
  d0 : W64
  d1 : W64
  d2 : W64
  d3 : W64
deriving DecidableEq, Repr

/-- LIM_k of an entry. -/
def GateEntry.lim (e : GateEntry) (k : Nat) : Nat := fld e.d2 (16 * k + 15) (16 * k)

/-- The kind of check of argument k. -/
def GateEntry.kind (e : GateEntry) (k : Nat) : Nat := fld e.d1 (9 + 2 * k) (8 + 2 * k)

/-- Why an entry is not valid for a caller's level (R156, R157): 2 its form, 3 its CALL bit. -/
def GateEntry.reason (e : GateEntry) (lvl : Nat) : Option Nat :=
  if !bit e.d1 0 ∨ fld e.d0 1 0 ≠ 0 ∨ fld e.d1 63 16 ≠ 0 ∨ fld e.d1 7 4 ≠ 0 ∨ e.d3 ≠ 0 then some 2
  else if (List.range 4).any (fun k => decide (e.kind k ≥ 2) && decide (e.lim k > 4096)) then some 2
  else if !bit e.d1 (1 + lvl) then some 3
  else none

/-- The read of entry n of the gate table of level t, under its translation (R155). -/
def State.readGate (s : State) (c t n : Nat) : State × Except Exc GateEntry :=
  let a := (s.core c).srd (xreg 0x481 t) + BitVec.ofNat 64 (n * 32)
  match s.read64 c t a with
  | (s, .error e) => (s, .error e)
  | (s, .ok d0) => match s.read64 c t (a + 8) with
    | (s, .error e) => (s, .error e)
    | (s, .ok d1) => match s.read64 c t (a + 16) with
      | (s, .error e) => (s, .error e)
      | (s, .ok d2) => match s.read64 c t (a + 24) with
        | (s, .error e) => (s, .error e)
        | (s, .ok d3) => (s, .ok { d0 := d0, d1 := d1, d2 := d2, d3 := d3 })

/-- Does a page of a buffer pass (R156): translated at the caller's level to a Normal region with the permission? -/
def State.bufferPage (s : State) (c lvl : Nat) (write : Bool) (a : W64) : State × Bool :=
  match s.translate c lvl (if write then .store else .load) a with
  | (s, .error _) => (s, false)
  | (s, .ok (_, ty)) => (s, !ty.device)

/-- The check of one argument (R156): none when it passes, else FAR (R157). For a range that wraps the lowest failing
byte is not stated: a free value (log entry 3). -/
def State.gateArg (s : State) (c lvl : Nat) (e : GateEntry) (k : Nat) : State × Option W64 :=
  let v := (s.core c).g (k + 1)
  let kd := e.kind k
  let n := e.lim k
  if kd = 0 then (s, none)
  else if kd = 1 then (s, if v.toNat ≤ n then none else some 0)
  else if n = 0 then (s, none)
  else if v.toNat + n ≥ 2 ^ 64 then (s.took, some (BitVec.ofNat 64 s.free))
  else
    match s.bufferPage c lvl (kd == 3) v with
    | (s, false) => (s, some v)
    | (s, true) =>
      let last := v.toNat + n - 1
      if last / 4096 = v.toNat / 4096 then (s, none)
      else
        let p := BitVec.ofNat 64 (last / 4096 * 4096)
        match s.bufferPage c lvl (kd == 3) p with
        | (s, false) => (s, some p)
        | (s, true) => (s, none)

/-- The checks of g1 to g4 in order (R156): the first failure, as its REASON and FAR. -/
def State.gateArgs (s : State) (c lvl : Nat) (e : GateEntry) : List Nat → State × Option (Nat × W64)
  | [] => (s, none)
  | k :: ks =>
    match s.gateArg c lvl e k with
    | (s, some far) => (s, some (4 + k, far))
    | (s, none) => State.gateArgs s c lvl e ks

/-- The emergency entry of a GATE (R152, R153, R157): INFO[5:0] is 0x00. -/
def State.gateEmergency (s : State) (c t ev kind : Nat) : State :=
  let k := s.core c
  let sp := k.spOf t
  let r : EntryReq := { vec := 0, epc := k.pc }
  match s.emergencyAt c t 0 (emergencyReq r ev 0 kind sp) with
  | (s, true) => s
  | (s, false) =>
    if t = 3 then s.checkStop c ev
    else State.entryAt 3 s c (t + 1) { r with vec := 0x14, info := ev, far := some sp }

/-- The Gate Fault of a GATE (R147, R157). -/
def gateFault (t n reason : Nat) (far : Option W64) : Exc := { vec := 0x10, info := n + t * 2 ^ 10 + reason * 2 ^ 12, far := far }

/-- A GATE or a return gives its core a new mode: the reservation goes (R103), fetch starts again (R123) in the context of the mode (R132). -/
def State.newMode (s : State) (c : Nat) (f : Core → Core) : State :=
  ((s.modCore c (fun k => { f k with resv := none, hold := none, overlaid := [] })).dropLineBuf c).newContext c

/-- The frame of a GATE and the new level, with MENTRY (R112, R438): both doublewords are checked before either is written. -/
def State.gateEnter (s : State) (c t : Nat) (e : GateEntry) : State × Except Exc Done :=
  let k := s.core c
  let sp := k.spOf t
  let frame := sp - 16
  if frame < k.srd (xreg 0x482 t) ∨ sp < frame then ((s.gateEmergency c t 0x3F 0).haltBoundary c, .ok .hold)
  else
    match s.checkFrame c t frame with
    | (s, .error _) => ((s.gateEmergency c t 0x3E 1).haltBoundary c, .ok .hold)
    | (s, .ok p1) =>
      match s.checkFrame c t (frame + 8) with
      | (s, .error _) => ((s.gateEmergency c t 0x3E 1).haltBoundary c, .ok .hold)
      | (s, .ok p2) =>
        let tag := k.tagAt c t
        let s := s.pushParts c tag t p1 (leBytes 8 (k.pc + 4).toNat)
        let s := s.pushParts c tag t p2 (leBytes 8 (fld k.stat 9 0))
        (s.newMode c (fun k =>
            let k := if t = 3 then { k with mEpc := k.pc + 4, mStat := fld k.stat 9 0 } else k
            { k.setSpOf t frame with stat := statWord t k.mlv k.fh k.fpe }),
         .ok (.ret (BitVec.ofNat 64 (fld e.d0 63 2 * 4))))

/-- GATE (R112, R155-R157): to M it holds while entries to M are held (R440). -/
def execGate (c : Nat) (t : BitVec 2) (n : BitVec 10) (s : State) : Answer :=
  .next (s.notItr c (fun s =>
    let lvl := (s.core c).lvl
    let T := t.toNat
    if T = 0 then (s, .error { vec := 0x01 })
    else if T ≤ lvl then (s, .error (gateFault T n.toNat 0 none))
    else if T = 3 ∧ s.mHeld c then (s, .ok .hold)
    else match s.readGate c T n.toNat with
      | (s, .error _) =>
        (s, .error (gateFault T n.toNat 1 (some ((s.core c).srd (xreg 0x481 T) + BitVec.ofNat 64 (n.toNat * 32)))))
      | (s, .ok e) =>
        match e.reason lvl with
        | some r => (s, .error (gateFault T n.toNat r none))
        | none =>
          match s.gateArgs c lvl e [0, 1, 2, 3] with
          | (s, some (r, far)) => (s, .error (gateFault T n.toNat r (some far)))
          | (s, none) => s.gateEnter c T e))

/-! ## Returns -/

/-- GRET and ERET (R112, R153): the frame at SP is read, checked and removed. strict: GRET, which must leave its level. -/
def State.returnFrame (s : State) (c : Nat) (strict : Bool) : State :=
  s.notItr c (fun s =>
    let k := s.core c
    let lvl := k.lvl
    if lvl = 0 then (s, .error { vec := 0x02 })
    else
      let sp := k.spOf lvl
      match s.read64 c lvl sp with
      | (s, .error e) => (s, .error e)
      | (s, .ok ret) =>
        match s.read64 c lvl (sp + 8) with
        | (s, .error e) => (s, .error e)
        | (s, .ok img) =>
          let l := fld img 1 0
          if (if strict then lvl ≤ l else lvl < l) ∨ fld ret 1 0 ≠ 0 then (s, .error { vec := 0x11 })
          else
            (s.newMode c (fun k =>
              let k := k.setSpOf lvl (sp + 16)
              let k := if l ≠ lvl then k.setEmg lvl false else k
              k.restoreStat img), .ok (.ret ret)))

/-- GRET (R112). -/
def execGret (c : Nat) (s : State) : Answer := .next (s.returnFrame c true)

/-- ERET (R112). -/
def execEret (c : Nat) (s : State) : Answer := .next (s.returnFrame c false)

/-- BRK (R147): Breakpoint with imm10 in INFO. -/
def execBrk (c : Nat) (imm : BitVec 10) (s : State) : Answer :=
  .next (s.execute c (fun s => (s, .error { vec := 0x12, info := imm.toNat })))

/-! ## Entries -/

/-- A vector whose entry writes FAR (R147). -/
def vecWritesFar (vec : Nat) : Bool := [0x04, 0x05, 0x06, 0x07, 0x08, 0x09, 0x0A, 0x0B, 0x0D, 0x0E, 0x0F].contains vec

/-- A vector that an instruction fetch raises (R150). -/
def vecFetch (vec : Nat) (fetch : Bool) : Bool := [0x05, 0x07, 0x0A, 0x0D].contains vec || (vec == 0x09 && fetch)

/-- The record of a fetch that consumed poison (R229), at the address that PC translates to. -/
def State.fetchPoison (s : State) (c : Nat) : State :=
  let k := s.core c
  match s.translate c k.lvl .fetch k.pc with
  | (s, .ok (pa, _)) => s.recordPoison c (k.tag c) true pa
  | (s, .error _) => s

/-- EXCEPTION_ENTRY (R145, R150): the instruction at PC raises a synchronous exception. INFO, FAR and FIPA_H are written
only as R147 gives for the vector; a fetch exception comes before a breakpoint, the others after. -/
def execExceptionEntry (c vec info : Nat) (far : Option W64) (fipa : Option Nat) (wnr fetch : Bool) (s : State) : Answer :=
  .next (
    let k := s.core c
    if vec = 0 ∨ vec = 0x0C ∨ 0x12 < vec ∨ (vec = 0x09 ∧ 2 ≤ k.lvl) then s
    else
      let e : Exc :=
        { vec := vec, info := if vec = 0x10 ∨ vec = 0x12 then info else 0,
          far := if vecWritesFar vec then some (far.getD k.pc) else if vec = 0x10 then far else none,
          fipa := if vec = 0x09 then some (fipa.getD 0) else none, wnr := wnr, fetch := fetch }
      if vecFetch vec fetch then
        if !s.runs c then s
        else match s.due c with
          | some d => s.takeEvent c d
          | none => ((if vec = 0x0D then s.fetchPoison c else s).raise c e).haltBoundary c
      else s.execute c (fun s => (s, .error e)))

/-- INTERRUPT_ENTRY (R143, R149, R424): at a boundary, a debug halt first, then a report, then the best interrupt. -/
def execInterruptEntry (c : Nat) (s : State) : Answer := .next (s.boundary c)

end Sys2Proof.Machine
end

