-- ==== Sys2Proof/Machine/Regs.lean ====
section
/-! DEFINITION. The rows of register access (R10-R21, R28), of error records (R62, R564), of partition fences (R52, R54), of the Fatal
sequence (R58), and the core and trace rows that are register writes. -/
namespace Sys2Proof.Machine

/-! ## Access -/

/-- What a requester's access is answered: the value read, or nothing for an error response (log entry 6). -/
def State.answer (s : State) (t : AccessTag) (a : Nat) (v : Option W32) : State :=
  s.emit .answer (t.cls * 256 + t.src) (a :: match v with
    | some x => [x.toNat]
    | none => [])

/-- A core that stands at a boundary takes a halt request (R448, R169). -/
def State.heldHalt (s : State) (c : Nat) : State := if s.haltDue c then s.boundary c else s

/-- What a register write of a row of its own leaves to do at once: a halt request is taken at a boundary. -/
def State.settleHalt (s : State) (a : Nat) : State :=
  if Reg.DEBUG_CORECTL.holds a then s.heldHalt ((a - 0x18010000) / 0x100) else s

/-- A register access of the wrong size or alignment (R10): no register changes. -/
def State.badSize (s : State) (r : Requester) (a : Nat) : State :=
  s.byReq r a (fun s => (s.sizeError (s.tagOf r) a).answer (s.tagOf r) a none)

/-- An access to an address that no block holds (R28). -/
def State.noBlock (s : State) (t : AccessTag) (a : Nat) (write : Bool) : State :=
  match s.admits t write a with
  | (s', some .unmapped) => s'.answer t a none
  | _ => s

/-- REGISTER_WRITE (R12). An access of PF0 is unmapped and has an error response (R28, R36). hw: the hardware update of the command before falls into the
same cycle (R16). -/
def execRegisterWrite (r : Requester) (addr : Nat) (v : W32) (hw : Bool) (s : State) : Answer :=
  .next (
    if (blockOf addr).isNone then s.noBlock (s.tagOf r) addr true
    else if r = .pf0 then (s.mmioWrite r addr v).answer (s.tagOf r) addr none
    else if addr % 4 ≠ 0 then s.badSize r addr
    else (s.mmioWrite r addr (if hw then s.collided addr v else v)).settleHalt addr)

/-- REGISTER_SIZE_ERROR (R10). -/
def execRegisterSizeError (r : Requester) (addr : Nat) (write : Bool) (size : Nat) (s : State) : Answer :=
  .next (
    if (blockOf addr).isNone then s.noBlock (s.tagOf r) addr write
    else if size = 4 ∧ addr % 4 = 0 then s else s.badSize r addr)

/-- UNMAPPED_ACCESS (R28). -/
def execUnmappedAccess (t : AccessTag) (addr : Nat) (write : Bool) (s : State) : Answer := .next (s.noBlock t addr write)

/-- A read of a register with its answer: an error response for PF0 (R28, R36). -/
def State.readReg (s : State) (r : Requester) (a : Nat) : State :=
  let (s', v) := s.mmioRead r a
  s'.answer (s.tagOf r) a (if r = .pf0 then none else some v)

/-- NAME_LO_READ (R19). -/
def execNameLoRead (r : Requester) (addr : Nat) (s : State) : Answer :=
  .next (if pairPartAt addr = .lo then s.readReg r addr else s)
/-- NAME_HI_READ (R19). -/
def execNameHiRead (r : Requester) (addr : Nat) (s : State) : Answer :=
  .next (if pairPartAt addr = .hi then s.readReg r addr else s)
/-- NAME_LO_WRITE (R21). -/
def execNameLoWrite (r : Requester) (addr : Nat) (v : W32) (s : State) : Answer :=
  .next (if pairPartAt addr = .lo then s.mmioWrite r addr v else s)
/-- NAME_HI_WRITE (R21). -/
def execNameHiWrite (r : Requester) (addr : Nat) (v : W32) (s : State) : Answer :=
  .next (if pairPartAt addr = .hi then s.mmioWrite r addr v else s)

/-! ## Error records and fences -/

/-- RECORD_SLOT_FREE (R62). -/
def execRecordSlotFree (r : Requester) (bank slot : Nat) (s : State) : Answer :=
  .next (if bank < 48 ∧ slot < 16 then s.mmioWrite r (Reg.ERRREC_REC_STATUS.at bank slot) 1 else s)

/-- BANK_CTL_WRITE (R564). -/
def execBankCtlWrite (r : Requester) (bank : Nat) (v : W32) (s : State) : Answer :=
  .next (if bank < 48 then s.mmioWrite r (Reg.ERRREC_BANK_CTL.at bank) v else s)

/-- A write of both words of PFENCE that gives one partition's bit a value and keeps the others. -/
def State.writePfence (s : State) (r : Requester) (pid : Nat) (b : Bool) : State :=
  let lo := s.reg Reg.ERRREC_PFENCE_LO.at
  let hi := s.reg Reg.ERRREC_PFENCE_HI.at
  let lo' := if pid < 32 then setFld lo pid pid (b2n b) else lo
  let hi' := if pid < 32 then hi else setFld hi (pid - 32) (pid - 32) (b2n b)
  (s.mmioWrite r Reg.ERRREC_PFENCE_LO.at lo').mmioWrite r Reg.ERRREC_PFENCE_HI.at hi'

/-- PARTITION_FENCE (R54). -/
def execPartitionFence (r : Requester) (pid : Nat) (s : State) : Answer := .next (if pid < 64 then s.writePfence r pid true else s)
/-- PARTITION_FENCE_RELEASE (R52). -/
def execPartitionFenceRelease (r : Requester) (pid : Nat) (s : State) : Answer :=
  .next (if pid < 64 then s.writePfence r pid false else s)

/-! ## The Fatal sequence -/

/-- A smart-driver port with SAFE sends it to each enabled chip select (R334). -/
def State.sendSafe (s : State) (p : Nat) : State :=
  if isSd p ∧ s.rb (Reg.ADPT_ACTL.at p) 1 then
    (List.range 4).foldl (fun s c =>
      if bit (s.reg (Reg.ADPT_SDCFG.at (p - 0x3C))) (20 + c) then s.sdCommandTo p c 5 0 [] none else s) s
  else s

/-- The record of a Fatal error that a unit's own check found (R291, R432, R526). -/
def fatalFindRecord : FatalFind → ErrRec
  | .cssLogic => { bank := 34, unit := 0x02, code := 0x05, sev := .fatal }
  | .intdLogic => { bank := 44, unit := 0x02, code := 0x05, sev := .fatal }
  | .queueParity => { bank := 47, unit := 0x04, code := 0x03, sev := .fatal }

/-- FATAL_SEQUENCE (R58, R334): ERROUT_N falls, the CSS stops, every adapter takes its safe output state. found: the check that begins it, where no other
command has recorded the error. -/
def execFatalSequence (found : Option FatalFind) (s : State) : Answer :=
  let s := match found with
    | some f => s.record (fatalFindRecord f)
    | none => s
  .next (
    if !s.fatalDue then s
    else
      let s := { s with fatalDue := false, errOut := true }.emit .pin 0 [0]
      let s := (s.setRb Reg.CSS_STAT.at 1 true).refreshRun
      (List.range 0x4C).foldl (fun s p => (s.sendSafe p).emit .safe p []) s)

/-! ## Other rows -/

/-- BLKGATE_WRITE (R435, R495). -/
def execBlkgateWrite (r : Requester) (b : Nat) (v : W32) (s : State) : Answer :=
  .next (if b < 20 then s.mmioWrite r (Reg.PACER_BLKGATE.at b) v else s)

/-- SPAREREQ_GO (R166). -/
def execSparereqGo (r : Requester) (n idx : Nat) (s : State) : Answer :=
  .next (if n < 8 then s.mmioWrite r (Reg.CLUSTER_SPAREREQ.at n) (BitVec.ofNat 32 (2 ^ 31 + idx % 8)) else s)

/-- SWMSG (R504). -/
def execSwmsg (r : Requester) (ch : Nat) (v : W32) (s : State) : Answer :=
  .next (if ch < 16 then s.mmioWrite r (Reg.TRACE_SWMSG.at ch) v else s)

/-- TRACE_SOURCE_ENABLE (R503). -/
def execTraceSourceEnable (r : Requester) (n : Nat) (v : W32) (s : State) : Answer :=
  .next (if n < 98 then s.mmioWrite r (Reg.TRACE_SRCCFG.at n) v else s)

/-- FROZEN_CLEAR (R508). -/
def execFrozenClear (r : Requester) (k : Nat) (s : State) : Answer :=
  .next (if k < 5 then s.mmioWrite r (Reg.TRACE_SINKSTAT.at k) ((s.reg (Reg.TRACE_SINKSTAT.at k) &&& 0xFFFF0000) ||| 2) else s)

/-- SPARING (R167): a halt request that was held meanwhile is taken at the first boundary of the reserve core (R169). -/
def execSparing (c : Nat) (bistOk xferOk xfer2Ok : Bool) (lost : Nat) (s : State) : Answer :=
  .next (if c < numCores then (s.spareCore State.mmioWrite c bistOk xferOk xfer2Ok lost).heldHalt c else s)

/-- CORE_LOSS (R172). -/
def execCoreLoss (c lost : Nat) (s : State) : Answer := .next (if c < numCores then s.serveLoss State.mmioWrite c lost else s)

/-- GATE_BROADCAST_WRITE (R248). -/
def execGateBroadcastWrite (r : Requester) (addr : Nat) (v : W32) (s : State) : Answer :=
  .next (if addr ∈ gateTargets addr then s else s.mmioWrite r addr v)

/-- TAMPER_EVENT (R253, R350): while armed, Cask is wiped and Kiln's slots are cleared, with their sealed records. In PARK Cask only loses
its contents, and the power-up wipe runs on wake. -/
def execTamperEvent (cause : Nat) (s : State) : Answer :=
  .next (
    if cause < 1 ∨ 3 < cause ∨ !s.tamperArmed then s
    else match s.clk.power with
      | .off => s
      | .park => { s with mem := s.mem.clearRange 0x1000000 0x1200000, boot := { s.boot with caskLost := true } }
      | _ => ((s.wipeCask cause true).clearKeysRecorded).loseKilnSteps)

end Sys2Proof.Machine
end

