-- ==== Sys2Proof/Machine/BootSet.lean ====
section
/-! DEFINITION. Boot sets (chapter Boot, Keys and Field Update): the manifest (R459, R460), its checks in R461's order, the loading of blocks
(R462), and the sealed-world restart (R437-R442). -/
namespace Sys2Proof.Machine

/-- A little-endian number of n bytes at an offset. -/
def leAt (b : List Byte) (o n : Nat) : Nat := leNat ((b.drop o).take n)

/-- n bytes at an offset. -/
def bytesAt (b : List Byte) (o n : Nat) : List Byte := (b.drop o).take n

/-! ## The manifest -/

/-- A component entry (R459). -/
structure Comp where
  ty : Nat
  off : Nat
  len : Nat
  first : Nat
  count : Nat
  load : Nat
  entry : Nat
deriving DecidableEq, Repr

/-- Component entry i of a manifest: 0 SWI, 1 OWI, 2 CFG. -/
def compAt (b : List Byte) (i : Nat) : Comp :=
  let o := 0x10 + 32 * i
  { ty := leAt b o 1, off := leAt b (o + 4) 4, len := leAt b (o + 8) 4, first := leAt b (o + 12) 2, count := leAt b (o + 14) 2,
    load := leAt b (o + 16) 8, entry := leAt b (o + 24) 8 }

/-- SECENTRY. -/
def manSec (b : List Byte) : Nat := leAt b 0x70 8
/-- STACKTOP of a core. -/
def manStack (b : List Byte) (c : Nat) : Nat := leAt b (0x78 + 16 * c) 8
/-- CENTRY of a core. -/
def manCentry (b : List Byte) (c : Nat) : Nat := leAt b (0x80 + 16 * c) 8
/-- FLAGS.COMPAT. -/
def manCompat (b : List Byte) : Bool := leAt b 6 2 % 2 == 1
/-- SVN. -/
def manSvn (b : List Byte) : Nat := leAt b 8 1
/-- KEYSLOT. -/
def manKey (b : List Byte) : Nat := leAt b 9 1
/-- The length of a manifest. -/
def manLength : Nat := 30925

/-- Are all bytes zero? -/
def allZero (bs : List Byte) : Bool := bs.all (fun x => x == 0)

/-- Does the block list use entry i? -/
def manUses (b : List Byte) (i : Nat) : Bool :=
  (List.range 3).any (fun k => let c := compAt b k; decide (c.first ≤ i) && decide (i < c.first + c.count))

/-- FORMAT (R461): MAGIC, VERSION, the zero fields, TYPE and the core table (R472). ENTRY of the SWI is aligned and in its range. -/
def manFormat (b : List Byte) : Bool :=
  let swi := compAt b 0
  b.length == manLength && bytesAt b 0 4 == [0x47, 0x4E, 0x42, 0x53] && leAt b 4 2 == 1 && decide (leAt b 6 2 < 2) &&
  decide (manSvn b < 64) && allZero (bytesAt b 0xA 6) && allZero (bytesAt b 0x378 8) &&
  (List.range 3).all (fun i => (compAt b i).ty == i + 1 && allZero (bytesAt b (0x11 + 32 * i) 3)) &&
  (compAt b 1).entry == 0 && (compAt b 2).entry == 0 && swi.entry % 4 == 0 &&
  (swi.len == 0 || (decide (swi.load ≤ swi.entry) && decide (swi.entry < swi.load + swi.len))) &&
  (List.range 512).all (fun i => manUses b i || allZero (bytesAt b (0xB80 + 48 * i) 48)) &&
  (manCompat b || (List.range numCores).all (fun c => manCentry b c == 0))

/-- Do two ranges meet? -/
def rangesMeet (a n b m : Nat) : Bool := n != 0 && m != 0 && decide (a < b + m) && decide (b < a + n)

/-- LAYOUT (R460) with the size of the slot, where the set lies in one; BLKCOUNT fits LENGTH (R459). -/
def manLayout (b : List Byte) (slotSize : Option Nat) : Bool :=
  let c := compAt b
  let inside (x : Comp) (lo hi : Nat) : Bool := x.len == 0 || (decide (lo ≤ x.load) && decide (x.load + x.len ≤ hi))
  let meet (i j : Nat) : Bool :=
    rangesMeet (c i).load (c i).len (c j).load (c j).len || rangesMeet (c i).off (c i).len (c j).off (c j).len ||
    rangesMeet (c i).first (c i).count (c j).first (c j).count
  inside (c 0) 0x1000000 0x1180000 && inside (c 1) 0x2000000 0x2F00000 && inside (c 2) 0x2000000 0x2F00000 &&
  !meet 0 1 && !meet 0 2 && !meet 1 2 &&
  (List.range 3).all (fun i => (match slotSize with | some n => decide ((c i).off + (c i).len ≤ n) | none => true) &&
    decide ((c i).first + (c i).count ≤ 512) && (c i).count == ((c i).len + 65535) / 65536) &&
  (c 0).len != 0 && (c 2).len != 0

/-- The bytes that the signatures cover. -/
def manSigned (b : List Byte) : List Byte := bytesAt b 0 0x6B80

/-- KEYHASH passes (R461, R453): a programmed slot with the hash of both keys; in BLANK the provisioning hash. -/
def State.manKeyOk (s : State) (b : List Byte) : Bool :=
  let h := Config.digest 1 [] (bytesAt b 0x380 2048)
  if s.lifeCycle = 0 then h == Config.provisionHash
  else decide (manKey b < 4) && s.rb Reg.BOOT_KEYSTAT.at (manKey b) && h == Config.rootKeyHash (manKey b)

/-- Do both signatures hold (R461)? -/
def manSigOk (b : List Byte) : Bool :=
  Config.verify 1 (manSigned b) (bytesAt b 0x380 96 ++ bytesAt b 0x6B80 96) &&
  Config.verify 2 (manSigned b) (bytesAt b 0x3E0 1952 ++ bytesAt b 0x6BE0 3309)

/-- The first check of a manifest that fails, in R461's order, as its reason. -/
def State.manReason (s : State) (b : List Byte) (slotSize : Option Nat) : Option Nat :=
  if !manFormat b then some 0x02
  else if !manLayout b slotSize then some 0x09
  else if !s.manKeyOk b then some 0x03
  else if s.lifeCycle ≠ 0 ∧ s.rb Reg.BOOT_KEYSTAT.at (4 + manKey b) then some 0x04
  else if !manSigOk b then some 0x05
  else if s.lifeCycle ≠ 0 ∧ manSvn b < s.rf Reg.BOOT_FSVN.at 5 0 then some 0x06
  else none

/-! ## Loading -/

/-- The tag of the boot ROM sequencer (R452). -/
def romTag : AccessTag := { world := true, pid := 0, cls := 7, src := 0 }

/-- A block of a set: its list entry, load address and length. -/
structure SetBlock where
  idx : Nat
  addr : Nat
  len : Nat
deriving DecidableEq, Repr

/-- The blocks of a component (R459). -/
def Comp.blocks (c : Comp) : List SetBlock :=
  (List.range c.count).map (fun k => { idx := c.first + k, addr := c.load + k * 65536, len := min 65536 (c.len - k * 65536) })

/-- Blocks in block-list order (R462). -/
def sortBlocks (l : List SetBlock) : List SetBlock := (List.range 512).filterMap (fun i => l.find? (fun b => b.idx == i))

/-- The blocks of a set, or of its SWI alone (R464). -/
def manBlocks (b : List Byte) (swiOnly : Bool) : List SetBlock :=
  if swiOnly then (compAt b 0).blocks else sortBlocks ((compAt b 0).blocks ++ (compAt b 1).blocks ++ (compAt b 2).blocks)

/-- The digest of a block that its list entry gives. -/
def manDigest (b : List Byte) (i : Nat) : List Byte := bytesAt b (0xB80 + 48 * i) 48

/-- Zero over every address loaded (R462). -/
def State.zeroBlocks (s : State) (l : List SetBlock) : State :=
  l.foldl (fun s x => (State.fabricWriteLong (pieces x.len) s romTag x.addr (List.replicate x.len 0)).1) s

/-- One block is written to its load address and compared (R462); the reason of the failure, if any. -/
def State.loadBlock (s : State) (man : List Byte) (x : SetBlock) (data : Option (List Byte)) : State × Option Nat :=
  match data with
  | none => (s, some 0x08)
  | some bs =>
    if bs.length ≠ x.len then (s, some 0x08)
    else match State.fabricWriteLong (pieces x.len) s romTag x.addr bs with
      | (s, some _) => (s, some 0x08)
      | (s, none) => (s, if Config.digest 1 [] bs = manDigest man x.idx then none else some 0x07)

/-- The blocks of a set are loaded in order (R462); at a failure everything loaded is zeroed. -/
def State.loadBlocks (man : List Byte) (set : BootSet) : List SetBlock → State → List SetBlock → State × Option Nat
  | [], s, _ => (s, none)
  | x :: rest, s, done =>
    match s.loadBlock man x (set.blocks.getD x.idx none) with
    | (s, none) => State.loadBlocks man set rest s (done ++ [x])
    | (s, some r) => (s.zeroBlocks (done ++ [x]), some r)

/-- A candidate set is verified and loaded (R461, R462): its manifest, or the reason of the failure. -/
def State.verifySet (s : State) (set : BootSet) (slotSize : Option Nat) (swiOnly : Bool) : State × Except Nat (List Byte) :=
  match set.manifest with
  | none => (s, .error 0x08)
  | some b =>
    match s.manReason b slotSize with
    | some r => (s, .error r)
    | none =>
      match State.loadBlocks b set (manBlocks b swiOnly) s [] with
      | (s, some r) => (s, .error r)
      | (s, none) => (s, .ok b)

/-- What the ROM keeps of a set that it boots. -/
def bootedOf (b : List Byte) (src slot : Nat) : Booted :=
  { src := src, slot := slot, entry := (compAt b 0).entry, sec := manSec b, stack := (List.range numCores).map (manStack b),
    centry := (List.range numCores).map (manCentry b), compat := manCompat b, svn := manSvn b, sev := false }

/-- SMEAS as 48 bytes. -/
def State.smeas (s : State) : List Byte := s.regBytes Reg.SYSCTL_SMEAS.at 12

/-- SMEAS takes a new value. -/
def State.setSmeas (s : State) (bs : List Byte) : State :=
  (List.range 12).foldl (fun s i => s.setReg (Reg.SYSCTL_SMEAS.at i) (BitVec.ofNat 32 (leAt bs (4 * i) 4))) s

/-! ## Release by SEV -/

/-- The first system-scope SEV after handover starts every core whose CENTRY asks for it, in compatibility mode (R472). -/
def State.sevStarts (s : State) : State :=
  match s.boot.booted with
  | some b =>
    if !b.compat ∨ b.sev then s
    else
      let s := { s with boot := { s.boot with booted := some { b with sev := true } } }
      (List.range' 1 47).foldl (fun s c => if b.centry.getD c 0 % 4 = 2 ∧ s.releasable c then s.startCore c else s) s
  | none => s

/-- SEV (R109): every online core of the scope; scope 3 is undefined. System scope also releases cores under R472. -/
def execSev (c : Nat) (scope : BitVec 2) (s : State) : Answer :=
  .next (s.notItr c (fun s =>
    if scope = 3 then (s, .error { vec := 0x01 })
    else
      let s := (sevScope c scope).foldl (fun s i =>
        if i = c ∨ s.online i then s.modCore i (fun k => k.swr 0x1C1 (k.srd 0x1C1 ||| 1)) else s) s
      (if scope = 2 then s.sevStarts else s, .ok .next)))

/-! ## Sealed-world restart -/

/-- Step 1 of R439 for a core: at level M it is abandoned and any halt and HALT request of it end (R442); every released core owes a
restart entry, an offline one too. -/
def State.abandon (s : State) (c : Nat) : State :=
  let k := s.core c
  if !k.released then s
  else if k.lvl = 3 then
    let s := if k.halted then (s.unhalt c) else s
    (s.modCore c (fun k => { k.settle with wait := .none, restart := some true })).setRb (Reg.DEBUG_CORECTL.at c) 30 false
  else s.modCore c (fun k => { k with restart := some false })

/-- Step 2 of R439: stores drained, M stack entries completed, keys cleared, regime-M translations and level-M predictions gone, the
debug grants cleared. -/
def State.restartClean (s : State) : State :=
  let s := (List.range numCores).foldl (fun s c =>
    let s := ((s.abandonStores State.mmioWrite c).strictDone c).dropSealedEntries c
    let open_ := fun (e : TlbEntry) => e.regime != .m
    s.modCore c (fun k =>
      { k with iTlb := k.iTlb.filter open_, dTlb := k.dTlb.filter open_, tlb := k.tlb.filter open_,
               walks := k.walks.filter (fun e => e.regime != .m), pred := k.pred.dropSealed })) s
  ((s.clearKeys).setRf Reg.DEBUG_AUTH.at 9 8 0).refreshAuth

/-- Steps 3 to 5 of R439, or its failure (R442). The set must be of the slot of an xSPI source that was booted (R464). -/
def State.restartLoad (s : State) (set : BootSet) : State :=
  let st := Reg.SYSCTL_SRSTAT.at
  let fail (s : State) (src slot reason : Nat) : State :=
    let s := (s.setRb st 31 false).setRb st 30 true
    let s := (List.range numCores).foldl (fun s c => s.modCore c (fun k => if k.restart = some false then { k with restart := none } else k)) s
    s.record { bank := 47, unit := 0x20, code := 0x07, sev := .fatal, misc0 := src + slot * 16 + reason * 2 ^ 8 }
  match s.boot.booted with
  | none => fail s 0 0 0x08
  | some b =>
    if 2 ≤ b.src then fail s b.src b.slot 0x08
    else match s.verifySet set none true with
      | (s, .error r) => fail s b.src b.slot r
      | (s, .ok man) =>
        let swi := compAt man 0
        let d := Config.digest 1 [] (s.bytes swi.load swi.len)
        let s := s.setSmeas (Config.digest 1 [] (s.smeas ++ d))
        let s := s.setRf st 23 16 (satAdd 8 (s.rf st 23 16) 1)
        let s := s.setRf Reg.KILN_LDR_STAT.at 21 16 (manSvn man)
        let s := { s with boot := { s.boot with booted := some { bootedOf man b.src b.slot with sev := b.sev } } }
        s.setRb st 31 false

/-- SEALED_RESTART (R437-R442): the request by a write of SRCTL, then the restart in one step (log entry 8). -/
def execSealedRestart (r : Option Requester) (set : BootSet) (s : State) : Answer :=
  .next (
    let s := match r with
      | some r => s.mmioWrite r Reg.SYSCTL_SRCTL.at (setFld (s.reg Reg.SYSCTL_SRCTL.at) 0 0 1)
      | none => s
    if !s.rb Reg.SYSCTL_SRSTAT.at 31 then s
    else (((List.range numCores).foldl (fun s c => s.abandon c) s).restartClean).restartLoad set)

end Sys2Proof.Machine
end

