-- ==== Sys2Proof/Machine/CfgImage.lean ====
section
/-! DEFINITION. The Ilmaro configuration image (R527-R537): its layout, the checks of pass 1 in R532's order, and the writes of
pass 2. -/
namespace Sys2Proof.Machine

/-! ## Layout -/

/-- An entry of the section table (R528). zero: its zero fields are zero. -/
structure Sect where
  pos : Nat
  ty : Nat
  count : Nat
  off : Nat
  size : Nat
  crc : Nat
  zero : Bool
deriving DecidableEq, Repr

/-- A REG record (R530), with its section's TYPE. zero: the other bits of FLAGS are zero. -/
structure RegRec where
  sect : Nat
  idx : Nat
  ty : Nat
  addr : Nat
  value : W32
  mask : W32
  last : Bool
  zero : Bool
deriving DecidableEq, Repr

/-- A DECL record (R530), as its two words. -/
structure DeclRec where
  sect : Nat
  idx : Nat
  lo : Nat
  hi : Nat
deriving DecidableEq, Repr

/-- An OBJ record (R530). -/
structure ObjRec where
  sect : Nat
  idx : Nat
  num : Nat
  kind : Nat
  flags : Nat
  zero : Nat
  image : List Byte
deriving DecidableEq, Repr

/-- Why an image fails: RESULT, the section and the record (R532, R536). -/
structure CfgFail where
  code : Nat
  sect : Nat
  idx : Nat
deriving DecidableEq, Repr

/-- No section, no record. -/
def CfgFail.plain (code : Nat) : CfgFail := { code := code, sect := 0xFFFF, idx := 0xFFFFFFFF }

/-- Is the image of format version 4? -/
def imgV4 (b : List Byte) : Bool := leAt b 4 2 == 4
/-- LENGTH of the image. -/
def imgLength (b : List Byte) : Nat := leAt b 8 4
/-- The size of a section-table entry. -/
def imgEntry (b : List Byte) : Nat := if imgV4 b then 16 else 8

/-- The size of a section's records (R530). -/
def recSize (v4 : Bool) (ty : Nat) : Nat := if ty = 2 then 8 else if ty = 10 then 72 else if v4 then 16 else 12

/-- The section table (R528). -/
def imgSects (b : List Byte) : List Sect :=
  (List.range (leAt b 0xC 2)).map (fun i =>
    let o := 0x40 + i * imgEntry b
    let ty := leAt b o 1
    { pos := i, ty := ty, count := leAt b (o + 2) 2, off := leAt b (o + 4) 4,
      size := if imgV4 b then leAt b (o + 8) 2 else recSize false ty, crc := leAt b (o + 12) 4,
      zero := leAt b (o + 1) 1 == 0 && (!imgV4 b || leAt b (o + 10) 2 == 0) })

/-- The REG records of a section. -/
def sectRegs (b : List Byte) (x : Sect) : List RegRec :=
  if x.ty = 2 ∨ x.ty = 10 then []
  else (List.range x.count).map (fun k =>
    let o := x.off + k * x.size
    let f := if imgV4 b then leAt b (o + 12) 4 else 0
    { sect := x.pos, idx := k, ty := x.ty, addr := leAt b o 4, value := BitVec.ofNat 32 (leAt b (o + 4) 4),
      mask := BitVec.ofNat 32 (leAt b (o + 8) 4), last := f % 2 == 1, zero := decide (f < 2) })

/-- The REG records of an image, in order. -/
def imgRegs (b : List Byte) : List RegRec := ((imgSects b).map (sectRegs b)).flatten

/-- The DECL records of an image, in order. -/
def imgDecls (b : List Byte) : List DeclRec :=
  (((imgSects b).filter (fun x => x.ty == 2)).map (fun x => (List.range x.count).map (fun k =>
    ({ sect := x.pos, idx := k, lo := leAt b (x.off + k * 8) 4, hi := leAt b (x.off + k * 8 + 4) 4 } : DeclRec)))).flatten

/-- The OBJ records of an image, in order. -/
def imgObjs (b : List Byte) : List ObjRec :=
  (((imgSects b).filter (fun x => x.ty == 10)).map (fun x => (List.range x.count).map (fun k =>
    let o := x.off + k * 72
    ({ sect := x.pos, idx := k, num := leAt b o 2, kind := leAt b (o + 2) 1, flags := leAt b (o + 3) 1, zero := leAt b (o + 4) 4,
       image := bytesAt b (o + 8) 64 } : ObjRec)))).flatten

/-- The failure of a record. -/
def RegRec.fail (r : RegRec) (code : Nat) : CfgFail := { code := code, sect := r.sect, idx := r.idx }
/-- The failure of a record. -/
def DeclRec.fail (r : DeclRec) (code : Nat) : CfgFail := { code := code, sect := r.sect, idx := r.idx }
/-- The failure of a record. -/
def ObjRec.fail (r : ObjRec) (code : Nat) : CfgFail := { code := code, sect := r.sect, idx := r.idx }

/-! ## The reach of each section type (R529) -/

/-- SYSTEM. -/
def reachSystem (a : Nat) : Bool :=
  [Reg.MEMC_QTIER, Reg.MEMC_DTIER, Reg.MEMC_QDR_CTL, Reg.MEMC_DDR_CTL, Reg.MEMC_TUN_CTL, Reg.MEMC_CASK_CTL, Reg.MEMC_QDR_TRAIN,
   Reg.MEMC_DDR_TRAIN, Reg.SYSCTL_CLBASE_LO, Reg.SYSCTL_CLBASE_HI, Reg.SYSCTL_CLSBASE, Reg.SYSCTL_OWNER, Reg.SYSCTL_SRCTL,
   Reg.SYSCTL_IOBW, Reg.ERRREC_ROUTE, Reg.ERRREC_FATALCTL, Reg.CSS_CTL, Reg.CSS_SCBASE_LO, Reg.CSS_SCBASE_HI, Reg.CSS_RCBASE_LO,
   Reg.CSS_RCBASE_HI, Reg.CSS_LBASE_LO, Reg.CSS_LBASE_HI, Reg.CSS_LCTL, Reg.CSS_RLOGBASE_LO, Reg.CSS_RLOGBASE_HI, Reg.CSS_RLOGCFG,
   Reg.AON_WAKECFG, Reg.AON_I2CWADDR].any (fun r => r.holds a)

/-- REGIONS. -/
def reachRegions (a : Nat) : Bool :=
  (decide (0x16000000 ≤ a ∧ a < 0x17000000 ∧ 0x8000 ≤ a % 0x10000 ∧ a % 0x10000 < 0x8400)) ||
  [Reg.SYSCTL_CELLOCK, Reg.SYSCTL_CELALLOC, Reg.HOSTEP_FBIND, Reg.HOSTEP_WIN_OFS, Reg.HOSTEP_WIN_LIM, Reg.HOSTEP_WIN_PA_LO,
   Reg.HOSTEP_WIN_PA_HI, Reg.HOSTEP_VWIN_LO, Reg.HOSTEP_VWIN_HI].any (fun r => r.holds a)

/-- RELAY. -/
def reachRelay (a : Nat) : Bool :=
  [Reg.RELAY_PORTCTL, Reg.RELAY_IMAP_OFS, Reg.RELAY_IMAP_LIM, Reg.RELAY_IMAP_PA_LO, Reg.RELAY_IMAP_PA_HI, Reg.RELAY_IMAP_ATTR,
   Reg.RELAY_IMAP_SEND, Reg.RELAY_HTOPO, Reg.RELAY_HROUTE, Reg.RELAY_PEERPATH, Reg.RELAY_IMGOFS, Reg.RELAY_IMGLEN].any
    (fun r => r.holds a)

/-- Does an address lie in an adapter's offsets from lo up to hi, for the paths below n? -/
def inAdpt (n lo hi a : Nat) : Bool :=
  decide (0x12000000 ≤ a ∧ a < 0x12000000 + n * 0x10000 ∧ lo ≤ a % 0x10000 ∧ a % 0x10000 < hi)

/-- May a record of a section type write the masked bits of an address? -/
def inReach (v4 : Bool) (ty a : Nat) (mask : W32) : Bool :=
  match ty with
  | 1 => reachSystem a && (!(Reg.MEMC_QDR_TRAIN.holds a || Reg.MEMC_DDR_TRAIN.holds a) || mask &&& 0xFFFFFFFC == 0)
  | 3 => reachRegions a
  | 4 => inAdpt 96 0 0x10 a
  | 5 => inAdpt 0x4C 0x100 0x2000 a ||
    (v4 && (inAdpt 0x4C 0x2000 0x2800 a || Reg.KILN_SECY_CTL.holds a || Reg.KILN_SECY_RX.holds a))
  | 6 => decide (0x10100000 ≤ a ∧ a < 0x10103000) && !(a == Reg.PACER_DEVSLEEP.at && bit mask 31)
  | 7 => reachRelay a
  | 8 => decide (0x1B000000 ≤ a ∧ a < 0x1B020000)
  | 9 => Reg.INTD_CTL.holds a || Reg.INTD_SCFG.holds a || Reg.INTD_PCFG.holds a
  | _ => false

/-! ## Pass 1 (R532) -/

/-- HEADER. -/
def checkHeader (b : List Byte) (compLen : Nat) : Option CfgFail :=
  let n := imgLength b
  let ok := bytesAt b 0 4 == [0x49, 0x4C, 0x4D, 0x52] && (leAt b 4 2 == 3 || leAt b 4 2 == 4) && decide (leAt b 6 2 < 8) &&
    decide (n ≤ 4 * 2 ^ 20) && decide (n ≤ compLen) && decide (1 ≤ leAt b 0xC 2) && decide (leAt b 0xC 2 ≤ 10) &&
    decide (0x40 + leAt b 0xC 2 * imgEntry b ≤ n) && leAt b 0xE 2 == 0 && leAt b 0x18 4 == 0x0A0811 && allZero (bytesAt b 0x1C 32)
  if ok then none else some (CfgFail.plain 1)

/-- CRC: the header's, then each section's in version 4. -/
def checkCrc (b : List Byte) : Option CfgFail :=
  if crc32c (bytesAt b 0 0x3C ++ bytesAt b 0x40 (imgLength b - 0x40)) ≠ leAt b 0x3C 4 then some (CfgFail.plain 2)
  else if !imgV4 b then none
  else (imgSects b).findSome? (fun x =>
    if crc32c (bytesAt b x.off (x.count * x.size)) = x.crc then none else some { CfgFail.plain 2 with sect := x.pos })

/-- ROLE. -/
def State.checkRole (s : State) (b : List Byte) : Option CfgFail :=
  let r := leAt b 6 2 % 4
  let manager := s.rb Reg.SYSCTL_ID.at 0
  if r = 3 ∨ (r = 1 ∧ manager) ∨ (r = 2 ∧ !manager) then some (CfgFail.plain 3) else none

/-- Is a section-table entry right beside those before it? -/
def sectOk (b : List Byte) (x : Sect) : Bool :=
  decide (1 ≤ x.ty) && decide (x.ty ≤ 10) && x.zero && x.size == recSize (imgV4 b) x.ty && decide (x.off % 8 = 0) &&
  decide (0x40 + leAt b 0xC 2 * imgEntry b ≤ x.off) && decide (x.off + x.count * x.size ≤ imgLength b) &&
  ((imgSects b).take x.pos).all (fun y => decide (y.ty < x.ty) && !rangesMeet y.off (y.count * y.size) x.off (x.count * x.size))

/-- Every _LO record is followed by its _HI. -/
def loneLo : List RegRec → Option CfgFail
  | [] => none
  | r :: t =>
    if pairPartAt r.addr = .lo ∧ !(match t with | h :: _ => h.sect == r.sect && h.addr == r.addr + 4 | [] => false) then some (r.fail 4)
    else loneLo t

/-- SECTION. -/
def checkSection (b : List Byte) : Option CfgFail :=
  match (imgSects b).find? (fun x => !sectOk b x) with
  | some x => some { CfgFail.plain 4 with sect := x.pos }
  | none => if ((imgSects b).getD 0 { pos := 0, ty := 0, count := 0, off := 0, size := 0, crc := 0, zero := false }).ty ≠ 1 then some (CfgFail.plain 4) else loneLo (imgRegs b)

/-- The bits that a register's fields hold. -/
def fieldMask (a : Nat) : W32 :=
  match regAt a with
  | none => 0
  | some r => r.fields.foldl (fun m f => m ||| maskOf 32 f.hi f.lo) 0

/-- REGRANGE. -/
def checkRange (b : List Byte) : Option CfgFail :=
  (imgRegs b).findSome? (fun r =>
    if r.addr % 4 ≠ 0 ∨ !inReach (imgV4 b) r.ty r.addr r.mask ∨ (regAt r.addr).isNone ∨ r.mask &&& ~~~(fieldMask r.addr) ≠ 0 then some (r.fail 5)
    else none)

/-- The value of a register after the records before. -/
def imgVal (m : Sparse W32) (a : Nat) : W32 := Sparse.get (resetAt a) m a

/-- A record is applied to the values (R530); a broadcast gate in every controller (R248). -/
def imgPut (m : Sparse W32) (r : RegRec) : Sparse W32 :=
  (gateTargets r.addr).foldl (fun m a => Sparse.set (resetAt a) m a ((imgVal m a &&& ~~~r.mask) ||| (r.value &&& r.mask))) m

/-- The values that all records of an image leave. -/
def imgFinal (b : List Byte) : Sparse W32 := (imgRegs b).foldl imgPut []

/-- The partition that a register's value names. -/
def pidNamed (a : Nat) (v : W32) : Option Nat :=
  if Reg.HOSTEP_FBIND.holds a ∨ Reg.RELAY_IMAP_ATTR.holds a then some (fld v 5 0)
  else if Reg.PACER_QCFG.holds a then some (fld v 29 24)
  else none

/-- The first record that leaves an undeclared partition named. -/
def pidScan (decl : List Nat) : Sparse W32 → List RegRec → Option CfgFail
  | _, [] => none
  | m, r :: t =>
    let m := imgPut m r
    match pidNamed r.addr (imgVal m r.addr) with
    | some p => if decl.contains p then pidScan decl m t else some (r.fail 6)
    | none => pidScan decl m t

/-- The first DECL record whose PID is declared already. -/
def declScan : List Nat → List DeclRec → Option CfgFail
  | _, [] => none
  | seen, d :: t => if seen.contains (d.lo % 64) then some (d.fail 6) else declScan (d.lo % 64 :: seen) t

/-- PID. -/
def checkPid (b : List Byte) : Option CfgFail :=
  let decl := [0, 63] ++ (imgDecls b).map (fun d => d.lo % 64)
  (declScan [0, 63] (imgDecls b)).or ((pidScan decl [] (imgRegs b)).or
    ((imgObjs b).findSome? (fun o =>
      if o.kind = 1 ∧ !decl.contains (nfld (leAt o.image 0 4) 13 8) then some (o.fail 6) else none)))

/-- The worker whose HTOPO entry an address is. -/
def topoIndex (a : Nat) : Nat := (a - Reg.RELAY_HTOPO.at) / 4

/-- Does the entry of a worker break R374, given every entry: its parent is neither the manager nor a tier-1 worker? -/
def topoBad (m : Sparse W32) (i : Nat) : Bool :=
  let e := imgVal m (Reg.RELAY_HTOPO.at i)
  let p := imgVal m (Reg.RELAY_HTOPO.at (fld e 4 0))
  bit e 31 && fld e 4 0 != 0 && !(bit p 31 && fld p 4 0 == 0)

/-- The first record that gives a worker a second parent. -/
def twoParents : Sparse W32 → List RegRec → Option CfgFail
  | _, [] => none
  | m, r :: t =>
    let old := imgVal m r.addr
    let m := imgPut m r
    let new := imgVal m r.addr
    if Reg.RELAY_HTOPO.holds r.addr ∧ bit old 31 ∧ bit new 31 ∧ fld old 4 0 ≠ fld new 4 0 then some (r.fail 7) else twoParents m t

/-- Does the value that the last record of a register leaves break a rule? -/
def valueBad (m : Sparse W32) (worker : Bool) (a : Nat) : Bool :=
  let v := imgVal m a
  if a = Reg.MEMC_QTIER.at then !qtierOk v
  else if a = Reg.MEMC_DTIER.at then !dtierOk v
  else if a = Reg.CSS_LCTL.at then fld v 17 16 == 3
  else if Reg.PACER_GRPCFG.holds a then decide (fld v 10 8 < fld v 3 1)
  else if Reg.PACER_GRPLIM.holds a then decide (125 < fld v 7 0)
  else if Reg.PACER_QCFG.holds a then decide (4096 < ((List.range 64).map (fun q => fld (imgVal m (Reg.PACER_QCFG.at q)) 10 0)).sum)
  else if Reg.RELAY_HTOPO.holds a then (bit v 31 && worker) || topoBad m (topoIndex a)
  else false

/-- The first record, last of its register, whose value breaks a rule, or whose FLAGS do. -/
def ruleScan (m : Sparse W32) (worker : Bool) : List RegRec → Option CfgFail
  | [] => none
  | r :: t =>
    if !r.zero ∨ (!(t.any (fun x => x.addr == r.addr)) ∧ valueBad m worker r.addr) then some (r.fail 7) else ruleScan m worker t

/-- An OBJ record against R261 or R265, and against the image's EN. -/
def objBad (en : Bool) (o : ObjRec) : Bool :=
  decide (2 ≤ o.flags) || o.zero != 0 || (o.flags == 1 && !en) ||
  (if o.kind = 0 then decide (0xFFF < o.num) || subRecordBad o.image
   else if o.kind = 1 then decide (o.num < 0x400 ∨ 0x5FF < o.num) || ringRecordBad o.image
   else true)

/-- RULE. -/
def State.checkRule (s : State) (b : List Byte) : Option CfgFail :=
  let m := imgFinal b
  let worker := !s.rb Reg.SYSCTL_ID.at 0
  let regs := imgRegs b
  (ruleScan m worker (regs.filter (fun r => r.ty == 1))).or
    (((imgDecls b).findSome? (fun d => if nfld d.lo 15 6 ≠ 0 ∨ d.hi ≠ 0 then some (d.fail 7) else none)).or
      ((ruleScan m worker (regs.filter (fun r => r.ty != 1))).or
        ((twoParents [] regs).or
          ((imgObjs b).findSome? (fun o => if objBad (bit (imgVal m Reg.CSS_CTL.at) 0) o then some (o.fail 7) else none)))))

/-- Do the gates of a tier's controllers grant writes with a tag over a range, by 4 KiB granules? -/
def State.gatesCoverAll (s : State) (ctrls : List Nat) (t : AccessTag) (base len : Nat) : Bool :=
  ctrls.all (fun k => (List.range ((len + 4095) / 4096)).all (fun i => s.gatesAllow k t true (base + i * 4096)))

/-- GATECOVER (R248): in a state whose registers are the image's. An area whose base the image leaves zero is skipped. -/
def checkGates (b : List Byte) : Option CfgFail :=
  let x : State := { State.reset with regs := imgFinal b }
  let at64 (a : Nat) : Nat := x.reg64 a
  let ctrls := (List.range 6).filter (fun k => x.rb Reg.MEMC_QTIER.at (16 + k))
  let area (base len : Nat) : Bool := base == 0 || x.gatesCoverAll ctrls cssTag base len
  let cls := (x.reg Reg.SYSCTL_CLSBASE.at).toNat
  let ok := area (at64 Reg.CSS_LBASE_LO.at) 0x80000 && area (at64 Reg.CSS_SCBASE_LO.at) 0x40000 &&
    area (at64 Reg.CSS_RCBASE_LO.at) (0x600 * 0x40) && area (at64 Reg.CSS_RLOGBASE_LO.at) (x.logSize.getD 0) &&
    area (at64 Reg.SYSCTL_CLBASE_LO.at) (48 * 0x400) &&
    (cls == 0 || x.gatesCoverAll [23] { world := true, pid := 0, cls := 7, src := 3 } cls (48 * 0x400))
  if ok then none else some (CfgFail.plain 8)

/-- The distances from a locked field's register to its lock bit that the register tables use (R14). -/
def lockDistances : List Int := [0, -4, -8, -12, -16, -20, -24, -28, 4, 8]

/-- Does an RWL field name this bit of an address as its lock? -/
def isLockBit (a i : Nat) : Bool :=
  lockDistances.any (fun d => match regAt (Int.toNat ((a : Int) - d)) with
    | some r => r.fields.any (fun f => f.lock == some (d, i))
    | none => false)

/-- LOCK (R531). -/
def checkLock (b : List Byte) : Option CfgFail :=
  (imgRegs b).findSome? (fun r =>
    if (List.range 32).any (fun i => bit (r.value &&& r.mask) i && isLockBit r.addr i) ∧ !(imgV4 b && r.last) then some (r.fail 0xB) else none)

/-- Pass 1: the first check that fails. -/
def State.cfgCheck (s : State) (b : List Byte) (compLen : Nat) : Option CfgFail :=
  match checkHeader b compLen with
  | some f => some f
  | none => match checkCrc b with
    | some f => some f
    | none => match s.checkRole b with
      | some f => some f
      | none => match checkSection b with
        | some f => some f
        | none => match checkRange b with
          | some f => some f
          | none => match checkPid b with
            | some f => some f
            | none => match s.checkRule b with
              | some f => some f
              | none => match checkGates b with
                | some f => some f
                | none => checkLock b

/-! ## Pass 2 (R533) -/

/-- The bits of a SYSTEM record that step 1 holds back: ENFORCE of a controller, EN of the CSS. -/
def heldBits (a : Nat) : W32 :=
  if [Reg.MEMC_QDR_CTL, Reg.MEMC_DDR_CTL, Reg.MEMC_TUN_CTL, Reg.MEMC_CASK_CTL].any (fun r => r.holds a) then 0x10000
  else if a = Reg.CSS_CTL.at then 1
  else 0

/-- Is it one of the two registers that are written once, with all their records? -/
def isTierReg (a : Nat) : Bool := a == Reg.MEMC_QTIER.at || a == Reg.MEMC_DTIER.at

/-- A record's write under a mask (R530). -/
def State.imgWrite (s : State) (r : RegRec) (mask : W32) : State :=
  s.mmioWrite .bootRom r.addr ((s.reg (storedAt r.addr) &&& ~~~mask) ||| (r.value &&& mask))

/-- MODE 0 training of a controller: new results, free values (R235, log entry 3). -/
def State.trainFull (s : State) (k : Nat) (ok : Bool) : State :=
  let s := if ok then (List.range 256).foldl (fun s i => (s.setReg (ctrlBase k + 0x400 + 4 * i) (BitVec.ofNat 32 s.free)).took) s else s
  s.trainEnd k 0 ok

/-- MODE 1 training of a controller (R239). -/
def State.trainLoad (s : State) (k : Nat) (ok : Bool) : State :=
  let s := s.trainEnd k 1 ok
  if ok ∧ 6 ≤ k then s.setRb (ctrlBase k + 4) 2 false else s

/-- The present QDR and DRAM controllers. -/
def State.presentCtrls (s : State) : List Nat :=
  (List.range 6).filter (fun k => s.rb Reg.MEMC_QTIER.at (16 + k)) ++
  ((List.range 16).filter (fun n => s.rb Reg.MEMC_DTIER.at (8 + n))).map (fun n => n + 6)

/-- The training of step 1: whether every controller ends trained. -/
def State.trainAll (s : State) (env : BootEnv) (kind : Nat) : State × Bool :=
  let ks := s.presentCtrls
  let full := kind = 0 ∨ kind = 3
  let s := ks.foldl (fun s k =>
    if full then s.trainFull k env.mode0
    else
      let s := s.trainLoad k env.mode1
      if env.mode1 then s else s.trainFull k env.mode0) s
  (s, ks.isEmpty || env.mode0 || (!decide full && env.mode1))

/-- LCTL.MODE that the sequence writes (R534). -/
def ledgerMode (b : List Byte) (kind mode : Nat) : Nat :=
  if mode < 2 then mode else if kind = 0 ∨ kind = 3 ∨ (kind = 1 ∧ nfld (leAt b 6 2) 2 2 = 1) then 0 else 1

/-- Where an OBJ image lies. -/
def State.objAddr (s : State) (o : ObjRec) : Nat := if o.kind = 0 then s.subRecord o.num else s.ringRecord o.num

/-- The enables of step 4, in record order: the first that does not end OK. -/
def State.enableObjs : List ObjRec → State → State × Option CfgFail
  | [], s => (s, none)
  | o :: t, s =>
    if o.flags = 0 then State.enableObjs t s
    else
      let s := s.command .bootRom (cmdWord (if o.kind = 0 then 0x1 else 0x8) 0 o.num)
      if s.rf Reg.CSS_CMD.at 30 28 = 0 then State.enableObjs t s else (s, some (o.fail 0xA))

/-- Steps 2 and 3. -/
def State.imgMiddle (s : State) (b : List Byte) : State :=
  let s := (imgDecls b).foldl (fun s d => s.mmioWrite .bootRom (Reg.SYSCTL_CELALLOC.at (d.lo % 64)) (BitVec.ofNat 32 (d.lo / 2 ^ 16))) s
  let s := (imgRegs b).foldl (fun s r => if r.ty = 1 ∨ r.last then s else s.imgWrite r r.mask) s
  (imgObjs b).foldl (fun s o => (s.fabricWrite romTag (s.objAddr o) o.image).1) s

/-- Steps 1 to 4: a failure of training, or of an enable. -/
def State.imgSteps (s : State) (b : List Byte) (env : BootEnv) (kind : Nat) : State × Option CfgFail :=
  let m := imgFinal b
  let regs := imgRegs b
  let s := [Reg.MEMC_QTIER.at, Reg.MEMC_DTIER.at].foldl
    (fun s a => if regs.any (fun r => r.addr == a) then s.mmioWrite .bootRom a (imgVal m a) else s) s
  let s := regs.foldl (fun s r => if r.ty ≠ 1 ∨ r.last ∨ isTierReg r.addr then s else s.imgWrite r (r.mask &&& ~~~(heldBits r.addr))) s
  match s.trainAll env kind with
  | (s, false) => (s, some (CfgFail.plain 9))
  | (s, true) =>
    let s := s.imgMiddle b
    let s := s.setRf Reg.CSS_LCTL.at 17 16 (ledgerMode b kind (fld (imgVal m Reg.CSS_LCTL.at) 17 16))
    if !bit (imgVal m Reg.CSS_CTL.at) 0 then (s, none)
    else State.enableObjs (imgObjs b) (s.mmioWrite .bootRom Reg.CSS_CTL.at (setFld (s.reg Reg.CSS_CTL.at) 0 0 1))

/-- Step 5: the held ENFORCE values, then the FINAL records. -/
def State.imgLast (s : State) (b : List Byte) : State :=
  let regs := imgRegs b
  let s := regs.foldl (fun s r =>
    if r.ty ≠ 1 ∨ r.last ∨ r.addr = Reg.CSS_CTL.at ∨ r.mask &&& heldBits r.addr = 0 then s else s.imgWrite r (r.mask &&& heldBits r.addr)) s
  regs.foldl (fun s r => if r.last ∧ !isTierReg r.addr then s.imgWrite r r.mask else s) s

/-- Step 6: RSTOUT_N is released, and CFGSTAT and CFGID say so. -/
def State.imgDone (s : State) (b : List Byte) : State :=
  let s := { s with memc := { s.memc with applied := true } }.emit .pin 1 [1]
  let s := s.setReg Reg.BOOT_CFGSTAT.at (BitVec.ofNat 32 (2 ^ 31 + leAt b 4 2 % 16 * 2 ^ 20 + 0xFFFF))
  let s := s.setReg Reg.BOOT_CFGREC.at 0xFFFFFFFF
  (s.setReg Reg.BOOT_CFGID_LO.at (BitVec.ofNat 32 (leAt b 0x10 4))).setReg Reg.BOOT_CFGID_HI.at (BitVec.ofNat 32 (leAt b 0x14 4))

/-- A register that pass 2 wrote takes its reset value again (R535), but for fields that a lock has kept through the reset before the boot (R14). -/
def State.unwrite (s : State) (a : Nat) : State :=
  let q := s.reg Reg.MEMC_QTIER.at
  let d := s.reg Reg.MEMC_DTIER.at
  let s := if Reg.PACER_QPUSH_LO.holds a ∨ Reg.PACER_QPUSH_HI.holds a then s else s.mmioWrite .bootRom a (resetAt a)
  (s.setReg a (s.valAfter true a)).remapTiers q d

/-- The roll-back of R535; objs: step 3 has run. The CSS, which runs format or recover again at the next candidate, has nothing enabled. -/
def State.imgRollback (s : State) (b : List Byte) (objs : Bool) : State :=
  let s := if !objs then s else (imgObjs b).foldl (fun s o => (s.fabricWrite romTag (s.objAddr o) (List.replicate 64 0)).1) s
  let addrs := ((imgRegs b).map (fun r => gateTargets r.addr)).flatten ++
    (imgDecls b).map (fun d => Reg.SYSCTL_CELALLOC.at (d.lo % 64)) ++ [Reg.CSS_LCTL.at, Reg.CSS_CTL.at]
  let s := addrs.eraseDups.foldl (fun s a => s.unwrite a) s
  { s with css := { s.css with rings := [], subs := [], fresh := true } }.refreshRun

/-- CFGSTAT and CFGREC of a failure (R536). -/
def State.cfgFailed (s : State) (b : List Byte) (f : CfgFail) : State :=
  (s.setReg Reg.BOOT_CFGSTAT.at (BitVec.ofNat 32 (leAt b 4 2 % 16 * 2 ^ 20 + f.code * 2 ^ 16 + f.sect))).setReg Reg.BOOT_CFGREC.at
    (BitVec.ofNat 32 f.idx)

/-- An image is checked and applied (R532, R533): its failure, if any. -/
def State.applyImage (s : State) (env : BootEnv) (kind : Nat) (b : List Byte) : State × Option CfgFail :=
  match s.cfgCheck b b.length with
  | some f => (s.cfgFailed b f, some f)
  | none =>
    match s.imgSteps b env kind with
    | (s, some f) => ((s.imgRollback b (f.code == 0xA)).cfgFailed b f, some f)
    | (s, none) => ((s.imgLast b).imgDone b, none)

end Sys2Proof.Machine
end

