-- ==== Sys2Proof/Machine/Branch.lean ====
section
/-! DEFINITION. Branches, jumps and LOOP (R67, R89, R100, R101). -/
namespace Sys2Proof.Machine

/-- The target of a word offset from the instruction. -/
def wordTarget {w : Nat} (pc : W64) (off : BitVec w) : W64 := pc + (off.signExtend 64) * 4

/-- A compare and branch (R100). -/
def State.branch (s : State) (c : Nat) (rs1 rs2 : RegNo) (off : BitVec 16) (cond : W64 → W64 → Bool) : State :=
  s.execute c (fun s =>
    let k := s.core c
    let t := wordTarget k.pc off
    (s.modCore c (fun k => k.foresee .cond false t), .ok (if cond (k.g rs1.toNat) (k.g rs2.toNat) then .taken t else .notTaken)))

/-- BEQ. -/
def execBeq (c : Nat) (rs1 rs2 : RegNo) (off : BitVec 16) (s : State) : Answer := .next (s.branch c rs1 rs2 off (fun x y => x == y))

/-- BNE. -/
def execBne (c : Nat) (rs1 rs2 : RegNo) (off : BitVec 16) (s : State) : Answer := .next (s.branch c rs1 rs2 off (fun x y => x != y))

/-- BLT: signed. -/
def execBlt (c : Nat) (rs1 rs2 : RegNo) (off : BitVec 16) (s : State) : Answer := .next (s.branch c rs1 rs2 off (fun x y => x.slt y))

/-- BGE: signed. -/
def execBge (c : Nat) (rs1 rs2 : RegNo) (off : BitVec 16) (s : State) : Answer := .next (s.branch c rs1 rs2 off (fun x y => !x.slt y))

/-- BLTU: unsigned. -/
def execBltu (c : Nat) (rs1 rs2 : RegNo) (off : BitVec 16) (s : State) : Answer := .next (s.branch c rs1 rs2 off (fun x y => x.ult y))

/-- BGEU: unsigned. -/
def execBgeu (c : Nat) (rs1 rs2 : RegNo) (off : BitVec 16) (s : State) : Answer := .next (s.branch c rs1 rs2 off (fun x y => !x.ult y))

/-- LOOP (R101): undefined for an offset that is zero or negative; a count of 0 skips the body. -/
def execLoop (c : Nat) (rs1 : RegNo) (off : BitVec 16) (s : State) : Answer :=
  .next (s.execute c (fun s =>
    let k := s.core c
    if off.toInt ≤ 0 then (s, .error { vec := 0x01 })
    else
      let n := k.g rs1.toNat
      let e := wordTarget k.pc off
      (s.setCore c { k with lbeg := k.pc + 4, lend := e, lcnt := n }, .ok (.loop (e + 4) (n != 0)))))

/-- JMP. -/
def execJmp (c : Nat) (off : BitVec 26) (s : State) : Answer :=
  .next (s.execute c (fun s =>
    let t := wordTarget (s.core c).pc off
    (s.modCore c (fun k => k.foresee .jump false t), .ok (.jump t))))

/-- The call is predicted, and its return address goes to lk (R67) and onto the return stack (R129). -/
def State.linkCall (s : State) (c : Nat) (kind : BrKind) (target : W64) : State :=
  s.modCore c (fun k => (k.foresee kind true target).setG 30 (k.pc + 4))

/-- BL (R67). -/
def execBl (c : Nat) (off : BitVec 26) (s : State) : Answer :=
  .next (s.execute c (fun s =>
    let t := wordTarget (s.core c).pc off
    (s.linkCall c .call t, .ok (.jump t))))

/-- JR (R89): a target with bits [1:0] not zero takes Alignment, with FAR the target (R147). -/
def execJr (c : Nat) (rs1 : RegNo) (s : State) : Answer :=
  .next (s.execute c (fun s =>
    let k := s.core c
    let t := k.g rs1.toNat
    if fld t 1 0 ≠ 0 then (s, .error { vec := 0x04, far := some t })
    else (s.modCore c (fun k => k.foresee (if rs1 = 30 then .ret else .indirect) false t), .ok (.indirect t))))

/-- JLR (R89, R100): rs1 is read before lk is written. -/
def execJlr (c : Nat) (rs1 : RegNo) (s : State) : Answer :=
  .next (s.execute c (fun s =>
    let t := (s.core c).g rs1.toNat
    if fld t 1 0 ≠ 0 then (s, .error { vec := 0x04, far := some t })
    else (s.linkCall c .indirect t, .ok (.indirect t))))

end Sys2Proof.Machine
end

