-- ==== Sys2Proof/Machine/LoadStore.lean ====
section
/-! DEFINITION. Loads and stores (R86-R88), the store buffer's drain (R182), the responses and reports that come later
(R151, R165), and late writebacks (R119). -/
namespace Sys2Proof.Machine

/-! ## Loads and stores -/

/-- The result of a load goes to its register (R86). -/
def Core.putLoad (k : Core) (fp signed : Bool) (rt n : Nat) (bs : List Byte) : Core :=
  if fp then k.setF rt (extendLoad n false bs) else k.setG rt (extendLoad n signed bs)

/-- The base register and its new value, where the mode updates it. -/
def Core.newBase (k : Core) (rb : RegNo) (m : AMode) : Option (Nat × W64) :=
  match m with
  | .postInc imm => some (rb.toNat, k.g rb.toNat + imm.zeroExtend 64)
  | .preDec imm => some (rb.toNat, k.g rb.toNat - imm.zeroExtend 64)
  | _ => none

/-- A base update (R86): a discarded one when the base is g0 (R66). -/
def Core.putBase (k : Core) : Option (Nat × W64) → Core
  | some (r, v) => k.setG r v
  | none => k

/-- The asynchronous report of a Device load (R165): it is taken at the boundary after the load. -/
def State.reportLoad (s : State) (c vec : Nat) (va : W64) : State :=
  s.modCore c (fun k =>
    { k with loadRep := some { vec := vec, tgt := k.routeOf k.lvl vec, multi := false, asyncBit := true, wnr := false, far := va } })

/-- The base-2 logarithm of an access size (R502). -/
def lgBytes (n : Nat) : Nat := if n = 1 then 0 else if n = 2 then 1 else if n = 4 then 2 else 3

/-- The DATA event of a load or a store (R502). -/
def State.traceAccess (s : State) (c n : Nat) (write : Bool) (va : W64) (bs : List Byte) : State :=
  s.traceData c (lgBytes n) write va (leNat bs)

/-- The DATA event of a Device load whose response is an error: its value is open (log entry 17). -/
def State.traceFailed (s : State) (c n : Nat) (va : W64) : State := s.took.traceData c (lgBytes n) false va (s.free % 2 ^ (8 * n))

/-- A load (R86-R88, R122, R150): Undefined, FP Disabled, then the access; the base is updated only when it completes. A
load that leaves the device waits: one from a Device region has then updated its base (R87). -/
def State.loadInstr (s : State) (c : Nat) (sz : MemSize) (rt rb : RegNo) (m : AMode) : State :=
  s.execute c (fun s =>
    let k := s.core c
    if loadUndefined sz rt rb m then (s, .error { vec := 0x01 })
    else if sz.isF && !k.fpe then (s, .error { vec := 0x03 })
    else
      let va := k.ea rb m
      let nb := k.newBase rb m
      match s.loadBytes c k.lvl va sz.bytes true with
      | (s, .error e) => (s, .error e)
      | (s, .ok (.bytes bs)) =>
        ((s.traceAccess c sz.bytes false va bs).modCore c (fun k => (k.putBase nb).putLoad sz.isF sz.isSigned rt.toNat sz.bytes bs), .ok .next)
      | (s, .ok (.failed vec)) => (((s.traceFailed c sz.bytes va).modCore c (fun k => k.putBase nb)).reportLoad c vec va, .ok .next)
      | (s, .ok (.pending dev far pa known)) =>
        (s.modCore c (fun k =>
          { (if dev then k.putBase nb else k) with
            wait := .load { rt := rt.toNat, fp := sz.isF, size := sz.bytes, sext := sz.isSigned, device := dev, va := va, far := far, pa := pa,
                            known := known, base := if dev then none else nb } }), .ok .hold)
      | (s, .ok .blocked) => (s, .ok .hold))

/-- A store (R86-R88, R150): the stored register is read before the base update (R87). -/
def State.storeInstr (s : State) (c : Nat) (sz : MemSize) (rt rb : RegNo) (m : AMode) : State :=
  s.execute c (fun s =>
    let k := s.core c
    if sz.isSigned then (s, .error { vec := 0x01 })
    else if sz.isF && !k.fpe then (s, .error { vec := 0x03 })
    else
      let nb := k.newBase rb m
      let bs := leBytes sz.bytes (k.storeValue sz rt).toNat
      match s.storeBytes c k.lvl (k.ea rb m) bs true with
      | (s, .error e) => (s, .error e)
      | (s, .ok ()) => ((s.traceAccess c sz.bytes true (k.ea rb m) bs).modCore c (fun k => k.putBase nb), .ok .next))

/-- LD: base + imm12. -/
def execLd (c : Nat) (sz : MemSize) (rt rb : RegNo) (imm : BitVec 12) (s : State) : Answer :=
  .next (s.loadInstr c sz rt rb (.offset imm))

/-- ST: base + imm12. -/
def execSt (c : Nat) (sz : MemSize) (rt rb : RegNo) (imm : BitVec 12) (s : State) : Answer :=
  .next (s.storeInstr c sz rt rb (.offset imm))

/-- LDX: base + index << scale. -/
def execLdx (c : Nat) (sz : MemSize) (rt rb ri : RegNo) (scale : BitVec 2) (s : State) : Answer :=
  .next (s.loadInstr c sz rt rb (.indexed ri scale))

/-- STX: base + index << scale. -/
def execStx (c : Nat) (sz : MemSize) (rt rb ri : RegNo) (scale : BitVec 2) (s : State) : Answer :=
  .next (s.storeInstr c sz rt rb (.indexed ri scale))

/-- LDI: post-increment. -/
def execLdi (c : Nat) (sz : MemSize) (rt rb : RegNo) (imm : BitVec 12) (s : State) : Answer :=
  .next (s.loadInstr c sz rt rb (.postInc imm))

/-- STI: post-increment. -/
def execSti (c : Nat) (sz : MemSize) (rt rb : RegNo) (imm : BitVec 12) (s : State) : Answer :=
  .next (s.storeInstr c sz rt rb (.postInc imm))

/-- LDD: pre-decrement. -/
def execLdd (c : Nat) (sz : MemSize) (rt rb : RegNo) (imm : BitVec 12) (s : State) : Answer :=
  .next (s.loadInstr c sz rt rb (.preDec imm))

/-- STD: pre-decrement. -/
def execStd (c : Nat) (sz : MemSize) (rt rb : RegNo) (imm : BitVec 12) (s : State) : Answer :=
  .next (s.storeInstr c sz rt rb (.preDec imm))

/-! ## Fills, drains, responses -/

/-- The record of an error met in a fill or eviction buffer (R227, UNIT 0x09). -/
def State.fillError (s : State) (c line : Nat) (ecc : Ecc) : State :=
  match eccFound ecc with
  | none => s
  | some unc =>
    let s := s.record (ErrRec.cause {
      bank := 1 + clusterOf c, unit := 0x09, code := if unc then 0x02 else 0x01,
      sev := if unc then .deferred else .corrected, poison := unc, addr := some (line * 64), tag := some ((s.core c).tag c) } ecc)
    if unc then { s with mem := s.mem.setLine line { s.mem.line line with poison := true } } else s

/-- Is a core at work, so that its fetch and its L1 caches may ask for lines? -/
def State.fills (s : State) (c : Nat) : Bool := decide (c < numCores) && (s.core c).released && s.online c && !s.sparing c

/-- A line that no cache holds is read from its controller, with the errors that the read meets (R241). -/
def State.lineRead (s : State) (t : AccessTag) (line : Nat) (mem : Ecc) (parity : Nat) : State :=
  if (s.mem.line line).copies.all (fun x => x.reserved) then s.demandRead t line parity mem else s

/-- The copies of a line outside a core's cluster go, and the cluster owns the line (R244). -/
def State.ownLine (s : State) (c n : Nat) : State :=
  let l := s.mem.line n
  let l := match l.l1 with
    | some d => if d.core = c then l else l.mergeL1
    | none => l
  { s with mem := s.mem.setLine n { l with copies := s.afterStore c l.copies, owner := some (clusterOf c) } }

/-- L1D_FILL (R137, R138, R182, R217): the line of an address of the core's present level, of Normal-cached memory only, comes into L1D and its
cluster's L2; own: the early ownership request of a store-buffer entry. A translation, a permission or a gate that refuses it leaves nothing behind, for
such an access is neither reported nor recorded. -/
def execL1dFill (c : Nat) (va : W64) (victim : Option Nat) (own : Bool) (ecc mem : Ecc) (parity : Nat) (s : State) : Answer :=
  .next (
    if !s.fills c then s
    else match s.translate c (s.core c).lvl (if own then .store else .load) va with
      | (_, .error _) => s
      | (s', .ok (pa, ty)) =>
        let k := s.core c
        let t := k.tag c
        let n := pa / 64
        if ty ≠ .cached ∨ (own ∧ !k.sbuf.any (fun e => e.pa / 64 == n && e.rtype == .cached)) then s
        else match s'.checkHit (l2Places (clusterOf c)) t own (n * 64) with
          | (_, some _) => s
          | (s', none) =>
            let s' := (s'.lineRead t n mem parity).fillL1d c n t victim
            (if own then s'.ownLine c n else s').fillError c n ecc)

/-- STORE_BUFFER_DRAIN (R182): the oldest entry leaves; ecc is what its check finds (R164), resp the answer of a target
outside the device. -/
def execStoreBufferDrain (c : Nat) (ecc : Ecc) (resp : Resp) (s : State) : Answer :=
  .next (if c < numCores ∧ s.online c then s.drain1 c ecc resp else s)

/-- The value of a waiting load: the bytes that memory gave stand in their places (R183). -/
def LoadWait.value (w : LoadWait) (v : Nat) : List Byte :=
  (List.range w.size).map (fun i => match w.known.find? (fun x => x.1 == i) with
    | some x => x.2
    | none => BitVec.ofNat 8 (v / 256 ^ i))

/-- The response of the load that the core waits for (R165, R122). A Device load has committed: an error is reported and rd is not
written. A Normal load takes its exception and may be executed again. Poison that it consumed is recorded (R229). -/
def State.loadResponse (s : State) (c : Nat) (resp : LoadResp) : State :=
  let k := s.core c
  match k.wait with
  | .load w =>
    let s := s.setCore c { k with wait := .none }
    let fails (s : State) (vec : Nat) (traced : Bool) : State :=
      if w.device then (((if traced then s.traceFailed c w.size w.va else s).reportLoad c vec w.va).noteAccess c (k.tag c)).finish c k .next
      else s.raise c { vec := vec, far := some w.far }
    let s := match resp with
      | .data v =>
        let bs := w.value v
        (((s.traceAccess c w.size false w.va bs).noteAccess c (k.tag c)).modCore c
          (fun k => (k.putBase w.base).putLoad w.fp w.sext w.rt w.size bs)).finish c k .next
      | .poisoned => fails (s.recordPoison c (k.tag c) false w.pa) 0x0E true
      | .error => fails s 0x0B true
      | .timeout => fails s 0x0B false
    s.modCore c (fun k => { k with itr := false })
  | _ => s

/-- The response of the whole of what a core's load reads outside the device; a core that is gone reads nothing. -/
def State.answerLoad (s : State) (c : Nat) (resp : LoadResp) : State :=
  if c < numCores then (s.dropCoreReads c).loadResponse c resp else s

/-- Bytes of a load arrive, from an offset in it (R378): with the last of them the load has its response. -/
def State.loadPart (s : State) (c off : Nat) (bs : List Byte) : State :=
  match (s.core c).wait with
  | .load w =>
    if numCores ≤ c then s
    else
      let ps := Sparse.get [] s.relay.parts c ++ [(off, bs)]
      let got := w.known ++ ps.flatMap (fun x => (List.range x.2.length).map (fun i => (x.1 + i, x.2.getD i 0)))
      let all := (List.range w.size).mapM (fun i => (got.find? (fun x => x.1 == i)).map (fun x => x.2))
      match all with
      | some all => s.answerLoad c (.data (leNat all))
      | none => { s with relay := { s.relay with parts := Sparse.set [] s.relay.parts c ps } }
  | _ => s

/-- DEVICE_LOAD_RESPONSE (R165, R122). -/
def execDeviceLoadResponse (c : Nat) (resp : LoadResp) (s : State) : Answer := .next (s.answerLoad c resp)

/-- The record of an error response to a store (R151): in the bank of the block that gave it; the windows' blocks record on their own. -/
def State.storeErrorRecord (s : State) (t : AccessTag) (a : Nat) : State :=
  match s.decode a with
  | .unmapped | .rom => s.recordUnmapped t a
  | .regs => s.sizeError t a
  | .tier k off => s.recordRefusal k off t a
  | .host | .relay _ => s

/-- ASYNC_BUS_ERROR (R149, R151): an error response to a retired store arrives, is recorded and becomes pending; with nothing
arriving, the core is at a boundary and takes the pending report. -/
def execAsyncBusError (c : Nat) (arriving : Option StoreError) (s : State) : Answer :=
  .next (
    match arriving with
    | some e =>
      if c < numCores then (s.storeErrorRecord ((s.core c).tagAt c e.lvl) e.pa).reportStore c e.device e.lvl e.va else s
    | none =>
      match s.due c with
      | some (.load _) | some (.store _) => s.boundary c
      | _ => s)

/-- LATE_WRITEBACK (R119, R120): the oldest owed result is written with its flags; a failed residue check writes a
Corrected record, and the unit executes again. DESIGN CHOICE (log entry 43): which unit finishes first is open, and the oldest result is written
first. -/
def execLateWriteback (c : Nat) (residueOk : Bool) (s : State) : Answer :=
  .next (
    let k := s.core c
    match k.late with
    | [] => s
    | x :: _ =>
      if residueOk then s.setCore c (k.writeLate x)
      else s.record { bank := 1 + clusterOf c, unit := x.unit, code := 0x04, sev := .corrected, tag := some (k.tag c) })

/-! ## Reservations and block operations -/

/-- LDRES (R103-R105): B and H forms are unassigned. The hold of its line begins: it lasts for 8 instructions of class I0. -/
def execLdres (c : Nat) (wd : Width) (rd rs1 : RegNo) (s : State) : Answer :=
  .next (s.execute c (fun s =>
    let k := s.core c
    let a := k.g rs1.toNat
    if wd.bytes < 4 then (s, .error { vec := 0x01 })
    else match s.checkAccess c k.lvl .load a wd.bytes true true true with
      | (s, .error e) => (s, .error e)
      | (s, .ok ps) =>
        match s.readAll c (k.tag c) ps with
        | (s, .error e) => (s, .error e)
        | (s, .ok (.bytes bs)) =>
          ((s.traceAccess c wd.bytes false a bs).modCore c (fun k =>
            { k.endHold.setG rd.toNat (extendLoad wd.bytes false bs) with
              resv := ps.head?.map (fun p => p.pa / 128), hold := some 9, overlaid := [] }), .ok .i0)
        | (s, .ok _) => (s, .ok .hold)))

/-- The store of a STCND that succeeds: bytes that another requester has written meanwhile stay, for its write comes after in coherence
order (R104, R105). -/
def State.reservedStore (s : State) (c : Nat) (t : AccessTag) (lvl : Nat) (ps : List Part) (bs : List Byte) : State :=
  let k := s.core c
  match ps with
  | [] => s
  | p :: _ =>
    let cells := ((List.range bs.length).map (fun i => (p.pa + i, bs.getD i 0))).filter (fun x => !k.overlaid.contains x.1)
    (s.pushCells State.mmioWrite c t lvl p.va p.ty cells true).noteAccess c t

/-- STCND (R103, R104): rd is 0 on success and 1 on failure; the reservation ends. -/
def execStcnd (c : Nat) (wd : Width) (rd rs1 rs2 : RegNo) (s : State) : Answer :=
  .next (s.execute c (fun s =>
    let k := s.core c
    let a := k.g rs1.toNat
    if wd.bytes < 4 then (s, .error { vec := 0x01 })
    else match s.checkAccess c k.lvl .store a wd.bytes true true true with
      | (s, .error e) => (s, .error e)
      | (s, .ok ps) =>
        let hit := ps.any (fun p => decide (k.resv = some (p.pa / 128)))
        let bs := leBytes wd.bytes (k.g rs2.toNat).toNat
        let s := if hit then (s.reservedStore c (k.tag c) k.lvl ps bs).traceAccess c wd.bytes true a bs else s
        (s.modCore c (fun k => { k.setG rd.toNat (if hit then 0 else 1) with resv := none, hold := none, overlaid := [] }), .ok .next)))

/-- The bytes of a chunk copied in ascending address order (R106): a source byte that the chunk has already written
reads as written. -/
def copyAscending (src dst : List Nat) (old : List Byte) : List Byte :=
  (List.range old.length).foldl (fun (out : List Byte) i =>
    let hit := (List.range i).reverse.find? (fun j => dst.getD j 0 == src.getD i 1)
    out ++ [match hit with
      | some j => out.getD j 0
      | none => old.getD i 0]) []

/-- The physical addresses of an access, byte by byte. -/
def partAddrs (ps : List Part) : List Nat := (ps.map (fun p => (List.range p.len).map (fun i => p.pa + i))).flatten

/-- The write of a checked chunk (R106, R229): a chunk of a whole line replaces it and clears its mark; an error response
is reported asynchronously (R107). zero: DC.ZERO's write, which leaves no other copy (R221). -/
def State.writeChunk (s : State) (c lvl : Nat) (t : AccessTag) (ps : List Part) (bs : List Byte) (zero : Bool) : State :=
  match ps with
  | [] => s
  | p :: _ =>
    if bs.length = 64 then
      let s := s.drainBuf c
      match s.checkHit (dataPlaces c) t true p.pa with
      | (s, some _) => s.reportStore c false lvl p.va
      | (s, none) => ((s.ownStore c p.pa 64).lineWrite c t p.pa bs zero).noteAccess c t
    else s.pushParts c t lvl ps bs

/-- The checks of a chunk of n bytes, source and destination together, in R150's order, then the watchpoints. -/
def State.checkChunk (s : State) (c : Nat) (move : Bool) (src dst : W64) (n : Nat) : State × Except Exc (List Part × List Part) :=
  let lvl := (s.core c).lvl
  let (s, sp) := if move then s.translateSpan c lvl .load src n else (s, [])
  let (s, dp) := if sp.any (fun x => x.2.2 matches .error .trf) then (s, []) else s.translateSpan c lvl .store dst n
  match firstFault (spanFaults .load src n false true sp ++ spanFaults .store dst n false true dp) with
  | some (_, e) => (s, .error e)
  | none =>
    match (match (if move then (s.core c).watch false src.toNat n else none) with
      | some e => some e
      | none => (s.core c).watch true dst.toNat n) with
    | some e => (s, .error e)
    | none => (s, .ok (spanParts sp, spanParts dp))

/-- One chunk of BLKMOV or BLKSET (R106): every check of source and destination comes before the first byte. -/
def State.blockChunk (s : State) (c : Nat) (move : Bool) (rd rs1 rs2 : RegNo) : State × Except Exc Unit :=
  let k := s.core c
  let t := k.tag c
  let d := k.g rd.toNat
  let n := min (k.g rs2.toNat).toNat (64 - d.toNat % 64)
  match s.checkChunk c move (k.g rs1.toNat) d n with
  | (s, .error e) => (s, .error e)
  | (s, .ok (sp, dp)) =>
    match (if move then s.readAll c t sp else (s, .ok (.bytes []))) with
    | (s, .error e) => (s, .error e)
    | (s, .ok r) =>
      let old := match r with | .bytes bs => bs | _ => []
      let bs := if move then copyAscending (partAddrs sp) (partAddrs dp) old else List.replicate n (BitVec.ofNat 8 (k.g rs1.toNat).toNat)
      let m := BitVec.ofNat 64 n
      ((s.writeChunk c k.lvl t dp bs false).modCore c (fun k =>
        let k := if move then k.setG rs1.toNat (k.g rs1.toNat + m) else k
        (k.setG rd.toNat (d + m)).setG rs2.toNat (k.g rs2.toNat - m)), .ok ())

/-- At most a number of chunks of a block instruction, until the count is 0, an exception, an interrupt or a halt (R106, R107). -/
def State.blockRun : Nat → State → Nat → Bool → RegNo → RegNo → RegNo → State × Except Exc Done
  | f, s, c, move, rd, rs1, rs2 =>
    if (s.core c).g rs2.toNat = 0 then (s, .ok .next)
    else match f with
      | 0 => (s, .ok .hold)
      | f + 1 =>
        match s.blockChunk c move rd rs1 rs2 with
        | (s, .error e) => (s, .error e)
        | (s, .ok ()) =>
          if (s.core c).g rs2.toNat ≠ 0 ∧ (s.due c).isSome then (s, .ok .hold)
          else State.blockRun f s c move rd rs1 rs2

/-- BLKMOV and BLKSET: the encodings that R106 leaves undefined, then the chunks. An instruction that has chunks left stands at its PC, with its progress
in the registers, and goes on when it is executed again (R107): so an interrupt that becomes pending meanwhile is taken at the end of a chunk. -/
def State.blockInstr (s : State) (c : Nat) (move : Bool) (rd rs1 rs2 : RegNo) (chunks : Nat) : State :=
  s.execute c (fun s =>
    if rd = 0 ∨ rs2 = 0 ∨ rd = rs1 ∨ rd = rs2 ∨ rs1 = rs2 then (s, .error { vec := 0x01 })
    else State.blockRun (min chunks (((s.core c).g rs2.toNat).toNat / 64 + 2)) s c move rd rs1 rs2)

/-- BLKMOV (R106, R107). -/
def execBlkmov (c : Nat) (rd rs1 rs2 : RegNo) (chunks : Nat) (s : State) : Answer := .next (s.blockInstr c true rd rs1 rs2 chunks)

/-- BLKSET (R106, R107). -/
def execBlkset (c : Nat) (rd rs1 rs2 : RegNo) (chunks : Nat) (s : State) : Answer := .next (s.blockInstr c false rd rs1 rs2 chunks)

end Sys2Proof.Machine
end

