-- ==== Sys2Proof/Machine/CacheTlb.lean ====
section
/-! DEFINITION. Cache maintenance by address (R204, R221), its fills (R218) and TLB invalidation (R210). -/
namespace Sys2Proof.Machine

/-! ## DC and IC -/

/-- A maintenance instruction by address (R221): a level check, the translation and permission of R204, and, unless the
address lies in a Device region, the line's operation after the core's older stores. -/
def State.maintain (s : State) (c lvl : Nat) (rs : RegNo) (op : Nat) : State :=
  s.execute c (fun s =>
    let k := s.core c
    if k.lvl < lvl then (s, .error { vec := 0x02 })
    else
      let va := k.g rs.toNat
      match s.translate c k.lvl (opAccess op) va with
      | (s, .error f) => (s, .error (f.exc (opAccess op) va))
      | (s, .ok (pa, ty)) => (if ty.device then s else (s.drainBuf c).lineOp op (pa / 64), .ok .next))

/-- DC.CLEAN (R221). -/
def execDcClean (c : Nat) (rs : RegNo) (s : State) : Answer := .next (s.maintain c 0 rs 0)

/-- DC.INV (R221): level K or above. -/
def execDcInv (c : Nat) (rs : RegNo) (s : State) : Answer := .next (s.maintain c 1 rs 2)

/-- DC.CLINV (R221). -/
def execDcClinv (c : Nat) (rs : RegNo) (s : State) : Answer := .next (s.maintain c 0 rs 1)

/-- IC.INV (R221). -/
def execIcInv (c : Nat) (rs : RegNo) (s : State) : Answer := .next (s.maintain c 0 rs 3)

/-- DC.ZERO (R221, R187): a write of zeros to the line; Access Type outside Normal-cached. A refusal of the write is
reported asynchronously (R151). DESIGN CHOICE (log entry 43): FAR of a fault is rs, and not the line's first byte. -/
def execDcZero (c : Nat) (rs : RegNo) (s : State) : Answer :=
  .next (s.execute c (fun s =>
    let k := s.core c
    let va := k.g rs.toNat
    let base := va &&& (BitVec.allOnes 64 <<< 6)
    match s.translate c k.lvl .store va with
    | (s, .error f) => (s, .error (f.exc .store va))
    | (s, .ok (pa, ty)) =>
      if ty ≠ .cached then (s, .error { vec := 0x0F, far := some va, wnr := true })
      else match (s.core c).watch true base.toNat 64 with
        | some e => (s, .error e)
        | none =>
          (s.writeChunk c k.lvl (k.tag c) [{ va := base, pa := pa / 64 * 64, len := 64, ty := .cached }] (List.replicate 64 0)
              true,
           .ok .next)))

/-- A line comes into the line buffer of a core (R126): it keeps the new line and the one before or after it. -/
def State.fillLineBuf (s : State) (c n : Nat) (t : AccessTag) : State :=
  let s := ((s.linesAt (fun x => x.place == .lineBuf c)).filter (fun m => m + 1 != n && n + 1 != m && m != n)).foldl
    (fun (s : State) m => s.discardAt m (fun x => x.place == .lineBuf c) false) s
  s.install n (.lineBuf c) t

/-- L1I_FILL (R126, R137, R138, R218): the line of an address of the core's present level comes into the line buffer; one of Normal-cached memory
through L2, and into L1I while IEN is set. What a translation, a permission or a gate refuses leaves nothing behind. -/
def execL1iFill (c : Nat) (va : W64) (victim : Option Nat) (mem : Ecc) (parity : Nat) (s : State) : Answer :=
  .next (
    if !s.fills c then s
    else match s.translate c (s.core c).lvl .fetch va with
      | (_, .error _) => s
      | (s', .ok (pa, ty)) =>
        let t := (s.core c).tag c
        let n := pa / 64
        if ty.device ∨ inWindow pa ∨ inRegs pa then s
        else match s'.checkHit (if ty = .cached then l2Places (clusterOf c) else []) t false (n * 64) with
          | (_, some _) => s
          | (s', none) =>
            let s' := s'.lineRead t n mem parity
            (if ty = .cached then s'.fillL1i c n t victim else s').fillLineBuf c n t)

/-! ## TLB invalidation -/

/-- A TLBI removes the matching entries of every TLB and walk cache of every core (R210). -/
def State.tlbRemove (s : State) (p : TlbEntry → Bool) (q : WalkEntry → Bool) : State :=
  (List.range numCores).foldl (fun s c => s.modCore c (fun k =>
    { k with iTlb := k.iTlb.filter (fun e => !p e), dTlb := k.dTlb.filter (fun e => !p e), tlb := k.tlb.filter (fun e => !p e),
             walks := k.walks.filter (fun e => !q e) })) s

/-- Does an entry map a 4 KiB page of its regime, given by VA[47:12]? -/
def TlbEntry.covers (e : TlbEntry) (page : Nat) : Bool := e.page % 2 ^ (48 - e.size) == page * 4096 / 2 ^ e.size

/-- Does TLBI.VA of a level match an entry (R210)? -/
def tlbiVaHits (lvl vmid page asid : Nat) (e : TlbEntry) : Bool :=
  e.covers page &&
  (if lvl = 1 then e.regime == .uk && e.vmid == vmid && (e.glob || e.asid == asid)
   else if lvl = 2 then e.regime == .h else e.regime == .m)

/-- Does TLBI.VA of a level match a walk cache entry (R210): a table on the walk of the page? -/
def tlbiVaWalks (lvl vmid page asid : Nat) (e : WalkEntry) : Bool :=
  (match e.item with
    | .table l pre _ => pre == walkPre l (page * 4096)
    | .leaf .. => false) &&
  (if lvl = 1 then e.regime == .uk && e.vmid == vmid && e.asid == asid else if lvl = 2 then e.regime == .h else e.regime == .m)

/-- Is a walk cache entry a result of stage 2? -/
def WalkEntry.stage2 (e : WalkEntry) : Bool :=
  match e.item with
  | .leaf .. => true
  | .table .. => false

/-- The VMID of the U/K regime. -/
def Core.vmid (k : Core) : Nat := fld (k.srd 0x8C1) 59 48

/-- TLBI.VA (R210): rs[47:12] is the page and rs[63:48] the ASID. -/
def execTlbiVa (c : Nat) (rs : RegNo) (s : State) : Answer :=
  .next (s.privileged c 1 (fun s =>
    let k := s.core c
    let v := k.g rs.toNat
    (s.tlbRemove (tlbiVaHits k.lvl k.vmid (fld v 47 12) (fld v 63 48)) (tlbiVaWalks k.lvl k.vmid (fld v 47 12) (fld v 63 48)), .ok .next)))

/-- TLBI.ASID (R210): global entries are kept. -/
def execTlbiAsid (c : Nat) (rs : RegNo) (s : State) : Answer :=
  .next (s.privileged c 1 (fun s =>
    let k := s.core c
    let a := fld (k.g rs.toNat) 15 0
    (s.tlbRemove (fun e => e.regime == .uk && e.vmid == k.vmid && !e.glob && e.asid == a)
      (fun e => e.regime == .uk && e.vmid == k.vmid && !e.stage2 && e.asid == a), .ok .next)))

/-- TLBI.VMID (R210): level H or above. -/
def execTlbiVmid (c : Nat) (rs : RegNo) (s : State) : Answer :=
  .next (s.privileged c 2 (fun s =>
    let m := fld ((s.core c).g rs.toNat) 11 0
    (s.tlbRemove (fun e => e.regime == .uk && e.vmid == m) (fun e => e.regime == .uk && e.vmid == m), .ok .next)))

/-- TLBI.ALL (R210): at H every U/K and regime-H entry, at M every entry. -/
def execTlbiAll (c : Nat) (s : State) : Answer :=
  .next (s.privileged c 2 (fun s =>
    let m := (s.core c).lvl == 3
    (s.tlbRemove (fun e => m || e.regime != .m) (fun e => m || e.regime != .m), .ok .next)))

end Sys2Proof.Machine
end

