-- ==== Sys2Proof/Machine/Float.lean ====
section
/-! DEFINITION. Floating-point instructions (R71, R97, R98). -/
namespace Sys2Proof.Machine

/-- An instruction on f registers: FP Disabled, then a reserved rounding mode it uses (R71, R150); op takes the core, the old
f[rd] and the operands, and put writes the result with its flags. -/
def State.fop3 (s : State) (c : Nat) (usesRm : Bool) (rd rs1 rs2 : RegNo) (put : Core → RegNo → FRes → Core)
    (op : Core → W64 → W64 → W64 → FRes) : State :=
  s.fpu c usesRm (fun k => put k rd (op k (k.f rd.toNat) (k.f rs1.toNat) (k.f rs2.toNat)))

/-- FADD (R97). -/
def execFadd (c : Nat) (fmt : Fmt) (rd rs1 rs2 : RegNo) (s : State) : Answer := .next (s.fop3 c true rd rs1 rs2 Core.lateF (fun k _ x y => fmt.add k.rm k.fz false x y))

/-- FSUB (R97). -/
def execFsub (c : Nat) (fmt : Fmt) (rd rs1 rs2 : RegNo) (s : State) : Answer := .next (s.fop3 c true rd rs1 rs2 Core.lateF (fun k _ x y => fmt.add k.rm k.fz true x y))

/-- FMUL (R97). -/
def execFmul (c : Nat) (fmt : Fmt) (rd rs1 rs2 : RegNo) (s : State) : Answer := .next (s.fop3 c true rd rs1 rs2 Core.lateF (fun k _ x y => fmt.mul k.rm k.fz x y))

/-- FDIV (R97). -/
def execFdiv (c : Nat) (fmt : Fmt) (rd rs1 rs2 : RegNo) (s : State) : Answer := .next (s.fop3 c true rd rs1 rs2 Core.lateF (fun k _ x y => fmt.div k.rm k.fz x y))

/-- FSQRT (R97). -/
def execFsqrt (c : Nat) (fmt : Fmt) (rd rs1 : RegNo) (s : State) : Answer := .next (s.fop3 c true rd rs1 rs1 Core.lateF (fun k _ x _ => fmt.sqrt k.rm k.fz x))

/-- FMAC (R97): one rounding; the flag of infinity times zero plus a quiet NaN is open (log entry 3). -/
def execFmac (c : Nat) (fmt : Fmt) (rd rs1 rs2 : RegNo) (s : State) : Answer := .next ((if s.runs c then s.took else s).fop3 c true rd rs1 rs2 Core.lateF (fun k z x y => fmt.fma k.rm k.fz false (s.free % 2 == 1) z x y))

/-- FMSC (R97): one rounding; the flag of infinity times zero plus a quiet NaN is open (log entry 3). -/
def execFmsc (c : Nat) (fmt : Fmt) (rd rs1 rs2 : RegNo) (s : State) : Answer := .next ((if s.runs c then s.took else s).fop3 c true rd rs1 rs2 Core.lateF (fun k z x y => fmt.fma k.rm k.fz true (s.free % 2 == 1) z x y))

/-- FMIN (R97): minimumNumber. -/
def execFmin (c : Nat) (fmt : Fmt) (rd rs1 rs2 : RegNo) (s : State) : Answer := .next (s.fop3 c false rd rs1 rs2 Core.putF (fun k _ x y => fmt.minMax k.fz false x y))

/-- FMAX (R97): maximumNumber. -/
def execFmax (c : Nat) (fmt : Fmt) (rd rs1 rs2 : RegNo) (s : State) : Answer := .next (s.fop3 c false rd rs1 rs2 Core.putF (fun k _ x y => fmt.minMax k.fz true x y))

/-- FABS (R97): the sign bit cleared; no flags. -/
def execFabs (c : Nat) (fmt : Fmt) (rd rs1 : RegNo) (s : State) : Answer := .next (s.fop3 c false rd rs1 rs1 Core.putF (fun _ _ x _ => (fmt.withSign x (fun _ => false), 0)))

/-- FNEG (R97): the sign bit inverted; no flags. -/
def execFneg (c : Nat) (fmt : Fmt) (rd rs1 : RegNo) (s : State) : Answer := .next (s.fop3 c false rd rs1 rs1 Core.putF (fun _ _ x _ => (fmt.withSign x (fun b => !b), 0)))

/-- FCVT.S.D (R97): rounded. -/
def execFcvtSD (c : Nat) (rd rs1 : RegNo) (s : State) : Answer := .next (s.fop3 c true rd rs1 rs1 Core.putF (fun k _ x _ => convertFmt .d .s k.rm k.fz x))

/-- FCVT.D.S (R97): exact. -/
def execFcvtDS (c : Nat) (rd rs1 : RegNo) (s : State) : Answer := .next (s.fop3 c false rd rs1 rs1 Core.putF (fun k _ x _ => convertFmt .s .d 0 k.fz x))

/-- FCVT.L and FCVT.LU (R97). -/
def execFcvtToInteger (c : Nat) (uns : Bool) (fmt : Fmt) (rd fs1 : RegNo) (s : State) : Answer := .next (s.fop3 c true rd fs1 fs1 Core.putGF (fun k _ x _ => fmt.toInteger k.rm k.fz uns x))

/-- FCVT from a g integer (R97). -/
def execFcvtFromInteger (c : Nat) (uns : Bool) (fmt : Fmt) (fd rs1 : RegNo) (s : State) : Answer := .next (s.fpu c true (fun k => k.putF fd (fmt.ofInteger k.rm uns (k.g rs1.toNat))))

/-- FEQ (R97). -/
def execFeq (c : Nat) (fmt : Fmt) (rd rs1 rs2 : RegNo) (s : State) : Answer := .next (s.fop3 c false rd rs1 rs2 Core.putGF (fun k _ x y => fmt.compare k.fz 0 x y))

/-- FLT (R97). -/
def execFlt (c : Nat) (fmt : Fmt) (rd rs1 rs2 : RegNo) (s : State) : Answer := .next (s.fop3 c false rd rs1 rs2 Core.putGF (fun k _ x y => fmt.compare k.fz 1 x y))

/-- FLE (R97). -/
def execFle (c : Nat) (fmt : Fmt) (rd rs1 rs2 : RegNo) (s : State) : Answer := .next (s.fop3 c false rd rs1 rs2 Core.putGF (fun k _ x y => fmt.compare k.fz 2 x y))

/-- FCLASS (R98). -/
def execFclass (c : Nat) (fmt : Fmt) (rd rs1 : RegNo) (s : State) : Answer := .next (s.fop3 c false rd rs1 rs1 Core.putGF (fun _ _ x _ => (fmt.classOf x, 0)))

/-- FMV.G.F (R97): 64 bits from f to g. -/
def execFmvGF (c : Nat) (rd rs1 : RegNo) (s : State) : Answer := .next (s.fop3 c false rd rs1 rs1 Core.putGF (fun _ _ x _ => (x, 0)))

/-- FMV.F.G (R97): 64 bits from g to f. -/
def execFmvFG (c : Nat) (rd rs1 : RegNo) (s : State) : Answer := .next (s.fpu c false (fun k => k.putF rd (k.g rs1.toNat, 0)))

end Sys2Proof.Machine
end

