-- ==== Sys2Proof/Machine/MulDiv.lean ====
section
/-! DEFINITION. Integer multiplication and division (R94). The high products, division and remainders write late (R117, R119). -/
namespace Sys2Proof.Machine

/-- MUL: the low 64 bits. -/
def execMul (c : Nat) (rd rs1 rs2 : RegNo) (s : State) : Answer := .next (s.opMul c rd rs1 rs2 (fun x y => x * y))

/-- MULW. -/
def execMulw (c : Nat) (rd rs1 rs2 : RegNo) (s : State) : Answer := .next (s.opMul c rd rs1 rs2 (fun x y => sext32 (x * y)))

/-- MULH: signed times signed. -/
def execMulh (c : Nat) (rd rs1 rs2 : RegNo) (s : State) : Answer := .next (s.opLate c rd rs1 rs2 (fun x y => mulHigh x.toInt y.toInt))

/-- MULHU: unsigned times unsigned. -/
def execMulhu (c : Nat) (rd rs1 rs2 : RegNo) (s : State) : Answer := .next (s.opLate c rd rs1 rs2 (fun x y => mulHigh x.toNat y.toNat))

/-- MULHSU: signed rs1 times unsigned rs2. -/
def execMulhsu (c : Nat) (rd rs1 rs2 : RegNo) (s : State) : Answer := .next (s.opLate c rd rs1 rs2 (fun x y => mulHigh x.toInt y.toNat))

/-- DIV: signed, toward zero. -/
def execDiv (c : Nat) (rd rs1 rs2 : RegNo) (s : State) : Answer := .next (s.opLate c rd rs1 rs2 (fun x y => divS x y))

/-- DIVU. -/
def execDivu (c : Nat) (rd rs1 rs2 : RegNo) (s : State) : Answer := .next (s.opLate c rd rs1 rs2 (fun x y => divU x y))

/-- REM: signed. -/
def execRem (c : Nat) (rd rs1 rs2 : RegNo) (s : State) : Answer := .next (s.opLate c rd rs1 rs2 (fun x y => remS x y))

/-- REMU. -/
def execRemu (c : Nat) (rd rs1 rs2 : RegNo) (s : State) : Answer := .next (s.opLate c rd rs1 rs2 (fun x y => remU x y))

/-- DIVW. -/
def execDivw (c : Nat) (rd rs1 rs2 : RegNo) (s : State) : Answer := .next (s.opLate c rd rs1 rs2 (fun x y => sext32 ((divS (x.truncate 32) (y.truncate 32)).zeroExtend 64)))

/-- DIVUW. -/
def execDivuw (c : Nat) (rd rs1 rs2 : RegNo) (s : State) : Answer := .next (s.opLate c rd rs1 rs2 (fun x y => sext32 ((divU (x.truncate 32) (y.truncate 32)).zeroExtend 64)))

/-- REMW. -/
def execRemw (c : Nat) (rd rs1 rs2 : RegNo) (s : State) : Answer := .next (s.opLate c rd rs1 rs2 (fun x y => sext32 ((remS (x.truncate 32) (y.truncate 32)).zeroExtend 64)))

/-- REMUW. -/
def execRemuw (c : Nat) (rd rs1 rs2 : RegNo) (s : State) : Answer := .next (s.opLate c rd rs1 rs2 (fun x y => sext32 ((remU (x.truncate 32) (y.truncate 32)).zeroExtend 64)))

end Sys2Proof.Machine
end

