-- ==== Sys2Proof/Machine/Packed.lean ====
section
/-! DEFINITION. Packed operations (R70, R97, R99). -/
namespace Sys2Proof.Machine

/-- A packed integer operation: a lane width that the table does not list is Undefined, before FP Disabled (R150). -/
def State.packedOp (s : State) (c : Nat) (listed : Bool) (rd rs1 rs2 : RegNo) (op : W64 → W64 → FRes) : State :=
  if listed then s.fpu c false (fun k => k.putF rd (op (k.f rs1.toNat) (k.f rs2.toNat)))
  else s.execute c (fun s => (s, .error { vec := 0x01 }))

/-- The sum over 8 lanes of absolute differences. -/
def sumAbsDiff (x y : W64) : W64 :=
  BitVec.ofNat 64 (((List.range 8).map (fun i =>
    let u := x.toNat / 256 ^ i % 256
    let v := y.toNat / 256 ^ i % 256
    max u v - min u v)).sum)

/-- PADD (R70): wrapping. -/
def execPadd (c : Nat) (lane : Lane) (rd rs1 rs2 : RegNo) (s : State) : Answer := .next (s.packedOp c true rd rs1 rs2 (fun x y => (lanes lane.bits (fun u v => u + v) x y, 0)))

/-- PSUB (R70): wrapping. -/
def execPsub (c : Nat) (lane : Lane) (rd rs1 rs2 : RegNo) (s : State) : Answer := .next (s.packedOp c true rd rs1 rs2 (fun x y => (lanes lane.bits (fun u v => u + 2 ^ lane.bits - v) x y, 0)))

/-- PADDS (R99): B and H lanes. -/
def execPadds (c : Nat) (lane : Lane) (rd rs1 rs2 : RegNo) (s : State) : Answer := .next (s.packedOp c (lane != .w) rd rs1 rs2 (fun x y => satLanes lane.bits true false x y))

/-- PADDUS (R99): B and H lanes. -/
def execPaddus (c : Nat) (lane : Lane) (rd rs1 rs2 : RegNo) (s : State) : Answer := .next (s.packedOp c (lane != .w) rd rs1 rs2 (fun x y => satLanes lane.bits false false x y))

/-- PSUBS (R99): B and H lanes. -/
def execPsubs (c : Nat) (lane : Lane) (rd rs1 rs2 : RegNo) (s : State) : Answer := .next (s.packedOp c (lane != .w) rd rs1 rs2 (fun x y => satLanes lane.bits true true x y))

/-- PSUBUS (R99): B and H lanes. -/
def execPsubus (c : Nat) (lane : Lane) (rd rs1 rs2 : RegNo) (s : State) : Answer := .next (s.packedOp c (lane != .w) rd rs1 rs2 (fun x y => satLanes lane.bits false true x y))

/-- PMUL.H (R70): the low 16 bits of each product. -/
def execPmul (c : Nat) (rd rs1 rs2 : RegNo) (s : State) : Answer := .next (s.packedOp c true rd rs1 rs2 (fun x y => (lanes 16 (fun u v => u * v) x y, 0)))

/-- PMULHS.H (R70): the signed high 16 bits. -/
def execPmulhs (c : Nat) (rd rs1 rs2 : RegNo) (s : State) : Answer := .next (s.packedOp c true rd rs1 rs2 (fun x y => (lanes 16 (fun u v => laneOf 16 (laneInt 16 u * laneInt 16 v / 2 ^ 16)) x y, 0)))

/-- PMIN.H (R70). -/
def execPmin (c : Nat) (rd rs1 rs2 : RegNo) (s : State) : Answer := .next (s.packedOp c true rd rs1 rs2 (fun x y => (lanes 16 (fun u v => if laneInt 16 u ≤ laneInt 16 v then u else v) x y, 0)))

/-- PMAX.H (R70). -/
def execPmax (c : Nat) (rd rs1 rs2 : RegNo) (s : State) : Answer := .next (s.packedOp c true rd rs1 rs2 (fun x y => (lanes 16 (fun u v => if laneInt 16 u ≤ laneInt 16 v then v else u) x y, 0)))

/-- PMINU.B (R70). -/
def execPminu (c : Nat) (rd rs1 rs2 : RegNo) (s : State) : Answer := .next (s.packedOp c true rd rs1 rs2 (fun x y => (lanes 8 (fun u v => min u v) x y, 0)))

/-- PMAXU.B (R70). -/
def execPmaxu (c : Nat) (rd rs1 rs2 : RegNo) (s : State) : Answer := .next (s.packedOp c true rd rs1 rs2 (fun x y => (lanes 8 (fun u v => max u v) x y, 0)))

/-- PCMPEQ (R70): B and H lanes. -/
def execPcmpeq (c : Nat) (lane : Lane) (rd rs1 rs2 : RegNo) (s : State) : Answer := .next (s.packedOp c (lane != .w) rd rs1 rs2 (fun x y => (lanes lane.bits (fun u v => if u = v then 2 ^ lane.bits - 1 else 0) x y, 0)))

/-- PCMPGT.H (R70): signed. -/
def execPcmpgt (c : Nat) (rd rs1 rs2 : RegNo) (s : State) : Answer := .next (s.packedOp c true rd rs1 rs2 (fun x y => (lanes 16 (fun u v => if laneInt 16 v < laneInt 16 u then 0xFFFF else 0) x y, 0)))

/-- PAND (R70). -/
def execPand (c : Nat) (rd rs1 rs2 : RegNo) (s : State) : Answer := .next (s.packedOp c true rd rs1 rs2 (fun x y => (x &&& y, 0)))

/-- POR (R70). -/
def execPor (c : Nat) (rd rs1 rs2 : RegNo) (s : State) : Answer := .next (s.packedOp c true rd rs1 rs2 (fun x y => (x ||| y, 0)))

/-- PXOR (R70). -/
def execPxor (c : Nat) (rd rs1 rs2 : RegNo) (s : State) : Answer := .next (s.packedOp c true rd rs1 rs2 (fun x y => (x ^^^ y, 0)))

/-- PSAD.B (R70). -/
def execPsad (c : Nat) (rd rs1 rs2 : RegNo) (s : State) : Answer := .next (s.packedOp c true rd rs1 rs2 (fun x y => (sumAbsDiff x y, 0)))

/-- PFADD.S2 (R97). -/
def execPfadd (c : Nat) (rd rs1 rs2 : RegNo) (s : State) : Answer := .next (s.fop3 c true rd rs1 rs2 Core.lateF (fun k z x y => lanes2 (fun _ x y => Fmt.s.add k.rm k.fz false x y) z x y))

/-- PFSUB.S2 (R97). -/
def execPfsub (c : Nat) (rd rs1 rs2 : RegNo) (s : State) : Answer := .next (s.fop3 c true rd rs1 rs2 Core.lateF (fun k z x y => lanes2 (fun _ x y => Fmt.s.add k.rm k.fz true x y) z x y))

/-- PFMUL.S2 (R97). -/
def execPfmul (c : Nat) (rd rs1 rs2 : RegNo) (s : State) : Answer := .next (s.fop3 c true rd rs1 rs2 Core.lateF (fun k z x y => lanes2 (fun _ x y => Fmt.s.mul k.rm k.fz x y) z x y))

/-- PFMAC.S2 (R97): the open flag of each lane as for FMAC (log entry 3). -/
def execPfmac (c : Nat) (rd rs1 rs2 : RegNo) (s : State) : Answer := .next ((if s.runs c then s.took else s).fop3 c true rd rs1 rs2 Core.lateF (fun k z x y => lanes2 (fun z x y => Fmt.s.fma k.rm k.fz false (s.free % 2 == 1) z x y) z x y))

end Sys2Proof.Machine
end

