-- ==== Sys2Proof/Machine/Itr.lean ====
section
/-! DEFINITION. Instruction transfer (R449): the instruction that a word written to ITR stands for, by the encodings of R84, R85 and the
opcode tables of Instruction Reference, and its execution on a halted core. -/
namespace Sys2Proof.Machine

/-- A register field at bit lo. -/
def regAtBit (w : W32) (lo : Nat) : RegNo := BitVec.ofNat 5 (fld w (lo + 4) lo)

/-- An instruction word's meaning on a core; none: undefined (R85). -/
abbrev Meaning := Option (Nat → State → Answer)

/-- A choice from a table by a code. -/
def pick (i : Nat) (l : List (Nat → State → Answer)) : Meaning := l[i]?

/-- The size code of R86: a load, or a store that has no sign-extending form. -/
def sizeOf (code : Nat) (store : Bool) : Option MemSize :=
  if code = 0 then some .b else if code = 1 then some .h else if code = 2 then some .w else if code = 3 then some .d
  else if code = 4 ∧ !store then some .bs else if code = 5 ∧ !store then some .hs else if code = 6 ∧ !store then some .ws
  else if code = 8 then some .fw else if code = 9 then some .fd else none

/-- Majors 0x01-0x07: integer register operations. -/
def decodeReg (op : Nat) (w : W32) : Meaning :=
  let d := regAtBit w 21; let a := regAtBit w 16; let b := regAtBit w 11
  let fn := fld w 10 0
  if op = 1 then
    (if fn < 0xE then pick fn [(execAdd · d a b), (execSub · d a b), (execAnd · d a b), (execOr · d a b), (execXor · d a b),
       (execAndn · d a b), (execOrn · d a b), (execXnor · d a b), (execSlt · d a b), (execSltu · d a b), (execMin · d a b),
       (execMax · d a b), (execMinu · d a b), (execMaxu · d a b)]
     else if 0x10 ≤ fn then pick (fn - 0x10) [(execAddw · d a b), (execSubw · d a b)] else none)
  else if op = 2 then
    pick fn [(execSll · d a b), (execSrl · d a b), (execSra · d a b), (execRor · d a b), (execSllw · d a b), (execSrlw · d a b),
      (execSraw · d a b)]
  else if op = 3 then
    pick fn [(execMul · d a b), (execMulh · d a b), (execMulhu · d a b), (execMulhsu · d a b), (execMulw · d a b)]
  else if op = 4 then
    pick fn [(execDiv · d a b), (execDivu · d a b), (execRem · d a b), (execRemu · d a b), (execDivw · d a b), (execDivuw · d a b),
      (execRemw · d a b), (execRemuw · d a b)]
  else if op = 5 then
    (if b ≠ 0 then none
     else pick fn [(execClz · d a), (execCtz · d a), (execPopc · d a), (execRev8 · d a), (execBrev · d a), (execSextb · d a),
       (execSexth · d a), (execSextw · d a), (execZextw · d a)])
  else if op = 6 then pick fn [(execPickz · d a b), (execPicknz · d a b)]
  else pick fn [(execCrc32c · .b d a b), (execCrc32c · .h d a b), (execCrc32c · .w d a b), (execCrc32c · .d d a b)]

/-- Majors 0x08-0x0B and 0x18-0x1B: immediate operations. -/
def decodeImm (op : Nat) (w : W32) : Meaning :=
  let d := regAtBit w 21; let a := regAtBit w 16
  let fn := fld w 15 12
  let imm := BitVec.ofNat 12 (fld w 11 0)
  let u := BitVec.ofNat 21 (fld w 20 0)
  let sh := BitVec.ofNat 6 (fld w 5 0); let sw := BitVec.ofNat 5 (fld w 4 0); let ln := BitVec.ofNat 6 (fld w 11 6)
  if op = 8 then
    pick fn [(execAddi · d a imm), (execAddwi · d a imm), (execAndi · d a imm), (execOri · d a imm), (execXori · d a imm),
      (execSlti · d a imm), (execSltui · d a imm)]
  else if op = 9 then
    (if fn < 4 then (if fld w 11 6 ≠ 0 then none else pick fn [(execSlli · d a sh), (execSrli · d a sh), (execSrai · d a sh), (execRori · d a sh)])
     else if fld w 11 5 ≠ 0 then none else pick (fn - 4) [(execSllwi · d a sw), (execSrlwi · d a sw), (execSrawi · d a sw)])
  else if op = 0xA then pick fn [(execExtu · d a sh ln), (execExts · d a sh ln), (execIns · d a sh ln)]
  else if op = 0xB then pick fn [(execMuli · d a imm)]
  else if 0x18 ≤ op then pick (op - 0x18) [(execLui · d u), (execAuipc · d u), (execAdr · d u), (execLuhi · d u)]
  else none

/-- Majors 0x20-0x29 and 0x2A: loads, stores, reservations and block operations. -/
def decodeMem (op : Nat) (w : W32) : Meaning :=
  let t := regAtBit w 21; let b := regAtBit w 16; let r := regAtBit w 11
  let imm := BitVec.ofNat 12 (fld w 11 0)
  let fn := fld w 10 0
  if op ≤ 0x27 then
    match sizeOf (fld w 15 12) (op % 2 == 1) with
    | none => none
    | some z =>
      let x := regAtBit w 7
      let sc := BitVec.ofNat 2 (fld w 6 5)
      if (op = 0x22 ∨ op = 0x23) ∧ fld w 4 0 ≠ 0 then none
      else pick (op - 0x20) [(execLd · z t b imm), (execSt · z t b imm), (execLdx · z t b x sc), (execStx · z t b x sc),
        (execLdi · z t b imm), (execSti · z t b imm), (execLdd · z t b imm), (execStd · z t b imm)]
  else if op = 0x28 then (if r ≠ 0 ∨ fn < 2 then none else pick (fn - 2) [(execLdres · .w t b), (execLdres · .d t b)])
  else if op = 0x29 then (if fn < 2 then none else pick (fn - 2) [(execStcnd · .w t b r), (execStcnd · .d t b r)])
  else if op = 0x2A then pick fn [(execBlkmov · t b r (2 ^ 59)), (execBlkset · t b r (2 ^ 59))]
  else none

/-- Majors 0x1C-0x1F: floating-point and packed operations. DESIGN CHOICE (log entry 43): a one-operand form of major 0x1E whose rs2 field is not zero is
Undefined. -/
def decodeFp (op : Nat) (w : W32) : Meaning :=
  let d := regAtBit w 21; let a := regAtBit w 16; let b := regAtBit w 11
  let fn := fld w 10 0
  if op ≤ 0x1D then
    let z : Fmt := if op = 0x1C then .s else .d
    if (fn = 4 ∨ fn = 9 ∨ fn = 10) ∧ b ≠ 0 then none
    else pick fn [(execFadd · z d a b), (execFsub · z d a b), (execFmul · z d a b), (execFdiv · z d a b), (execFsqrt · z d a),
      (execFmin · z d a b), (execFmax · z d a b), (execFmac · z d a b), (execFmsc · z d a b), (execFabs · z d a), (execFneg · z d a)]
  else if op = 0x1E then
    let one := !(decide (0xA ≤ fn) && decide (fn ≤ 0xF))
    if one ∧ b ≠ 0 then none
    else pick fn [(execFcvtSD · d a), (execFcvtDS · d a), (execFcvtToInteger · false .s d a), (execFcvtToInteger · false .d d a),
      (execFcvtToInteger · true .s d a), (execFcvtToInteger · true .d d a), (execFcvtFromInteger · false .s d a),
      (execFcvtFromInteger · false .d d a), (execFcvtFromInteger · true .s d a), (execFcvtFromInteger · true .d d a),
      (execFeq · .s d a b), (execFlt · .s d a b), (execFle · .s d a b), (execFeq · .d d a b), (execFlt · .d d a b),
      (execFle · .d d a b), (execFclass · .s d a), (execFclass · .d d a), (execFmvGF · d a), (execFmvFG · d a)]
  else if fn < 0x1B then
    pick fn [(execPadd · .b d a b), (execPadd · .h d a b), (execPadd · .w d a b), (execPsub · .b d a b), (execPsub · .h d a b),
      (execPsub · .w d a b), (execPadds · .b d a b), (execPadds · .h d a b), (execPaddus · .b d a b), (execPaddus · .h d a b),
      (execPsubs · .b d a b), (execPsubs · .h d a b), (execPsubus · .b d a b), (execPsubus · .h d a b), (execPmul · d a b),
      (execPmulhs · d a b), (execPmin · d a b), (execPmax · d a b), (execPminu · d a b), (execPmaxu · d a b), (execPcmpeq · .b d a b),
      (execPcmpeq · .h d a b), (execPcmpgt · d a b), (execPand · d a b), (execPor · d a b), (execPxor · d a b), (execPsad · d a b)]
  else if 0x20 ≤ fn then pick (fn - 0x20) [(execPfadd · d a b), (execPfsub · d a b), (execPfmul · d a b), (execPfmac · d a b)]
  else none

/-- Majors 0x30-0x3A: branches, jumps and LOOP. -/
def decodeBranch (op : Nat) (w : W32) : Meaning :=
  let a := regAtBit w 21; let b := regAtBit w 16
  let off := BitVec.ofNat 16 (fld w 15 0)
  let off26 := BitVec.ofNat 26 (fld w 25 0)
  if op ≤ 0x35 then
    pick (op - 0x30) [(execBeq · a b off), (execBne · a b off), (execBlt · a b off), (execBge · a b off), (execBltu · a b off),
      (execBgeu · a b off)]
  else if op = 0x36 then (if b ≠ 0 then none else some (execLoop · a off))
  else if op = 0x38 then some (execJmp · off26)
  else if op = 0x39 then some (execBl · off26)
  else if op = 0x3A then
    (if fld w 25 21 ≠ 0 ∨ fld w 15 11 ≠ 0 then none else pick (fld w 10 0) [(execJr · b), (execJlr · b)])
  else none

/-- Majors 0x3B-0x3E: system, synchronisation, dispatch and gates (format S). -/
def decodeSys (op : Nat) (w : W32) : Meaning :=
  let r := regAtBit w 21
  let fn := fld w 15 12
  let n := BitVec.ofNat 12 (fld w 11 0)
  if fld w 20 16 ≠ 0 then none
  else if op = 0x3B then
    (if fn ≤ 1 then pick fn [(execMfs · r n), (execMts · r n)]
     else if n ≠ 0 ∨ (fn = 0xA ∧ r ≠ 0) then none
     else pick (fn - 2) [(execDcClean · r), (execDcInv · r), (execDcClinv · r), (execDcZero · r), (execIcInv · r), (execTlbiVa · r),
       (execTlbiAsid · r), (execTlbiVmid · r), (execTlbiAll ·)])
  else if op = 0x3C then
    (if fn = 5 then (if r ≠ 0 ∨ fld w 11 2 ≠ 0 then none else some (execSev · (BitVec.ofNat 2 (fld w 1 0))))
     else if n ≠ 0 ∨ (fn ≠ 6 ∧ r ≠ 0) then none
     else if fn < 5 then pick fn [(execFenceC ·), (execFenceK ·), (execFenceS ·), (execIsync ·), (execWev ·)]
     else pick (fn - 6) [(execWtu · r), (execClrres ·)])
  else if op = 0x3D then
    (if n ≠ 0 ∨ (fn = 1 ∧ r ≠ 0) then none else pick fn [(execTake · r), (execYield ·)])
  else if r ≠ 0 then none
  else if fn = 0 then some (execGate · (BitVec.ofNat 2 (fld w 11 10)) (BitVec.ofNat 10 (fld w 9 0)))
  else if fn = 3 then (if fld w 11 10 ≠ 0 then none else some (execBrk · (BitVec.ofNat 10 (fld w 9 0))))
  else if n ≠ 0 ∨ fn > 3 then none
  else pick (fn - 1) [(execGret ·), (execEret ·)]

/-- The instruction of a word (R84, R85). -/
def decodeWord (w : W32) : Meaning :=
  let op := fld w 31 26
  if op = 0 ∨ w = 0xFFFFFFFF then none
  else if op ≤ 7 then decodeReg op w
  else if op ≤ 0x1B then decodeImm op w
  else if op ≤ 0x1F then decodeFp op w
  else if op ≤ 0x2F then decodeMem op w
  else if op ≤ 0x3A then decodeBranch op w
  else if op ≤ 0x3E then decodeSys op w
  else none

/-- The word that waits in ITR of a core executes once (R449), at its level, world and translation; PC stays. A barrier waits for its
condition, so the store buffer drains. -/
def State.runItr (s : State) (c : Nat) : State :=
  match Sparse.get none s.boot.itr c with
  | none => s
  | some w =>
    let s := { s with boot := { s.boot with itr := Sparse.set none s.boot.itr c none } }
    if !(s.core c).halted then s
    else
      let s := s.modCore c (fun k => { k with halted := false, itr := true })
      let s :=
        match decodeWord w with
        | none => s.raise c { vec := 0x01 }
        | some f => match f c s with
          | .next s' => s'
          | _ => s
      let s := match (s.core c).wait with
        | .barrier _ => (s.drainBuf c).modCore c (fun k => { k with wait := .none })
        | _ => s
      s.modCore c (fun k =>
        let loads := match k.wait with
          | .load .. => true
          | _ => false
        { k.settle with halted := true, itr := loads })

end Sys2Proof.Machine
end

