-- ==== Sys2Proof/Machine/Debug.lean ====
section
/-! DEFINITION. The rows of debug (chapter Sealed World, Isolation and Debug): unlock (R444-R446), halting and instruction transfer (R448,
R449), and JTAG (R450, R451). -/
namespace Sys2Proof.Machine

/-! ## Unlock -/

/-- CHAL (R444). -/
def execChal (r : Requester) (s : State) : Answer := .next (s.mmioWrite r Reg.DEBUG_UNLOCK.at 0x40000000)
/-- UNLOCK (R445): a write of GO. -/
def execUnlock (r : Requester) (s : State) : Answer := .next (s.mmioWrite r Reg.DEBUG_UNLOCK.at 0x80000000)
/-- RELOCK (R443). -/
def execRelock (r : Requester) (s : State) : Answer := .next (s.mmioWrite r Reg.DEBUG_UNLOCK.at 0x10000000)

/-! ## Halting -/

/-- A write of a bit of CORECTL of a core, and the halt where it is due (R448). -/
def State.coreCtl (s : State) (r : Requester) (c i : Nat) : State :=
  if c < numCores then (s.mmioWrite r (Reg.DEBUG_CORECTL.at c) (BitVec.ofNat 32 (2 ^ i))).settleHalt (Reg.DEBUG_CORECTL.at c) else s

/-- HALT (R448). -/
def execHalt (r : Requester) (c : Nat) (s : State) : Answer := .next (s.coreCtl r c 0)
/-- RESUME (R448). -/
def execResume (r : Requester) (c : Nat) (s : State) : Answer := .next (s.coreCtl r c 1)
/-- STEP (R448): the core halts again after its next instruction. -/
def execStep (r : Requester) (c : Nat) (s : State) : Answer := .next (s.coreCtl r c 2)

/-- ITR (R449): a write of ITR, or the execution of a word that another write left there. -/
def execItr (r : Option Requester) (c : Nat) (v : W32) (s : State) : Answer :=
  .next (
    if c ≥ numCores then s
    else match r with
      | some r => (s.mmioWrite r (Reg.DEBUG_ITR.at c) v).runItr c
      | none => s.runItr c)

/-! ## JTAG -/

/-- The bypass register (R450): one bit that starts at 0. -/
def State.bypass (s : State) (bits : List Bool) : State := s.emit .tdo 0 ((0 :: bits.map b2n).take (max 1 bits.length))

/-- Does a boundary instruction act as BYPASS (R450)? -/
def State.boundaryClosed (s : State) : Bool := s.lifeCycle == 2

/-- The pins as the boundary register captures them: what stands on them is open (log entry 3). -/
def State.capturePins (s : State) (n : Nat) : State := s.took.emit .tdo 0 [s.free % 2 ^ n]

/-- EXTEST (R450): the boundary register drives the pins. -/
def execExtest (bits : List Bool) (s : State) : Answer :=
  .next (
    if s.boundaryClosed then s.bypass bits
    else
      let s := s.capturePins bits.length
      { s with jtag := { s.jtag with boundary := bits } }.emit .pin 2 (bits.map b2n))

/-- IDCODE (R450). -/
def execIdcode (s : State) : Answer :=
  .next (s.emit .tdo 0 [0x1 * 2 ^ 28 + 0xA008 * 2 ^ 12 + Config.maker.toNat * 2 + 1])

/-- SAMPLE_PRELOAD (R450). -/
def execSamplePreload (bits : List Bool) (s : State) : Answer :=
  .next (let s := s.capturePins bits.length
         { s with jtag := { s.jtag with boundary := bits } })

/-- CLAMP (R450): the boundary register drives the pins, and the bypass register is selected. -/
def execClamp (s : State) : Answer :=
  .next (if s.boundaryClosed then s.bypass [] else (s.emit .pin 2 (s.jtag.boundary.map b2n)).bypass [])

/-- HIGHZ (R450): every output is high-impedance. -/
def execHighz (s : State) : Answer := .next (if s.boundaryClosed then s.bypass [] else (s.emit .pin 3 []).bypass [])

/-- BYPASS (R450): its own code and every unassigned one. -/
def execBypass (code : BitVec 8) (tdi : Bool) (s : State) : Answer :=
  .next (if code.toNat ∈ [0x00, 0x01, 0x02, 0x04, 0x05, 0x10] then s else s.bypass [tdi])

/-- The access that a DAP Update-DR starts (R451), with what the next Capture-DR gives: read data and status. -/
def State.dapAccess (s : State) (v : W64) : State × W64 :=
  let a := 0x10000000 + fld v 27 2 * 4
  if !s.dapAllowed a then (s, 3)
  else if (blockOf a).isNone then (s.recordUnmapped (s.tagOf .dap) a, 2)
  else if bit v 1 then
    let s := (s.mmioWrite .dap a (BitVec.ofNat 32 (fld v 63 32))).settleHalt a
    (if Reg.DEBUG_ITR.holds a then s.runItr ((a - 0x18010008) / 0x100) else s, 0)
  else
    let (s, x) := s.mmioRead .dap a
    (s, BitVec.ofNat 64 (x.toNat * 2 ^ 32))

/-- DAP (R451): what the access before it answered leaves, then this one runs where [0] starts it. In SCRAPPED it acts as BYPASS. -/
def execDap (v : W64) (s : State) : Answer :=
  .next (
    if s.lifeCycle = 4 then s.bypass []
    else
      let s := s.emit .tdo 0 [s.jtag.dap.toNat]
      if !bit v 0 then s
      else
        let (s, r) := s.dapAccess v
        { s with jtag := { s.jtag with dap := r } })

end Sys2Proof.Machine
end

