-- ==== Sys2Proof/Machine/Host.lean ====
section
/-! DEFINITION. The host endpoint (chapter Host Endpoint and Virtual Functions): configuration requests (R395-R398), BAR requests (R399-R402, R416), ring pages
(R403-R405), interrupts (R406, R407), completions (R408, R409), Bus Master Enable (R411), resets of functions and of the link (R412-R415)
and the mailbox (R417). -/
namespace Sys2Proof.Machine

/-! ## Functions, records, events -/

/-- Is a function bound? -/
def State.fnBound (s : State) (f : Nat) : Bool := s.rb (Reg.HOSTEP_FBIND.at f) 31

/-- FSTATD follows the function (its PRESENT, D3, MSE and BME bits). -/
def State.showFn (s : State) (f : Nat) : State :=
  let a := Reg.HOSTEP_FSTATD.at f
  let n := s.hostFn f
  (((s.setRb a 3 (s.fnPresent f)).setRb a 6 n.d3).setRb a 1 n.mse).setRb a 0 n.bme

/-- FSTATD of every function. -/
def State.showFns (s : State) : State := (List.range 256).foldl (fun s f => s.showFn f) s

/-- An EVT bit is set, and VEC raised when IEN = 1. -/
def State.hostEvent (s : State) (b : Nat) : State :=
  let s := s.setRb Reg.HOSTEP_EVT.at b true
  if s.rb Reg.HOSTEP_EVTCTL.at 0 then s.raiseShared (s.rf Reg.HOSTEP_EVTCTL.at 25 16) else s

/-- AER status bits of the uncorrectable errors that R418 names. -/
def Aer.poisoned : Nat := 12
/-- Malformed TLP. -/
def Aer.malformed : Nat := 18
/-- Uncorrectable Internal Error. -/
def Aer.internal : Nat := 22
/-- The correctable errors' status bits (offset 0x110), held above the uncorrectable ones: a recovered replay, and Corrected Internal Error. -/
def Aer.replay : Nat := 32 + 12
/-- Corrected Internal Error. -/
def Aer.corrected : Nat := 32 + 14
/-- Completion Timeout. -/
def Aer.timeout : Nat := 14
/-- Completer Abort. -/
def Aer.abort : Nat := 15
/-- The record of what the endpoint found on a transfer of a function (R418 UNIT 0x01, 0x06, 0x07), with its AER bit. -/
def State.epRecord (s : State) (f : Nat) (chk : EpCheck) : State :=
  let corrected (unit code aer : Nat) : State :=
    (s.modFn 0 (fun n => { n with aer := n.aer ||| 2 ^ aer })).record { bank := 43, unit := unit, code := code, sev := .corrected }
  match chk with
  | .ok => s
  | .replayed => corrected 0x01 0x03 Aer.replay
  | .corrected => corrected 0x06 0x01 Aer.corrected
  | .bad => s.hostRecord f 0x07 0x02 0 Aer.internal

/-- The answer to a host request: completion status (0 SC, 1 UR, 2 CRS, 4 CA), the EP bit and data. -/
def State.reply (s : State) (f status : Nat) (ep : Bool) (data : List Nat) : State := s.emit .hostCpl f (status :: b2n ep :: data)

/-! ## Interrupts and held records -/

/-- The slots of ended operations whose record no submitter will return become orphans (R301, OCAUSE 3 of a reset function). -/
def State.orphanEnded (s : State) (qs : List Nat) (cause : Nat) : State :=
  (qs.foldl (fun s q => if (s.ring q).held.isEmpty then s else s.modRing q (fun r => { r with held := [] })) s).orphanWhere
    (fun _ l => qs.contains l.ring) cause

/-- The held records of a function are written in the order of their ENDED transitions, and then their raises follow (R411). -/
def State.releaseHeld (s : State) (f : Nat) : State :=
  let qs := List.range' (4 * f) 4
  let held := (qs.flatMap (fun q => (s.ring q).held.map (fun h => (q, h)))).foldl (fun l h => insertEnded (imageEtc h.2.image) h l) []
  let s := qs.foldl (fun s q => s.modRing q (fun r => { r with held := [] })) s
  let s := s.setRb (Reg.HOSTEP_FSTATD.at f) 2 false
  let s := held.foldl (fun s e =>
    let (q, h) := e.2
    if (s.ring q).fenced then (if h.final then s.orphanSlot h.slot 2 else s)
    else match s.cqPut q h.pos h.image with
      | (s, true) => s.cqWritten q h.pos
      | (s, false) => (if h.final then s.orphanSlot h.slot 1 else s).ringFault q) s
  let s := held.foldl (fun s e => if (s.ring e.2.1).fenced then s else s.noteRecord e.2.1 (!e.2.2.final)) s
  qs.foldl (fun s q => s.checkClosed q) s

/-! ## Function Level Reset -/

/-- An outstanding read ends as an error response for whoever waits for it (R412 step 2, R409). -/
def State.readFails (s : State) (who : ReadFor) (poison : Bool) : State :=
  match who with
  | .core c _ => s.answerLoad c (if poison then .poisoned else .error)
  | w => s.extAnswer w (.fail (if poison then 0x18 else 0x17))

/-- The reads of functions are squashed (R412 step 2): a core's or a peer's read ends as an error response now; an operation ends in step 3. -/
def State.squash (s : State) (fs : List Nat) : State :=
  let out := s.host.reads.filterMap (fun e => e.2.bind (fun r => if r.fn ∈ fs ∧ !r.squashed then some r.who else none))
  let reads := s.host.reads.map (fun e => (e.1, e.2.map (fun r => if r.fn ∈ fs then { r with squashed := true } else r)))
  let waits := s.host.queue.filterMap (fun e => if e.1 ∈ fs then some e.2.1 else none)
  let s := { s with host := { s.host with reads := reads, queue := s.host.queue.filter (fun e => !(e.1 ∈ fs)) } }
  (out ++ waits).foldl (fun s w => match w with
    | .core _ _ | .back _ _ => s.readFails w false
    | .op _ _ _ | .ring _ => s) s

/-- A ring pair of a reset function is disabled (R412 step 4), and what waited for its closing is answered. -/
def State.dropRing (s : State) (q : Nat) : State :=
  let s := if (s.ring q).closing = 1 then s.cmdDone 0 else s
  let s := s.modRing q (fun _ => RingPair.empty)
  { s with host := { s.host with pages := Sparse.set RingPage.reset s.host.pages q RingPage.reset } }

/-- A function's own registers take their reset values (R412 steps 4 and 5). AER status is sticky. -/
def State.clearFn (s : State) (f : Nat) : State :=
  let s := (List.range (msixSize f)).foldl (fun s v =>
    let e := s.msix f v
    let s := s.setPba f v false
    { s with host := { s.host with msix := Sparse.set MsixEntry.reset s.host.msix (64 * f + v) { e with ctl := e.ctl ||| 1 } } }) s
  let s := s.modFn f (fun n => { HostFn.reset with aer := n.aer })
  let a := Reg.HOSTEP_FSTATD.at f
  let s := (s.setRb a 5 false).setRb a 2 false
  if f = 0 then { s with host := { s.host with intpend := 0, mb := [] } } else s

/-- The steps of R412 for functions: their reads are squashed, their operations end and become orphans with OCAUSE 3, their ring pairs are
disabled, their registers reset. -/
def State.resetFns (s : State) (fs : List Nat) : State :=
  let qs := fs.flatMap (fun f => List.range' (4 * f) 4)
  let s := fs.foldl (fun s f => s.modFn f (fun n => { n with bme := false })) s
  let s := s.squash fs
  let s := ((s.markOps (fun l => qs.contains l.ring) 3).sweep).orphanEnded qs 3
  let s := qs.foldl (fun s q => s.dropRing q) s
  let s := fs.foldl (fun s f => s.clearFn f) s
  (s.updateInta.showFns).hostEvent 1

/-- Every VF. -/
def allVfs : List Nat := List.range' 1 255

/-- A function is reset (R412, R413): PF0's reset clears VF Enable and takes every VF with it. -/
def State.flr (s : State) (f : Nat) : State := if f = 0 then s.resetFns (0 :: allVfs) else s.resetFns [f]

/-- FLR (R412). -/
def execFlr (fn : BitVec 8) (s : State) : Answer := .next (if s.fnPresent fn.toNat then s.flr fn.toNat else s)

/-- VF Enable is cleared (R413). -/
def State.clearVfEnable (s : State) : State :=
  let v := Sparse.get (0 : W32) (s.hostFn 0).cfg 0x158
  let s := s.modFn 0 (fun n => { n with cfg := Sparse.set 0 n.cfg 0x158 (v &&& 0xFFFFFFFE) })
  s.resetFns allVfs

/-- VF_ENABLE_CLEAR (R413). -/
def execVfEnableClear (s : State) : Answer :=
  .next (if bit (Sparse.get (0 : W32) (s.hostFn 0).cfg 0x158) 0 then s.clearVfEnable else s)

/-- A change of Bus Master Enable (R411). -/
def State.changeBme (s : State) (f : Nat) (en : Bool) : State :=
  if (s.hostFn f).bme = en then s
  else
    let s := (((s.modFn f (fun n => { n with bme := en })).showFn f).hostEvent 2)
    if en ∧ !(s.hostFn f).d3 then (s.releaseHeld f).sendPending f else s

/-- BME_CHANGE (R411). -/
def execBmeChange (fn : BitVec 8) (en : Bool) (s : State) : Answer := .next (if s.fnPresent fn.toNat then s.changeBme fn.toNat en else s)

/-- A change of power state (R414): D3hot to D0 resets the function. -/
def State.changePower (s : State) (f : Nat) (d3 : Bool) : State :=
  if (s.hostFn f).d3 = d3 then s
  else
    let s := ((s.modFn f (fun n => { n with d3 := d3 })).showFn f).hostEvent 3
    if d3 then s else s.flr f

/-- D3HOT_TO_D0 (R414). -/
def execD3hotToD0 (fn : BitVec 8) (s : State) : Answer := .next (s.changePower fn.toNat false)

/-- The link is reset (R415): recorded, with the AER and every function's state gone. -/
def State.linkDown (s : State) (perst : Bool) : State :=
  let was := s.rb Reg.HOSTEP_LINKSTAT.at 0
  let s := (((s.setRf Reg.HOSTEP_LINKSTAT.at 20 16 0).setRf Reg.HOSTEP_LINKSTAT.at 11 8 0).setRb Reg.HOSTEP_LINKSTAT.at 0 false).setRb Reg.HOSTEP_LINKSTAT.at 1 perst
  let s := s.resetFns (List.range 256)
  let s := { s with host := { s.host with fns := s.host.fns.map (fun (e : Nat × HostFn) => (e.1, { e.2 with aer := 0 })) } }
  let s := { s with host := { s.host with fns := s.host.fns.filter (fun e => e.2 != HostFn.reset), reads := [] } }
  let s := s.record { bank := 43, unit := 0x00, code := 0x07, sev := .contained }
  if was then s.hostEvent 0 else s

/-- LINK_UP (R395, R415). -/
def execLinkUp (speed : BitVec 4) (width : BitVec 5) (s : State) : Answer :=
  .next (if s.rb Reg.HOSTEP_LINKSTAT.at 0 ∨ speed.toNat = 0 ∨ 5 < speed.toNat ∨ !(width.toNat ∈ [1, 4, 8, 16]) then s
    else ((((s.setRf Reg.HOSTEP_LINKSTAT.at 20 16 width.toNat).setRf Reg.HOSTEP_LINKSTAT.at 11 8 speed.toNat).setRb Reg.HOSTEP_LINKSTAT.at 0 true).setRb
      Reg.HOSTEP_LINKSTAT.at 1 false).hostEvent 0)

/-! ## Configuration space -/

/-- The headers of the capabilities of R397, in its order: a capability's ID and version as PCI Express numbers them (PRESUMED, log entry 28), with the offset
of the next. -/
def capHeader (f o : Nat) : Option Nat :=
  let ext (id ver next : Nat) : Option Nat := some (id + ver * 2 ^ 16 + next * 2 ^ 20)
  if o = 0x40 then some 0x00035001
  else if o = 0x50 then some 0x0002B010
  else if o = 0x100 then ext 0x01 2 0x148
  else if o = 0x148 then ext 0x0E 1 (if f = 0 then 0x150 else 0)
  else if f ≠ 0 then none
  else if o = 0x150 then ext 0x10 1 0x190
  else if o = 0x190 then ext 0x03 1 0x1A0
  else if o = 0x1A0 then ext 0x19 1 0x1C0
  else if o = 0x1C0 then ext 0x25 1 0x1D0
  else if o = 0x1D0 then ext 0x26 1 0x200
  else if o = 0x200 then ext 0x27 1 0x240
  else if o = 0x240 then ext 0x2A 1 0
  else none

/-- The bits of PF0's BARs and of the VF BARs that software sets (R399): 64-bit memory BARs, with their sizes; a VF BAR's is its size for each VF. -/
def barValue (o : Nat) (v : W32) : W32 :=
  let low (size k : Nat) : W32 := (v >>> size <<< size) ||| BitVec.ofNat 32 k
  if o = 0x10 then low 20 4 else if o = 0x18 then low 28 0xC else if o = 0x174 then low 16 4 else if o = 0x17C then low 21 0xC else v

/-- The offset of a register that software writes and reads back whole: BARs, VF BARs, Device Control 2 and Link Control, NumVFs and SR-IOV Control. -/
def cfgKept (f o : Nat) : Bool :=
  o == 0x78 || (f == 0 && ((decide (0x10 ≤ o) && decide (o ≤ 0x1C)) || o == 0x158 || o == 0x160 || (decide (0x174 ≤ o) && decide (o ≤ 0x180))))

/-- The dword of a configuration register (R396-R398): its value, and the bits that the manual leaves open. The placement of the fields is that of PCI
Express (log entry 28). -/
def State.cfgRead (s : State) (f o : Nat) : W32 × W32 :=
  let n := s.hostFn f
  let w (v : Nat) : W32 × W32 := (BitVec.ofNat 32 v, 0)
  let up := s.rb Reg.HOSTEP_LINKSTAT.at 0
  if o = 0x00 then (if f = 0 then (Config.vendor ||| BitVec.ofNat 32 (0xA008 * 2 ^ 16), 0) else w 0xFFFFFFFF)
  else if o = 0x04 then
    w (b2n n.mse * 2 + b2n n.bme * 4 + b2n n.intxOff * 2 ^ 10 + b2n (f == 0 && s.intaCond) * 2 ^ 19 + 2 ^ 20)
  else if o = 0x08 then w (0x088000 * 2 ^ 8 + 0x11)
  else if o = 0x2C then (Config.subsystem, 0)
  else if o = 0x0C ∨ o = 0x28 ∨ o = 0x30 ∨ o = 0x20 ∨ o = 0x24 ∨ (f ≠ 0 ∧ 0x10 ≤ o ∧ o ≤ 0x1C) then w 0
  else if cfgKept f o then (barValue o (Sparse.get (0 : W32) n.cfg o), 0)
  else if o = 0x34 then w 0x40
  else if o = 0x3C then w (if f = 0 then 0x100 else 0)
  else if o = 0x44 then w (if n.d3 then 3 else 0)
  else if o = 0x54 then (BitVec.ofNat 32 (2 + 2 ^ 5 + 2 ^ 15 + 2 ^ 28), 0xFC0)
  else if o = 0x58 then (s.devCtl f, 0)
  else if o = 0x5C then (BitVec.ofNat 32 (5 + 16 * 2 ^ 4 + 2 * 2 ^ 10 + 2 ^ 22), 0xFF03F000)
  else if o = 0x60 then
    (BitVec.ofNat 32 (if up then s.rf Reg.HOSTEP_LINKSTAT.at 11 8 * 2 ^ 16 + s.rf Reg.HOSTEP_LINKSTAT.at 20 16 * 2 ^ 20 + 2 ^ 28 else 2 ^ 28), 0xC000FFFF)
  else if o = 0x74 then w (3 + 2 ^ 16 + 2 ^ 17)
  else if o = 0x7C then (0x3E, 0xFFFFFE01)
  else if o = 0xB0 then w (0x11 + (msixSize f - 1) * 2 ^ 16 + b2n n.fnMask * 2 ^ 30 + b2n n.msixEn * 2 ^ 31)
  else if o = 0xB4 then w (if f = 0 then 0x20000 else 0x8000)
  else if o = 0xB8 then w (if f = 0 then 0x21000 else 0x9000)
  else if o = 0x104 then w (n.aer % 2 ^ 32)
  else if o = 0x110 then w (n.aer / 2 ^ 32)
  else if o = 0x14C then w 0
  else if f = 0 ∧ o = 0x15C then w (255 + 255 * 2 ^ 16)
  else if f = 0 ∧ o = 0x164 then w (1 + 1 * 2 ^ 16)
  else if f = 0 ∧ o = 0x168 then w (0xA009 * 2 ^ 16)
  else if f = 0 ∧ (o = 0x16C ∨ o = 0x170) then w 1
  else if f = 0 ∧ o = 0x194 then w (leNat (Config.serial.take 4))
  else if f = 0 ∧ o = 0x198 then w (leNat ((Config.serial.drop 4).take 4))
  else match capHeader f o with
    | some v => w v
    | none => if (0x40 ≤ o ∧ o < 0xC0) ∨ (0x100 ≤ o ∧ o < 0x150) ∨ (f = 0 ∧ 0x150 ≤ o ∧ o < 0x280) then (0, 0xFFFFFFFF) else w 0

/-- Does the boot profile stand (R475): a full boot waits for a set over PCIe, or in recovery download mode? -/
def State.bootProfile (s : State) : Bool :=
  match s.boot.run with
  | some r => r.recovery || r.left.head? == some 3
  | none => false

/-- A configuration write of a whole dword (R396, R397, R411, R412, R414). -/
def State.cfgWrite (s : State) (f o : Nat) (v : W32) : State :=
  let keep (m : W32) : State := s.modFn f (fun n => { n with cfg := Sparse.set 0 n.cfg o (v &&& m) })
  if o = 0x04 then
    let s := (s.modFn f (fun n => { n with mse := bit v 1, intxOff := bit v 10 })).showFn f
    let s := if f = 0 then s.updateInta else s
    s.changeBme f (bit v 2)
  else if f = 0 ∧ ((0x10 ≤ o ∧ o ≤ 0x1C) ∨ (0x174 ≤ o ∧ o ≤ 0x180)) then
    s.modFn f (fun n => { n with cfg := Sparse.set 0 n.cfg o (barValue o v) })
  else if o = 0x44 then (if fld v 1 0 = 3 then s.changePower f true else if fld v 1 0 = 0 then s.changePower f false else s)
  else if o = 0x58 then
    let s := s.modFn f (fun n => { n with cfg := Sparse.set 0 n.cfg o ((v &&& 0x7FFF) ^^^ 0x2810) })
    if bit v 15 then s.flr f else s
  else if o = 0x78 then
    (keep 0x0000FFFF).modFn f (fun n => { n with tag10 := bit v 12, rangeB := decide (5 ≤ fld v 3 0) && decide (fld v 3 0 ≤ 6) })
  else if o = 0xB0 then (s.modFn f (fun n => { n with msixEn := bit v 31, fnMask := bit v 30 })).sendPending f
  else if o = 0x104 then s.modFn f (fun n => { n with aer := n.aer - (n.aer &&& v.toNat) })
  else if o = 0x110 then s.modFn f (fun n => { n with aer := n.aer - (n.aer &&& v.toNat * 2 ^ 32) })
  else if f = 0 ∧ o = 0x158 then
    let was := bit (Sparse.get (0 : W32) (s.hostFn 0).cfg 0x158) 0
    if was ∧ !bit v 0 then s.clearVfEnable else (keep (if s.bootProfile then 0x0000001E else 0x0000001F)).showFns
  else if f = 0 ∧ o = 0x160 then
    (if bit (Sparse.get (0 : W32) (s.hostFn 0).cfg 0x158) 0 ∨ 255 < fld v 15 0 then s else keep 0x0000FFFF)
  else s

/-- The dword that a write with byte enables makes of an old one. -/
def byteMerge (old v : W32) (be : BitVec 4) : W32 :=
  (List.range 4).foldl (fun w i => if bit be i then setFld w (8 * i + 7) (8 * i) (fld v (8 * i + 7) (8 * i)) else w) old

/-- CONFIGURATION_REQUEST (R395-R398): CRS until the image has been applied; a function that is not present answers Unsupported Request. -/
def execConfigurationRequest (fn : BitVec 8) (off : BitVec 12) (wr : Option (W32 × BitVec 4)) (s : State) : Answer :=
  .next (
    let f := fn.toNat
    let o := off.toNat / 4 * 4
    if !s.rb Reg.HOSTEP_LINKSTAT.at 0 then s
    else if !(s.memc.applied || s.bootProfile) then s.reply f 2 false []
    else if !s.fnPresent f then s.reply f 1 false []
    else match wr with
      | some (v, be) => ((s.cfgWrite f o (byteMerge (s.cfgRead f o).1 v be)).reply f 0 false [])
      | none =>
        let (v, open_) := s.cfgRead f o
        if open_ = 0 then s.reply f 0 false [v.toNat] else s.took.reply f 0 false [(v ||| (BitVec.ofNat 32 s.free &&& open_)).toNat])

/-! ## Ring pages -/

/-- A ring page. -/
def State.page (s : State) (q : Nat) : RingPage := Sparse.get RingPage.reset s.host.pages q

/-- A ring page, changed. -/
def State.modPage (s : State) (q : Nat) (g : RingPage → RingPage) : State :=
  { s with host := { s.host with pages := Sparse.set RingPage.reset s.host.pages q (g (s.page q)) } }

/-- The context record that an ENABLE writes (R265, R404). -/
def State.pageRecord (s : State) (q : Nat) : List Byte :=
  let p := s.page q
  leBytes 4 (1 + s.fnPid (q / 4) * 2 ^ 8 + fld p.cfg 3 0 * 2 ^ 16 + fld p.cfg 7 4 * 2 ^ 20) ++ leBytes 4 p.intr.toNat ++
  leBytes 4 p.sqL.toNat ++ leBytes 4 p.sqH.toNat ++ leBytes 4 p.cqL.toNat ++ leBytes 4 p.cqH.toNat ++ List.replicate 40 0

/-- A write of RPCMD (R404). -/
def State.rpcmd (s : State) (q op : Nat) : State :=
  let f := q / 4
  let done (s : State) (r : Nat) : State := s.modPage q (fun p => { p with busy := false, result := r })
  if (s.page q).busy ∨ op = 0 ∨ 3 < op then s
  else if !s.fnBound f ∨ (s.hostFn f).fenced then done s 6
  else if op = 1 then
    if fld (s.page q).intr 9 0 ≥ msixSize f then done s 2
    else if (s.ring q).enabled ∧ !(s.ring q).fenced then done s 1
    else match s.fabricWrite cssTag (s.ringRecord q) (s.pageRecord q) with
      | (s, some _) => done s 4
      | (s, none) =>
        let (s, r) := s.rpEnable false q
        done s r
  else
    let s := s.modPage q (fun p => { p with busy := true })
    match s.rpClose false q (op == 3) 2 with
    | (s, some r) => done s r
    | (s, none) => s.sweep

/-- RPCMD_ENABLE (R404). -/
def execRpcmdEnable (q : BitVec 10) (s : State) : Answer := .next (s.barWrite (q.toNat / 4) (fun s => s.rpcmd q.toNat 1))
/-- RPCMD_DISABLE (R404). -/
def execRpcmdDisable (q : BitVec 10) (s : State) : Answer := .next (s.barWrite (q.toNat / 4) (fun s => s.rpcmd q.toNat 2))
/-- RPCMD_FLUSH (R404). -/
def execRpcmdFlush (q : BitVec 10) (s : State) : Answer := .next (s.barWrite (q.toNat / 4) (fun s => s.rpcmd q.toNat 3))

/-- A read of a ring page register. -/
def State.pageRead (s : State) (q o : Nat) : W32 :=
  let p := s.page q
  let r := s.ring q
  let w (n : Nat) : W32 := BitVec.ofNat 32 n
  if o = 0x00 then p.sqL else if o = 0x04 then p.sqH else if o = 0x08 then p.cqL else if o = 0x0C then p.cqH
  else if o = 0x10 then p.cfg else if o = 0x14 then p.intr
  else if o = 0x1C then
    w (b2n (!r.held.isEmpty) * 2 ^ 8 + b2n p.busy * 2 ^ 7 + p.result % 8 * 2 ^ 4 + b2n r.fenced * 2 + b2n r.enabled)
  else if o = 0x20 then w r.sqTail else if o = 0x24 then w r.cqHead else if o = 0x28 then w r.sqHead else if o = 0x2C then w r.cqTail
  else 0

/-- A write of a ring page register (R404, R405). -/
def State.pageWrite (s : State) (q o : Nat) (v : W32) : State :=
  if o = 0x00 then s.modPage q (fun p => { p with sqL := v })
  else if o = 0x04 then s.modPage q (fun p => { p with sqH := v })
  else if o = 0x08 then s.modPage q (fun p => { p with cqL := v })
  else if o = 0x0C then s.modPage q (fun p => { p with cqH := v })
  else if o = 0x10 then s.modPage q (fun p => { p with cfg := v &&& 0xFF })
  else if o = 0x14 then s.modPage q (fun p => { p with intr := v &&& 0xFFFF83FF })
  else if o = 0x18 then s.rpcmd q (fld v 1 0)
  else if o = 0x20 then s.writeSqTail q (fld v 15 0)
  else if o = 0x24 then s.writeCqHead q (fld v 15 0)
  else s

/-! ## BAR0 -/

/-- FSTAT of a function. -/
def State.fstat (s : State) (f : Nat) : W32 :=
  let run := s.rb Reg.CSS_STAT.at 0
  let fen := (s.hostFn f).fenced
  BitVec.ofNat 32 (b2n fen * 8 + b2n run * 4 + b2n (s.fnBound f) * 2 + b2n (s.fnBound f && run && !fen))

/-- A write of INTPEND (R407). -/
def State.writeIntpend (s : State) (v : W32) : State :=
  { s with host := { s.host with intpend := s.host.intpend &&& ~~~ (BitVec.truncate 16 v) } }.updateInta

/-- INTPEND_CLEAR (R407). -/
def execIntpendClear (v : W32) (s : State) : Answer := .next (s.barWrite 0 (fun s => s.writeIntpend v))

/-- A message from the host goes to the hypervisor (R417). -/
def State.mailIn (s : State) : State :=
  ((List.range 4).foldl (fun s i => s.setReg (Reg.HOSTEP_MB_H2G.at i) (Sparse.get 0 s.host.mb (4 + i))) s).hostEvent 4

/-- MBSEND (R417). -/
def execMbsend (r : Requester) (s : State) : Answer := .next (s.byReq r Reg.HOSTEP_MBSEND.at State.mailOut)

/-- The MSI-X entry word at an offset of the table. -/
def State.msixRead (s : State) (f o : Nat) : W32 :=
  let e := s.msix f (o / 16)
  if o % 16 = 0 then e.addrL else if o % 16 = 4 then e.addrH else if o % 16 = 8 then e.data else e.ctl

/-- A write of the MSI-X table (R406): an entry unmasked with its PBA bit set sends its message. -/
def State.msixWrite (s : State) (f o : Nat) (v : W32) : State :=
  let e := s.msix f (o / 16)
  let e := if o % 16 = 0 then { e with addrL := v &&& 0xFFFFFFFC } else if o % 16 = 4 then { e with addrH := v }
    else if o % 16 = 8 then { e with data := v } else { e with ctl := v &&& 1 }
  { s with host := { s.host with msix := Sparse.set MsixEntry.reset s.host.msix (64 * f + o / 16) e } }.sendPending f

/-- The PBA word at an offset. -/
def State.pbaRead (s : State) (f o : Nat) : W32 :=
  BitVec.ofNat 32 ((List.range 32).foldl (fun a i => a + b2n (decide (8 * o + i < msixSize f) && Sparse.get false s.host.pba (64 * f + 8 * o + i)) * 2 ^ i) 0)

/-- The base of ring page 0, the MSI-X table and the PBA in BAR0 (R400). -/
def barBase (f : Nat) : Nat × Nat × Nat := if f = 0 then (0x10000, 0x20000, 0x21000) else (0x1000, 0x8000, 0x9000)

/-- A read of a BAR0 register (R400, R416). -/
def State.bar0Read (s : State) (f o : Nat) : W32 :=
  let (rp, tb, pb) := barBase f
  if o = 0 then s.fstat f
  else if rp ≤ o ∧ o < rp + 0x4000 then s.pageRead (4 * f + (o - rp) / 0x1000) ((o - rp) % 0x1000)
  else if tb ≤ o ∧ o < tb + 16 * msixSize f then s.msixRead f (o - tb)
  else if pb ≤ o ∧ o < pb + (msixSize f + 63) / 64 * 8 then s.pbaRead f (o - pb)
  else if f ≠ 0 then 0
  else if o = 0x10 then BitVec.zeroExtend 32 s.host.intpend
  else if 0x100 ≤ o ∧ o < 0x120 then Sparse.get 0 s.host.mb ((o - 0x100) / 4)
  else if o = 0x124 then Sparse.get 0 s.host.mb 8
  else 0

/-- A write of a BAR0 register. -/
def State.bar0Write (s : State) (f o : Nat) (v : W32) : State :=
  let (rp, tb, _) := barBase f
  if rp ≤ o ∧ o < rp + 0x4000 then s.pageWrite (4 * f + (o - rp) / 0x1000) ((o - rp) % 0x1000) v
  else if tb ≤ o ∧ o < tb + 16 * msixSize f then s.msixWrite f (o - tb) v
  else if f ≠ 0 then s
  else if o = 0x10 then s.writeIntpend v
  else if 0x110 ≤ o ∧ o < 0x120 then s.setMb ((o - 0x100) / 4) v
  else if o = 0x120 then (if bit v 16 then s.mailIn else s)
  else if o = 0x124 then
    (let old := Sparse.get 0 s.host.mb 8
     s.setMb 8 ((old &&& (if bit v 16 then 0 else 0x10000)) ||| (v &&& 0x803F)))
  else s

/-- A request to a BAR0 (R401): only aligned 32-bit requests reach a register. -/
def State.bar0Request (s : State) (f off len : Nat) (wr : Option W32) (ep : Bool) : State :=
    if !s.rb Reg.HOSTEP_LINKSTAT.at 0 ∨ off + len > (if f = 0 then 2 ^ 20 else 2 ^ 16) then s
    else if !s.barOpen f then
      let s := s.hostRecord f 0x05 0x07 0 Aer.unsupported
      if wr.isNone then s.reply f 1 false [] else s
    else if len ≠ 4 ∨ off % 4 ≠ 0 then
      let s := s.hostRecord f 0x05 0x07 0 Aer.abort
      if wr.isNone then s.reply f 4 false [] else s
    else match wr with
      | none => s.reply f 0 false [(s.bar0Read f off).toNat]
      | some v => if ep then s.hostRecord f 0x03 0x0B 0 Aer.poisoned else s.bar0Write f off v

/-! ## BAR2 -/

/-- Where a window request leads (R402). -/
def State.window (s : State) (f x : Nat) (write : Bool) : Option Nat :=
  if f = 0 then
    (match (List.range 16).find? (fun i =>
      let o := s.reg (Reg.HOSTEP_WIN_OFS.at i)
      bit o 31 && bit o (if write then 30 else 29) && decide (fld o 15 0 ≤ x / 4096) && decide (x / 4096 ≤ s.rf (Reg.HOSTEP_WIN_LIM.at i) 15 0)) with
     | none => none
     | some i =>
       some (s.rf (Reg.HOSTEP_WIN_PA_LO.at i) 31 12 * 2 ^ 12 + s.rf (Reg.HOSTEP_WIN_PA_HI.at i) 11 0 * 2 ^ 32 + x - s.rf (Reg.HOSTEP_WIN_OFS.at i) 15 0 * 4096))
  else
    let o := s.reg (Reg.HOSTEP_VWIN_LO.at f)
    if bit o 0 ∧ bit o (if write then 2 else 1) then some (fld o 31 21 * 2 ^ 21 + s.rf (Reg.HOSTEP_VWIN_HI.at f) 11 0 * 2 ^ 32 + x) else none

/-- The lines that a write touches are stored poisoned (R409). -/
def State.poisonLines (s : State) (a n : Nat) : State :=
  (List.range ((a % 64 + n + 63) / 64)).foldl (fun s i => { s with mem := s.mem.setPoison (a / 64 + i) true }) s

/-- A refused window request (R402, R418 UNIT 0x04). -/
def State.windowRefused (s : State) (f x : Nat) (read : Bool) : State :=
  let s := s.hostRecord f 0x04 0x09 x Aer.abort
  if read then s.reply f 4 false [] else s

/-- BAR2_REQUEST (R402, R409); chk: what the endpoint finds on the transfer (R418). -/
def execBar2Request (fn : BitVec 8) (off len : Nat) (wr : Option (List Byte)) (ep : Bool) (chk : EpCheck) (s : State) : Answer :=
  .next (
    let f := fn.toNat
    let bad := chk = .bad
    let n := match wr with | some bs => bs.length | none => len
    if !s.rb Reg.HOSTEP_LINKSTAT.at 0 ∨ off + n > (if f = 0 then 2 ^ 28 else 2 ^ 21) ∨ off / 4096 ≠ (off + n - 1) / 4096 then s
    else if !s.barOpen f then
      let s := s.hostRecord f 0x05 0x07 0 Aer.unsupported
      if wr.isNone then s.reply f 1 false [] else s
    else
      let t : AccessTag := { world := false, pid := s.fnPid f, cls := 2, src := f }
      match s.window f off wr.isSome, wr with
      | none, _ => s.windowRefused f off wr.isNone
      | some a, none =>
        match s.fabricRead t a n with
        | (s, .ok bs) => (s.epRecord f chk).reply f 0 bad (bs.map BitVec.toNat)
        | (s, .error .poisoned) => s.reply f 0 true ((s.bytes a n).map BitVec.toNat)
        | (s, .error _) => s.windowRefused f off true
      | some a, some bs =>
        match s.fabricWrite t a bs with
        | (s, some _) => s.windowRefused f off false
        | (s, none) =>
          let s := if ep ∨ bad then s.poisonLines a bs.length else s
          (if ep then s.hostRecord f 0x03 0x0B 0 Aer.poisoned else s).epRecord f chk)

/-! ## Completions -/

/-- The reads that waited for a tag take those that are free, oldest first; one whose function may send no request any more ends as an error response
and a ring pair's read of an SQ entry is made again later (R408, R411). -/
def State.nextReads : Nat → State → State
  | 0, s => s
  | k + 1, s =>
    match s.host.queue with
    | [] => s
    | (f, who, a, n) :: rest =>
      let u := { s with host := { s.host with queue := rest } }
      if !s.fnOpen f then
        (match who with
         | .ring q => u.modRing q (fun r => { r with asked := false })
         | _ => u.readFails who false).nextReads k
      else if s.freeReadTag.isSome then (u.hostRead f who a n).nextReads k else s

/-- A tag of the endpoint is free again, for the reads that wait. -/
def State.freeRead (s : State) (tag : Nat) : State :=
  let s := { s with host := { s.host with reads := Sparse.set none s.host.reads tag none } }
  State.nextReads s.host.queue.length s

/-- HOST_COMPLETION (R409, R412): an outstanding read is answered; a squashed one is counted and its tag returns to use. chk: what the endpoint finds on the
transfer (R418): data that its buffers lost is poisoned. -/
def execHostCompletion (tag : Nat) (res : HostCpl) (chk : EpCheck) (s : State) : Answer :=
  .next (match Sparse.get none s.host.reads tag with
    | none => s
    | some r =>
      let s := (s.epRecord r.fn chk).freeRead tag
      if r.squashed then s.countUp Reg.HOSTEP_SQUASHCNT.at 32 1
      else match res with
        | .data bs =>
          if chk = .bad then s.readFails r.who true
          else (match r.who with
           | .core c off => s.loadPart c off bs
           | w => s.extAnswer w (.bytes bs))
        | .error => s.readFails r.who false
        | .malformed => (s.hostRecord r.fn 0x05 0x07 0 Aer.malformed).readFails r.who false
        | .poisoned => (s.hostRecord r.fn 0x03 0x0B 0 Aer.poisoned).readFails r.who true)

/-- COMPLETION_TIMEOUT (R408, R412). -/
def execCompletionTimeout (tag : Nat) (s : State) : Answer :=
  .next (match Sparse.get none s.host.reads tag with
    | none => s
    | some r =>
      let s := s.freeRead tag
      if r.squashed then s
      else (((s.countUp Reg.HOSTEP_CPLTOCNT.at 32 1).hostRecord r.fn 0x02 0x06 0 Aer.timeout).readFails r.who false))

end Sys2Proof.Machine
end

