-- ==== Sys2Proof/Machine/Relay.lean ====
section
/-! DEFINITION. What arrives on the Relay links (chapter Relay Links and the Device Hierarchy): remote windows (R378-R380), forwarded steps and
back-accesses (R381-R384), the ledger's messages (R307-R311, R385-R387), the hierarchy (R374-R376, R388, R389) and elapsed time
(R390). -/
namespace Sys2Proof

/-- A number in a payload: offset and bytes. -/
def Flit.num (f : Flit) (o n : Nat) : Nat := Machine.leNat ((f.payload.drop o).take n)

end Sys2Proof

namespace Sys2Proof.Machine

/-! ## Taking and forwarding flits -/

/-- The entry of a flit in a port's receive buffer is freed (R368). -/
def State.freeEntry (s : State) (p : Nat) (f : Flit) : State :=
  s.modPort p (fun q => { q with rx := dropFirst f q.rx, freed := Sparse.set 0 q.freed f.vl ((Sparse.get 0 q.freed f.vl + 1) % 0x10000) })

/-- A flit for another device goes on through the crossbar (R368, R377): it leaves its entry when its output port grants a baton; without
a route it is discarded, and a request answered NOROUTE. -/
def State.crossbar (s : State) (p : Nat) (f : Flit) : State :=
  match s.routeTo f.dst with
  | some o =>
    let q := s.port o
    if q.batons f.vl ≤ (q.queue.filter (fun g => g.vl == f.vl)).length then s else (s.freeEntry p f).sendOn o f
  | none => (s.freeEntry p f).noRoute p f

/-- The oldest flit of a VL at a port, when its TYPE is the command's: forwarded, or taken out of its buffer for an action. -/
def State.take (s : State) (p vl ty : Nat) (act : State → Flit → State) : State :=
  if p ≥ 6 then s
  else match (s.port p).rx.find? (fun f => f.vl == vl) with
    | none => s
    | some f =>
      if f.ty ≠ ty then s
      else if f.dst ≠ 31 ∧ f.dst ≠ s.devIndex then s.crossbar p f
      else act (s.freeEntry p f) f

/-! ## Remote windows -/

/-- The inbound map's decision for a window offset (R379): the physical address and tag. -/
def State.inbound (s : State) (p src x : Nat) (write : Bool) : Option (Nat × AccessTag) :=
  match (List.range 16).find? (fun i =>
    let o := s.reg (Reg.RELAY_IMAP_OFS.at p i)
    let a := s.reg (Reg.RELAY_IMAP_ATTR.at p i)
    bit o 31 && decide (fld o 23 0 ≤ x / 4096 % 2 ^ 24) && decide (x / 4096 % 2 ^ 24 ≤ s.rf (Reg.RELAY_IMAP_LIM.at p i) 23 0) &&
    decide (src < 31) && s.rb (Reg.RELAY_IMAP_SEND.at p i) src && bit a (if write then 10 else 9)) with
  | none => none
  | some i =>
    let a := s.reg (Reg.RELAY_IMAP_ATTR.at p i)
    some (s.rf (Reg.RELAY_IMAP_PA_LO.at p i) 31 12 * 2 ^ 12 + s.rf (Reg.RELAY_IMAP_PA_HI.at p i) 11 0 * 2 ^ 32 +
            x - s.rf (Reg.RELAY_IMAP_OFS.at p i) 23 0 * 4096,
          { world := bit a 8, pid := fld a 5 0, cls := 3, src := src * 8 + p })

/-- The record of a refusal by the inbound map (R379, R394). -/
def State.inboundRefusal (s : State) (p src x : Nat) : State :=
  s.record { bank := portBank p, unit := 0x05, code := 0x09, sev := .deferred,
             tag := some { world := false, pid := 0, cls := 3, src := src * 8 + p }, misc0 := x % 2 ^ 32, misc1 := x / 2 ^ 32 }

/-- The response status of a failed access (R379). -/
def accStatus : AccErr → Nat
  | .poisoned => 2 | _ => 1

/-- RD (R379): performed at the target and answered. -/
def execRd (port : Nat) (s : State) : Answer :=
  .next (s.take port 0 0 (fun s f =>
    let x := f.num 0 8 % 2 ^ 36
    match s.inbound port f.src x false with
    | none => (s.inboundRefusal port f.src x).respond f 0 1 []
    | some (a, t) =>
      match s.fabricRead t a (min (f.info % 256) (64 - x % 64)) with
      | (s, .ok bs) => s.respond f 0 0 bs
      | (s, .error e) => s.respond f 0 (accStatus e) []))

/-- WR (R366): it waits for its WRD, which is the next VL0 flit of its source. -/
def execWr (port : Nat) (s : State) : Answer :=
  .next (s.take port 0 1 (fun s f => s.modPort port (fun q => { q with wr := Sparse.set none q.wr f.src (some f) })))

/-- A back-access is allowed (R384): the slot is handed off and forwarded, its GEN is the carried one, and PEER names the sender and its
slot. The tag of the access. -/
def State.backTag (s : State) (f : Flit) : Option AccessTag :=
  let n := f.num 8 2 % numSlots
  let l := s.slot n
  if l.st = 3 ∧ l.handoff ∧ l.fwd ∧ l.gen = f.num 12 2 ∧ l.peer = f.src ∧ l.peerSlot = f.num 10 2 % numSlots then
    some { world := l.world, pid := l.pid, cls := 1, src := l.bPath }
  else none

/-- WRD (R366, R379, R384): the write that waits for it is performed and answered. -/
def execWrd (port : Nat) (s : State) : Answer :=
  .next (s.take port 0 2 (fun s d =>
    match Sparse.get none (s.port port).wr d.src with
    | none => s
    | some f =>
      let s := s.modPort port (fun q => { q with wr := Sparse.set none q.wr d.src none })
      let x := f.num 0 8
      let bs := ((d.payload.drop (x % 64)).take (min (f.info % 256) (64 - x % 64)))
      if f.ty = 1 then
        match s.inbound port f.src (x % 2 ^ 36) true with
        | none => (s.inboundRefusal port f.src (x % 2 ^ 36)).respond f 1 1 []
        | some (a, t) =>
          match s.fabricWrite t a bs with
          | (s, none) => s.respond f 1 0 []
          | (s, some e) => s.respond f 1 (accStatus e) []
      else
        match s.backTag f with
        | none => s.respond f 1 4 []
        | some t =>
          if s.isHost x then
            let fn := fnOfRing (s.slot (f.num 8 2 % numSlots)).ring
            if s.fnOpen fn then (s.hostWrite fn x bs).respond f 1 0 [] else s.respond f 1 1 []
          else match s.fabricWrite t x bs with
            | (s, none) => s.respond f 1 0 []
            | (s, some e) => s.respond f 1 (accStatus e) []))

/-- BRD (R384): the submitter's memory is read; from host memory the answer follows its completion. -/
def execBrd (port : Nat) (s : State) : Answer :=
  .next (s.take port 0 4 (fun s f =>
    let x := f.num 0 8
    let n := min (f.info % 256) (64 - x % 64)
    match s.backTag f with
    | none => s.respond f 0 4 []
    | some t =>
      if s.isHost x then
        let fn := fnOfRing (s.slot (f.num 8 2 % numSlots)).ring
        if s.fnOpen fn then s.hostRead fn (.back f.src f.tag) x n else s.respond f 0 1 []
      else match s.fabricRead t x n with
        | (s, .ok bs) => s.respond f 0 0 bs
        | (s, .error e) => s.respond f 0 (accStatus e) []))

/-- BWR (R384): it waits for its WRD. -/
def execBwr (port : Nat) (s : State) : Answer :=
  .next (s.take port 0 5 (fun s f => s.modPort port (fun q => { q with wr := Sparse.set none q.wr f.src (some f) })))

/-! ## Responses -/

/-- The back-writes of a step have been answered (R384): its report is taken, or it fails with BUSERR. -/
def State.backWritten (s : State) (n : Nat) (ok : Bool) (status : Nat) : State :=
  let s := s.modOp n (fun o => { o with out := o.out - 1, got := if ok then o.got else o.got ++ [(0, 0, some (.fail status))] })
  match s.op? n with
  | none => s
  | some o =>
    if o.phase ≠ .backWrite ∨ o.out ≠ 0 then s
    else match o.got.findSome? (fun x => match x.2.2 with | some (.fail e) => some e | _ => none) with
      | some e => s.deviceFail n e 0
      | none => s.deviceDone n o.rep.1 o.rep.2.1 o.rep.2.2

/-- The outcome of a request that its requester's chapter gives (R380). status 2 is poisoned data, any other but 0 an error; late: no
response came, so a forwarded step waits on. -/
def State.answerWho (s : State) (who : ReqFor) (status : Nat) (data : List Byte) (late : Bool) : State :=
    match who with
    | .coreRd c off n =>
      if status = 0 then s.loadPart c off (data.take n) else s.answerLoad c (if status = 2 then .poisoned else .error)
    | .coreWr c dev lvl va _ =>
      if c ≥ numCores then s
      else
        let s := if status = 0 then s else s.reportStore c dev lvl va
        if dev then s.acknowledged c else s
    | .op n a k false => s.extAnswer (.op n a k) (if status = 0 then .bytes (data.take k) else .fail (if status = 2 then 0x18 else 0x17))
    | .op n _ _ true => s.backWritten n (status == 0) (if status = 2 then 0x18 else 0x17)
    | .fwd n g =>
      if status = 0 ∨ late then s
      else match s.handedSlot (s.slot n).subch with
        | some (m, _) =>
          if m = n ∧ (s.slot n).fwd ∧ (s.slot n).gen = g then
            (s.touchSlot n (fun l => { l with fwd := false })).deviceFail n 0x1A 0x09
          else s
        | none => s

/-- The requests that waited for a tag take what is free, oldest first; one without a route any more ends as NOROUTE does (R366, R377). -/
def State.takeTags : Nat → State → State
  | 0, s => s
  | n + 1, s =>
    match s.relay.queue with
    | [] => s
    | (p, f, wrd, who) :: rest =>
      let u := { s with relay := { s.relay with queue := rest } }
      match s.waitingPort p f who with
      | none => (u.answerWho who 3 [] false).takeTags n
      | some o => if s.freeTag.isSome then (u.request o f wrd who).takeTags n else s

/-- A request is answered (R380): its tag is free for the requests that wait, and its requester has its outcome. -/
def State.answerRequest (s : State) (t : Nat) (status : Nat) (data : List Byte) (late : Bool) : State :=
  match Sparse.get none s.relay.reqs t with
  | none => s
  | some r =>
    let s := s.releaseTag t
    (State.takeTags s.relay.queue.length s).answerWho r.who status data late

/-- RDR (R380). -/
def execRdr (port : Nat) (s : State) : Answer :=
  .next (s.take port 1 0 (fun s f => s.answerRequest f.tag f.info f.payload false))

/-- CMP (R380). -/
def execRelayCmp (port : Nat) (s : State) : Answer := .next (s.take port 1 1 (fun s f => s.answerRequest f.tag f.info [] false))

/-- REQUEST_TIMEOUT (R380, R394 UNIT 0x06). -/
def execRequestTimeout (tag : BitVec 8) (s : State) : Answer :=
  .next (match Sparse.get none s.relay.reqs tag.toNat with
    | none => s
    | some r => (s.portRecord r.port 0x06 0x06 .deferred 0 0).answerRequest tag.toNat 1 [] true)

/-! ## Forwarded steps -/

/-- May an FWD enter a ring pair (R382): enabled, with room, its key not held, its submitter not lost? -/
def State.fwdOk (s : State) (f : Flit) : Bool :=
  let r := s.ring (0x500 + nfld (f.num 0x20 4) 19 12)
  r.enabled && !r.fenced && r.closing == 0 && decide (r.fwds.length < r.sqSize) &&
  !((f.src, f.num 0x24 4 % numSlots, f.num 0x26 2) ∈ s.relay.noslot) && !(f.src ∈ s.relay.lost)

/-- FWD (R382, R383): the entry goes into the ring pair's internal SQ and is answered. The record's TAG is not carried (log entry 3). -/
def execFwd (port : Nat) (s : State) : Answer :=
  .next (s.take port 0 3 (fun s f =>
    if !s.fwdOk f then s.respond f 1 1 []
    else
      let w := f.num 0x20 4
      let pa := f.num 0x28 8
      let e : FwdEntry :=
        { sqe := w % 4096 + s.free % 4096 * 2 ^ 12 + pa / 32 % 2 ^ 39 * 2 ^ 24, ccd := Ccd.ofBytes (f.payload.take 32), pa := pa, dev := f.src,
          slot := f.num 0x24 4 % numSlots, gen := f.num 0x26 2 }
      (s.took.modRing (0x500 + nfld w 19 12) (fun r => { r with fwds := r.fwds ++ [e], sqTail := (r.sqTail + 1) % 65536 })).respond f 1 0 []))

/-! ## The ledger's messages -/

/-- An answer to a ledger message (R385). -/
def State.answerLedger (s : State) (f : Flit) (ty st : Nat) : State :=
  s.sendTo { ledgerFlit ty f.src (f.num 0 2) (f.num 2 2) st (f.num 6 2) s.clk.etc [] with src := s.devIndex }

/-- The Deferred record of a mirror update that is discarded (R312 UNIT 0x15). -/
def State.mirrorError (s : State) (n : Nat) : State :=
  s.record { bank := 34, unit := 0x15, code := 0x07, sev := .deferred, tag := some cssTag, misc0 := n % 8192 }

/-- A resolution entry is written (R310, R387). -/
def State.resolve (s : State) (n st : Nat) (body : List Byte) : State := s.addLog (.resolution n st body)

/-- The report that a peer's ENDED update makes (R307, R383): the record image's status, residual and DEVSTAT become the step's outcome. -/
def State.peerReport (s : State) (n : Nat) (image : List Byte) : State :=
  let w (o : Nat) : Nat := leNat ((image.drop o).take 4)
  let status := nfld (w 0) 31 24
  match s.op? n with
  | none => s
  | some o =>
    let sc := (s.slot n).subch
    let s := s.reported n o
    let s := if status = 0 ∨ status = 1 then s.endStep n (w 8) (status == 1) (w 0x18) else s.endOp n status (w 8) (w 0x18) true
    (s.afterReport sc).sweep

/-- Is a forwarded step of a slot still in progress under the current GEN (R286, R307)? -/
def State.fwdInProgress (s : State) (n gen : Nat) : Bool :=
  match s.handedSlot (s.slot n).subch with
  | some (m, _) => m == n && (s.slot n).fwd && (s.sub (s.slot n).subch).gen == gen && (s.slot n).gen == gen
  | none => false

/-- MIRROR (R307, R309, R310, R312, R386): a peer's update. -/
def execMirror (port : Nat) (s : State) : Answer :=
  .next (s.take port 2 0 (fun s f =>
    let n := f.num 0 2 % numSlots
    let m := f.num 2 2 % numSlots
    let st := f.num 4 1
    let gen := f.num 6 2
    let l := s.slot n
    if l.peer ≠ f.src ∨ (l.peerSt ≠ 0 ∧ l.peerSlot ≠ m) ∨ l.gen ≠ gen ∨ l.mirrored then s.mirrorError n
    else if st ≤ l.peerSt then s.answerLedger f 1 l.peerSt
    else if s.fwdInProgress n gen then
      if st = 4 then
        let s := s.touchSlot n (fun l => { l with peerSt := 4, peerSlot := m, fwd := false })
        (s.answerLedger f 1 4).peerReport n (f.payload.drop 32)
      else (s.touchSlot n (fun l => { l with peerSt := st, peerSlot := m })).answerLedger f 1 st
    else if st = 4 then
      let s := (s.setSlot n { l with peerSt := 4, peerSlot := m }).stale
      (s.resolve n 4 (f.payload.drop 32)).answerLedger f 1 4
    else if st = 3 then s.answerLedger f 2 3
    else (s.touchSlot n (fun l => { l with peerSt := st, peerSlot := m })).answerLedger f 1 st))

/-- A kept message is answered. -/
def State.dropMirrors (s : State) (which : Flit → Bool) : State :=
  { s with relay := { s.relay with mirrors := s.relay.mirrors.filter (fun g => !which g) } }

/-- The peer's slot that was acknowledged goes on (R308, R309): a DISPATCHED request lets the step be handed off; ENDED is the trigger of
REPORTED. -/
def State.mirrorAcked (s : State) (n st : Nat) : State :=
  let l := s.slot n
  if st = 4 ∧ l.st = 4 then
    (s.modRing l.ring (fun r => { r with cqHead := (r.cqHead + 1) % 65536 })).reportSlot n
  else if st = 3 ∧ l.st ≤ 2 then
    match s.headOp l.subch with
    | some (m, o) =>
      if m ≠ n then s
      else
        let s := s.modOp n (fun o => { o with peerOk := true })
        (match o.phase with
         | .begun => s.runStep l.subch n
         | .redispatch _ => s.redispatch l.subch
         | _ => s).sweep
    | none => s
  else s

/-- MACK (R308, R385-R387): of a MIRROR that this device sent, else the answer to its CANCEL. -/
def execMack (port : Nat) (s : State) : Answer :=
  .next (s.take port 2 1 (fun s f =>
    let sub := f.num 0 2
    let peer := f.num 2 2
    let st := f.num 4 1
    let mine (g : Flit) : Bool := g.ty == 0 && g.dst == f.src && g.num 0 2 == sub && g.num 2 2 == peer && decide (g.num 4 1 ≤ st)
    match (s.relay.mirrors.filter mine).getLast? with
    | some g =>
      let s := s.dropMirrors mine
      if (s.slot (peer % numSlots)).mirrored then s.mirrorAcked (peer % numSlots) (g.num 4 1) else s.mirrorError peer
    | none =>
      let cancel (g : Flit) : Bool := g.ty == 3 && g.dst == f.src && g.num 0 2 == sub && g.num 6 2 == f.num 6 2
      if !s.relay.mirrors.any cancel then s
      else
        let s := s.dropMirrors cancel
        if st = 7 ∧ (s.slot (sub % numSlots)).fwd then s.resolve (sub % numSlots) 0 [] else s))

/-- MREF (R309): the peer ends its undispatched slot FLUSHED. -/
def execMref (port : Nat) (s : State) : Answer :=
  .next (s.take port 2 2 (fun s f =>
    let n := f.num 2 2 % numSlots
    let s := s.dropMirrors (fun g => g.ty == 0 && g.dst == f.src && g.num 0 2 == f.num 0 2 && g.num 2 2 == f.num 2 2 && g.num 4 1 == 3)
    let l := s.slot n
    if !l.mirrored ∨ l.peer ≠ f.src ∨ l.peerSlot ≠ f.num 0 2 % numSlots then s.mirrorError n
    else if l.st ≤ 2 then
      match s.op? n with
      | some o => (s.endOp n 0x1F o.fullResid 0).sweep
      | none => s
    else s))

/-- The slot of a forwarded operation by its key (R387). -/
def State.mirrorSlot (s : State) (dev slot gen : Nat) : Option Nat :=
  (s.css.slots.find? (fun e => e.2.mirrored && e.2.st != 0 && e.2.peer == dev && e.2.peerSlot == slot && e.2.fgen == gen)).map (fun e => e.1)

/-- CANCEL (R309, R386, R387): an undispatched slot ends FLUSHED; the answer names the slot's state, or NOSLOT, whose key is held. An
entry of the key that still waits in an internal SQ is withdrawn with it. -/
def execCancel (port : Nat) (s : State) : Answer :=
  .next (s.take port 2 3 (fun s f =>
    let sub := f.num 0 2 % numSlots
    let gen := f.num 6 2
    match s.mirrorSlot f.src sub gen with
    | some n =>
      let s := if (s.slot n).st ≤ 2 then
          (match s.op? n with
           | some o => (s.endOp n 0x1F o.fullResid 0).sweep
           | none => s)
        else s
      s.answerLedger f 1 (s.slot n).st
    | none =>
      let s := s.css.rings.foldl (fun s e =>
        if e.2.fwds.any (fun x => x.dev == f.src && x.slot == sub && x.gen == gen) then
          s.modRing e.1 (fun r => { r with fwds := r.fwds.filter (fun x => !(x.dev == f.src && x.slot == sub && x.gen == gen)) })
        else s) s
      let k := (f.src, sub, gen)
      let s := { s with relay := { s.relay with noslot := if k ∈ s.relay.noslot then s.relay.noslot else s.relay.noslot ++ [k] } }
      s.answerLedger f 1 7))

/-- MIRROR_RESEND (R386): what has no answer yet is sent again by the route table. -/
def execMirrorResend (s : State) : Answer := .next (s.relay.mirrors.foldl (fun s f => s.sendTo f) s)

/-- NOSLOT_KEY_EXPIRY (R387). -/
def execNoslotKeyExpiry (dev slot gen : Nat) (s : State) : Answer :=
  .next { s with relay := { s.relay with noslot := s.relay.noslot.filter (fun k => k != (dev, slot, gen)) } }

/-- PEERWAIT_EXPIRY (R311): slots that waited for a lost peer are resolved; while it is still lost, ENDED slots that await its acknowledgement become
orphans with OCAUSE 5. -/
def execPeerwaitExpiry (dev : Nat) (s : State) : Answer :=
  .next (if dev ∉ s.relay.waiting then s
    else
      let lost := dev ∈ s.relay.lost
      let s := if lost then s.dropMirrors (fun g => g.dst == dev)
        else { s with relay := { s.relay with waiting := s.relay.waiting.filter (fun x => x != dev) } }
      s.css.slots.foldl (fun s e =>
        let l := s.slot e.1
        if l.peer ≠ dev then s
        else if l.fwd ∧ (l.st = 5 ∨ l.st = 4) then s.resolve e.1 l.peerSt []
        else if lost ∧ l.mirrored ∧ l.st = 4 ∧ !l.orphan then s.orphanSlot e.1 5
        else s) s)

/-! ## The hierarchy -/

/-- The record of management that is not authorised (R376). -/
def State.unauthorised (s : State) (p : Nat) : State := s.portRecord p 0x08 0x07 .deferred 0 0

/-- Does management with SRC 0 arrive on a port of HROUTE[0] (R376)? -/
def State.fromManager (s : State) (p : Nat) (f : Flit) : Bool :=
  f.src == 0 && !s.manager && (nfld (s.rf (Reg.RELAY_HROUTE.at 0) 5 0) p p == 1 || !s.rb Reg.RELAY_HID.at 5)

/-- READY leaves for the manager (R375). -/
def State.sendReady (s : State) : State :=
  s.sendTo { vl := 3, ty := 2, dst := 0, src := s.devIndex, tag := 0, info := 0, payload := pad64 (leBytes 1 s.devIndex) }

/-- An ASSIGN message (R375, R376, R389, R392): carried to a tier-1 worker for its child, or this worker's own index. The index is the byte's low 5
bits: the spec is silent on an ASSIGN that names 0, 31 or more (log entry 43). -/
def State.takeAssign (s : State) (port : Nat) : State :=
  (s.take port 3 0 (fun s f =>
    if !s.fromManager port f then s.unauthorised port
    else if f.dst ≠ 31 then
      let o := f.num 2 1 % 8
      if o < 6 ∧ (s.portState o = 3 ∨ s.portState o = 4) then s.sendOn o { f with dst := 31 } else s.dropCount port 1
    else
      let i := f.num 0 1 % 32
      let has := s.rb Reg.RELAY_HID.at 5
      if f.num 1 1 ≠ port ∨ (has ∧ i ≠ s.devIndex) then s.miswire port
      else if has then s.sendReady
      else
        let s := ((s.setRf Reg.RELAY_HID.at 4 0 i).setRb Reg.RELAY_HID.at 5 true).setRf Reg.RELAY_HID.at 9 8 (f.num 3 1 % 4)
        let s := s.setRf (Reg.RELAY_HROUTE.at 0) 5 0 (s.rf (Reg.RELAY_HROUTE.at 0) 5 0 ||| 2 ^ port)
        { s with relay := { s.relay with imgOfs := f.num 4 4 % 2 ^ 24, imgLen := f.num 8 4 % 2 ^ 24, fresh := true } }))

/-- ROUTESET (R375, R376, R389): the HROUTE table, answered by READY. -/
def execRouteset (port : Nat) (s : State) : Answer :=
  .next (s.take port 3 1 (fun s f =>
    if !s.fromManager port f ∨ !s.rb Reg.RELAY_HID.at 5 then s.unauthorised port
    else
      let s := (List.range 31).foldl (fun s d =>
        if d = s.devIndex ∨ s.rf (Reg.RELAY_HROUTE.at d) 5 0 = f.num d 1 % 64 then s
        else (s.setRf (Reg.RELAY_HROUTE.at d) 5 0 (f.num d 1)).findDevice d) s
      s.sendReady))

/-- READY (R375, R388): the worker is present, and its own children are assigned. -/
def execReady (port : Nat) (s : State) : Answer :=
  .next (s.take port 3 2 (fun s f =>
    let i := f.num 0 1 % 32
    if !s.manager ∨ i ≠ f.src ∨ i = 0 ∨ i > 30 then s.unauthorised port
    else
      let was := s.rb Reg.RELAY_HPRESENT.at i
      let s := (s.setRb Reg.RELAY_HPRESENT.at i true).findDevice i
      let s := { s with relay := { s.relay with assign := s.relay.assign.filter (fun x => x != i) } }
      if was then s
      else (List.range' 1 30).foldl (fun s j =>
        let e := s.reg (Reg.RELAY_HTOPO.at j)
        if bit e 31 ∧ fld e 4 0 = i ∧ !s.rb Reg.RELAY_HPRESENT.at j then s.sendAssign j else s) s))

/-- ASSIGN_REPEAT (R389). -/
def execAssignRepeat (dev : Nat) (s : State) : Answer := .next (if dev ∈ s.relay.assign then s.sendAssign dev else s)

/-- LOSS (R388, R389): a notice is acknowledged and acted on once; an acknowledgement ends its repeats. -/
def execLoss (port : Nat) (s : State) : Answer :=
  .next (s.take port 3 6 (fun s f =>
    let d := f.num 0 1 % 32
    if f.info = 1 then { s with relay := { s.relay with losses := s.relay.losses.filter (fun x => x != (f.src, d)) } }
    else
      let s := s.sendTo { f with dst := f.src, src := s.devIndex, info := 1 }
      if d ∈ s.relay.lost then s
      else
        let s := s.loseDevice port d false
        if s.manager then s.tellWorkers d else s))

/-- LOSS_REPEAT (R389). -/
def execLossRepeat (s : State) : Answer := .next (s.relay.losses.foldl (fun s x => s.sendLoss x.1 x.2) s)

/-- Is a device the neighbour at a port whose link is up? -/
def State.isNeighbour (s : State) (p d : Nat) : Bool :=
  let i := s.rf (Reg.RELAY_PORTSTAT.at p) 20 16
  (s.portState p == 3 || s.portState p == 4) && (i == d || (i == 31 && ((s.port p).nbr == d || (s.manager && s.childAt 0 p == some d))))

/-- The ports to a neighbour that leaves go DOWN without a fence or a baton check (R388). -/
def State.neighbourLeft (s : State) (d : Nat) : State :=
  ((List.range 6).filter (fun p => s.isNeighbour p d)).foldl (fun s p => s.portDown p 1 7) s

/-- LEAVE (R388): the device is lost; a neighbour takes its ports DOWN, also one that only passes the message on to the manager. -/
def execLeave (port : Nat) (s : State) : Answer :=
  let u := s.take port 3 7 (fun s f => (s.loseDevice port f.src false).neighbourLeft f.src)
  .next (match (s.port port).rx.find? (fun f => f.vl == 3) with
    | some f =>
      if port < 6 ∧ f.ty = 7 ∧ f.dst ≠ 31 ∧ f.dst ≠ s.devIndex ∧ (u.port port).rx.length < (s.port port).rx.length then u.neighbourLeft f.src else u
    | none => u)

/-! ## Elapsed time -/

/-- The port toward the parent: the lowest-numbered ACTIVE port of HROUTE[0] (R390). -/
def State.upstream (s : State) : Option Nat :=
  if s.manager then none
  else (List.range 6).find? (fun p => nfld (s.rf (Reg.RELAY_HROUTE.at 0) 5 0) p p == 1 && s.portState p == 3)

/-- A message of the time exchange for the neighbour on a port. -/
def timeFlit (ty : Nat) (src : Nat) (t : W64) : Flit :=
  { vl := 3, ty := ty, dst := 31, src := src, tag := 0, info := 0, payload := pad64 (leBytes 8 t.toNat) }

/-- SYNC_PERIOD (R390): a parent sends SYNC on each ACTIVE port that leads down to a worker. -/
def execSyncPeriod (s : State) : Answer :=
  .next ((List.range 6).foldl (fun s p =>
    if s.portState p = 3 ∧ (s.manager ∨ nfld (s.rf (Reg.RELAY_HROUTE.at 0) 5 0) p p = 0) then s.sendOn p (timeFlit 3 s.devIndex s.clk.etc)
    else s) s)

/-- SYNC (R390): its arrival t2 is stamped and DREQ leaves at t3. -/
def execSync (port : Nat) (t2 t3 : W64) (s : State) : Answer :=
  .next (s.take port 3 3 (fun s f =>
    if s.upstream ≠ some port then s
    else
      let s := { s with relay := { s.relay with t1 := f.num 0 8, t2 := t2.toNat, t3 := t3.toNat } }
      s.sendOn port (timeFlit 4 s.devIndex t3)))

/-- DREQ (R390): the parent answers with its arrival t4. -/
def execDreq (port : Nat) (t4 : W64) (s : State) : Answer :=
  .next (s.take port 3 4 (fun s _ => s.sendOn port (timeFlit 5 s.devIndex t4)))

/-- The signed value of a 64-bit count's difference. -/
def signed64 (n : Int) : Int := (BitVec.ofInt 64 n).toInt

/-- DRESP (R390): the offset steps the ETC at an adoption or beyond 1 µs; else it only slews the rate. -/
def execDresp (port : Nat) (s : State) : Answer :=
  .next (s.take port 3 5 (fun s f =>
    if s.upstream ≠ some port then s
    else
      let t4 : Int := f.num 0 8
      let off : Int := (signed64 (s.relay.t2 - s.relay.t1) - signed64 (t4 - s.relay.t3)) / 2
      let sat : Int := max (-32767) (min 32767 off)
      let a := Reg.RELAY_TSTAT.at
      let s := s.setRf a 15 0 (BitVec.ofInt 16 sat).toNat
      if s.relay.fresh then
        ({ s with relay := { s.relay with fresh := false } }.setEtc (s.clk.etc - BitVec.ofInt 64 off)).gatesFollow.setRb a 31 true
      else if off > 1000 ∨ off < -1000 then
        (s.setEtc (s.clk.etc - BitVec.ofInt 64 off)).gatesFollow.setRf a 23 16 (satAdd 8 (s.rf a 23 16) 1)
      else s))

end Sys2Proof.Machine
end

