-- ==== Sys2Proof/Machine/Boot.lean ====
section
/-! DEFINITION. The boot ROM (chapter Boot, Keys and Field Update): a full boot through its sources (R452-R458, R465), handover (R463,
R470, R472), recovery download and host push (R473, R475), and the resume from PARK (R474). -/
namespace Sys2Proof.Machine

/-! ## The order of sources -/

/-- The order that a code gives (R454): 0 xSPI0, 1 xSPI1, 2 Relay, 3 PCIe. -/
def bootOrder (code : Nat) : List Nat :=
  match code with
  | 0 => [0, 1]
  | 1 => [0, 2, 1]
  | 2 => [2, 0]
  | 3 => [3, 0]
  | 4 => [1, 0]
  | 5 => [0, 3]
  | 6 => [2]
  | _ => []

/-- The result of a position of the order (SRCRES). -/
def State.srcRes (s : State) (pos src reason result : Nat) : State :=
  if pos < 5 then s.setReg (Reg.BOOT_SRCRES.at pos) (BitVec.ofNat 32 (src * 2 ^ 28 + reason * 2 ^ 8 + result)) else s

/-- The record of a rejected candidate (R463, R476, R536). -/
def State.rejected (s : State) (src slot reason misc1 : Nat) : State :=
  s.record { bank := 47, unit := 0x22, code := 0x07, sev := .deferred, misc0 := src + slot * 2 ^ 4 + reason * 2 ^ 8, misc1 := misc1 }

/-! ## Slots of an xSPI device -/

/-- Does a locator's CRC hold (R456)? -/
def locatorOk (b : List Byte) : Bool := decide (32 ≤ b.length) && crc32c (bytesAt b 0 0x1C) == leAt b 0x1C 4

/-- The locator that the ROM uses. -/
def bootLocator (d : XspiDev) : Option (List Byte) :=
  if !d.answers then none
  else if locatorOk d.loc0 then some d.loc0
  else if locatorOk d.loc1 then some d.loc1
  else none

/-- A word of a state area; a byte that is not listed is erased. -/
def areaWord (a : List Byte) (o : Nat) : Nat := leNat ((List.range 4).map (fun i => a.getD (o + i) 0xFF))

/-- The states of a slot (R458). -/
inductive SlotState where
  | retired | active | valid | writing | empty
deriving DecidableEq, Repr

/-- The state of a slot, by the first rule that applies (R458). -/
def slotState (a : List Byte) : SlotState :=
  let isSet (o : Nat) : Bool := areaWord a o == 0
  let chk := isSet 0x00 && isSet 0x0C && areaWord a 0x08 == 0xFFFFFFFF - areaWord a 0x04
  if isSet 0x14 then .retired
  else if chk && isSet 0x10 then .active
  else if chk then .valid
  else if a.any (fun x => x != 0xFF) then .writing
  else .empty

/-- SEQ of a slot. -/
def slotSeq (a : List Byte) : Nat := areaWord a 0x04

/-- The lowest erased TRIAL word. -/
def trialLeft (a : List Byte) : Option Nat := (List.range 8).find? (fun i => areaWord a (0x20 + 4 * i) == 0xFFFFFFFF)

/-- Two slots in the order of their SEQ, highest first. -/
def bySeq (d : XspiDev) (l : List Nat) : List Nat :=
  let seq (n : Nat) : Nat := slotSeq (if n = 0 then d.slot0.area else d.slot1.area)
  match l with
  | [a, b] => if seq a < seq b then [b, a] else [a, b]
  | l => l

/-- The slot by number. -/
def slotAt (d : XspiDev) (n : Nat) : BootSlot := if n = 0 then d.slot0 else d.slot1

/-- The candidates of a source in order (R465), each with whether it is a trial boot. -/
def bootCandidates (d : XspiDev) : List (Nat × Bool) :=
  let st (n : Nat) : SlotState := slotState (slotAt d n).area
  let seq (n : Nat) : Nat := slotSeq (slotAt d n).area
  let actives := [0, 1].filter (fun n => st n == .active)
  let valids := [0, 1].filter (fun n => st n == .valid)
  let trials := valids.filter (fun n => (trialLeft (slotAt d n).area).isSome && actives.all (fun a => decide (seq a < seq n)))
  let rest := if actives.isEmpty then valids.filter (fun n => !trials.contains n) else []
  (bySeq d trials).map (fun n => (n, true)) ++ (bySeq d actives).map (fun n => (n, false)) ++ (bySeq d rest).map (fun n => (n, false))

/-! ## Handover -/

/-- The registers of the boot profile (R475): PF0 bound with PID 0, window 0 over the first 128 KiB of the work area. -/
def State.setProfile (s : State) : State :=
  ((((s.setReg (Reg.HOSTEP_FBIND.at 0) 0x80000000).setReg (Reg.HOSTEP_WIN_OFS.at 0) 0xE0000000).setReg (Reg.HOSTEP_WIN_LIM.at 0) 0x1F).setReg
    (Reg.HOSTEP_WIN_PA_LO.at 0) 0x2F00000).showFns

/-- The profile's values give way (R475). -/
def State.clearProfile (s : State) : State :=
  [Reg.HOSTEP_FBIND.at 0, Reg.HOSTEP_WIN_OFS.at 0, Reg.HOSTEP_WIN_LIM.at 0, Reg.HOSTEP_WIN_PA_LO.at 0].foldl
    (fun s a => s.setReg a (resetAt a)) s

/-- Core 0 starts, and in compatibility mode every core whose CENTRY says so (R470, R472). -/
def State.releaseBooted (s : State) (b : Booted) : State :=
  let s := s.startCore 0
  if !b.compat then s
  else (List.range' 1 47).foldl (fun s c => if b.centry.getD c 0 % 4 = 0 ∧ s.releasable c then s.startCore c else s) s

/-- Steps 2 to 5 of R463 for a set whose image has been applied. trial: the offset of the TRIAL word to program. -/
def State.handover (s : State) (man : List Byte) (src slot seq : Nat) (trial : Option Nat) : State :=
  let b := bootedOf man src slot
  let s := { s with vault := { s.vault with root := Config.deviceSecret }, boot := { s.boot with booted := some b, run := none } }
  let s := s.setRf Reg.KILN_LDR_STAT.at 21 16 b.svn
  let s := s.setSmeas (Config.digest 1 [] (List.replicate 48 0 ++ Config.digest 1 [] (manSigned man)))
  let s : State := match trial with
    | some o => s.emit .nvm src [o, 0]
    | none => s
  let s := { s with mem := s.mem.clearRange 0x2F00000 0x3000000 }
  let s := s.setReg Reg.BOOT_BSTAT.at (BitVec.ofNat 32 (2 ^ 31 + src * 2 ^ 28 + b2n trial.isSome * 2 ^ 27 + slot * 2 ^ 26 + b2n b.compat * 2 ^ 25 +
    b.svn * 2 ^ 16 + seq % 2 ^ 16))
  s.releaseBooted b

/-- A verified set boots (R463): its image is applied, then handover; otherwise why the image failed. -/
def State.bootSet (s : State) (env : BootEnv) (kind : Nat) (man : List Byte) (src slot seq : Nat) (trial : Option Nat) : State × Option CfgFail :=
  let c := compAt man 2
  match s.applyImage env kind (s.bytes c.load c.len) with
  | (s, some f) => (s, some f)
  | (s, none) => (s.handover man src slot seq trial, none)

/-- REC_MISC1 of a rejected image (R536). -/
def CfgFail.misc1 (f : CfgFail) : Nat := f.code + f.sect * 2 ^ 16

/-! ## xSPI -/

/-- A candidate slot is tried: none when it boots, else the reason. A VALID slot that fails is retired (R465). -/
def State.trySlot (s : State) (env : BootEnv) (kind src : Nat) (dev : XspiDev) (loc : List Byte) (n : Nat) (trial : Bool) : State × Option Nat :=
  let sl := slotAt dev n
  let off := leAt loc (8 + 4 * n) 4
  let retire (s : State) : State := if slotState sl.area = .valid then s.emit .nvm src [off + 0x14, 0] else s
  match s.verifySet sl.set (some (leAt loc 0x10 4)) false with
  | (s, .error r) => (retire (s.rejected src n r 0), some r)
  | (s, .ok man) =>
    let word := if trial then (trialLeft sl.area).map (fun i => off + 0x20 + 4 * i) else none
    match s.bootSet env kind man src n (slotSeq sl.area) word with
    | (s, some f) => (retire (s.rejected src n 0x02 f.misc1), some 0x02)
    | (s, none) => (s, none)

/-- The candidates of a source, until one boots; else the last reason. -/
def State.trySlots (env : BootEnv) (kind src : Nat) (dev : XspiDev) (loc : List Byte) : List (Nat × Bool) → State → Nat → State × Option Nat
  | [], s, last => (s, some last)
  | (n, t) :: rest, s, _ =>
    match s.trySlot env kind src dev loc n t with
    | (s, some r) => State.trySlots env kind src dev loc rest s r
    | (s, none) => (s, none)

/-- An xSPI source (R455, R465): whether it boots. -/
def State.tryXspi (s : State) (env : BootEnv) (kind pos src : Nat) : State × Bool :=
  let dev := if src = 0 then env.x0 else env.x1
  match bootLocator dev with
  | none => (s.srcRes pos src 0 2, false)
  | some loc =>
    match State.trySlots env kind src dev loc (bootCandidates dev) s 0x01 with
    | (s, some r) => (s.srcRes pos src r 3, false)
    | (s, none) => (s.srcRes pos src 0 1, true)

/-! ## Relay -/

/-- The six ports while the ROM tries Relay (R455). -/
def State.bootPorts (s : State) (on : Bool) : State :=
  (List.range 6).foldl (fun s p => s.mmioWrite .bootRom (Reg.RELAY_PORTCTL.at p) (if on then BitVec.ofNat 32 (80 * 2 ^ 8 + 1) else 0)) s

/-- The set of the Relay stream is tried (R392, R455): whether it boots. -/
def State.tryRelay (s : State) (env : BootEnv) (kind pos : Nat) : State × Bool :=
  match s.verifySet env.relay (some (0x1000 + s.relay.imgLen * 4096)) false with
  | (s, .error r) => (((s.rejected 2 0 r 0).srcRes pos 2 r 3).bootPorts false, false)
  | (s, .ok man) =>
    match s.bootSet env kind man 2 0 0 none with
    | (s, some f) => (((s.rejected 2 0 0x02 f.misc1).srcRes pos 2 0x02 3).bootPorts false, false)
    | (s, none) => (s.srcRes pos 2 0 1, true)

/-! ## The run through the sources -/

/-- Recovery download mode (R473); its record (R476) is written where sources have failed. -/
def State.enterRecovery (s : State) (env : BootEnv) (kind pos : Nat) (failed : Bool) : State :=
  let s := if failed then s.record { bank := 47, unit := 0x23, code := 0x07, sev := .contained } else s
  { s.setProfile with boot := { s.boot with run := some { env := env, left := [], pos := pos, recovery := true, dl := none, kind := kind } } }

/-- What became of a source. -/
inductive SrcEnd where
  | booted | failed | waits
deriving DecidableEq, Repr

/-- A source is tried, or the ROM begins to wait for it (R455). -/
def State.trySource (s : State) (env : BootEnv) (kind pos src : Nat) : State × SrcEnd :=
  let ended (x : State × Bool) : State × SrcEnd := (x.1, if x.2 then .booted else .failed)
  if src < 2 then ended (s.tryXspi env kind pos src)
  else if src = 2 then
    if s.manager then (s.srcRes pos 2 0 2, .failed)
    else
      let s := s.bootPorts true
      if s.relay.imgLen ≠ 0 then ended (s.tryRelay env kind pos) else (s, .waits)
  else if s.rb Reg.HOSTEP_LINKSTAT.at 1 then (s.srcRes pos 3 0 2, .failed)
  else (s.setProfile, .waits)

/-- The sources from a position on. -/
def State.runSources (env : BootEnv) (kind : Nat) : List Nat → Nat → State → State
  | [], pos, s => s.enterRecovery env kind pos true
  | src :: rest, pos, s =>
    match s.trySource env kind pos src with
    | (s, .booted) => s
    | (s, .failed) => State.runSources env kind rest (pos + 1) s
    | (s, .waits) =>
      { s with boot := { s.boot with run := some { env := env, left := src :: rest, pos := pos, recovery := false, dl := none, kind := kind } } }

/-- The power-up sequence of R551: SOCPWR_EN, VDD_SOC, then the four groups at OP5. -/
def State.powerOn (s : State) : State :=
  let s := (s.emit .power 0 [1]).emit .power 1 [1]
  let s := (List.range 4).foldl (fun s g => s.emit .power (2 + g) [5]) s
  { s with boot := { s.boot with powerUp := false } }

/-- The regulators go off, then SOCPWR_EN (R551, R552). -/
def State.powerOff (s : State) : State :=
  (((List.range 4).foldl (fun s g => s.emit .power (2 + g) []) s).emit .power 1 [0]).emit .power 0 [0]

/-- What POR and PIN reset sample (R2, R520): the straps (log entry 14); at POR INCARN takes a value of noise (R525), a free value. HID.INDEX
reads 0 on a manager and 31 on a worker without an index. -/
def State.sample (s : State) (env : BootEnv) (kind : Nat) : State :=
  let s := if 2 ≤ kind then s else (s.setRb Reg.SYSCTL_ID.at 0 env.manager).setRf Reg.BOOT_SEQCFG.at 2 0 env.seq.toNat
  let s := if kind = 0 then (s.setRf Reg.RELAY_HID.at 31 16 s.free).took else s
  s.setRf Reg.RELAY_HID.at 4 0 (if s.manager then 0 else 31)

/-- A full boot (R452-R454). After POR Cask is wiped (R252); PIN reset and the wake from OFF have done so. -/
def State.fullBoot (s : State) (env : BootEnv) (kind : Nat) : State :=
  let s := if s.boot.powerUp then s.powerOn else s
  let s := if kind = 0 then s.wipeCask 7 false else s
  let s := { s with errOut := false, boot := { s.boot with due := none, run := none, booted := none } }
  let s := s.sample env kind
  let s := s.setRb Reg.KILN_RNGSTAT.at 0 true
  if s.lifeCycle = 4 then
    (s.record { bank := 47, unit := 0x23, code := 0x07, sev := .fatal, misc0 := 0x0A * 2 ^ 8 }).modCore 0 (fun k => { k with wait := .wev })
  else if s.lifeCycle = 0 then s.enterRecovery env kind 0 false
  else
    let q := Reg.BOOT_SEQCFG.at
    match bootOrder (if s.rb q 11 then s.rf q 10 8 else s.rf q 2 0) with
    | [] => s.enterRecovery env kind 0 false
    | order => State.runSources env kind order 0 s

/-- FULL_BOOT (R452): after POR, PIN or WARM reset, a wake from OFF, or a failed resume. -/
def execFullBoot (env : BootEnv) (s : State) : Answer :=
  .next (match s.boot.due with
    | some k => if k ≤ 4 ∧ s.clk.power = .run then s.fullBoot env k else s
    | none => s)

/-- The source that a full boot waits for has failed: the next one follows (R455). -/
def State.sourceFailed (s : State) (r : BootRun) : State :=
  let s := { s with boot := { s.boot with run := none } }
  let s := if r.left.head? = some 2 then s.bootPorts false else s.clearProfile
  State.runSources r.env r.kind r.left.tail (r.pos + 1) s

/-- BOOT_SOURCE_TIMEOUT (R455): the source waited for is absent. A download that has begun no longer waits. -/
def execBootSourceTimeout (s : State) : Answer :=
  .next (match s.boot.run with
    | some r => if r.recovery ∨ r.dl.isSome then s else (s.srcRes r.pos (r.left.headD 0) 0 2).sourceFailed r
    | none => s)

/-- ASSIGN (R375, R376, R389, R392): a boot that waits for Relay goes on when the message names an image (R455). -/
def execAssign (port : Nat) (s : State) : Answer :=
  .next (
    let s := s.takeAssign port
    match s.boot.run with
    | some r =>
      if !r.recovery ∧ r.left.head? = some 2 ∧ s.relay.imgLen ≠ 0 then
        (match ({ s with boot := { s.boot with run := none } }).tryRelay r.env r.kind r.pos with
         | (s, true) => s
         | (s, false) => State.runSources r.env r.kind r.left.tail (r.pos + 1) s)
      else s
    | none => s)

/-! ## Downloads (R473, R475) -/

/-- The waiting boot, changed. -/
def State.setRun (s : State) (r : BootRun) : State := { s with boot := { s.boot with run := some r } }

/-- The answer to a message: CMD, STATUS, and the chunk or block expected next. -/
def State.dlReply (s : State) (pcie : Bool) (cmd status next : Nat) : State :=
  if pcie then
    ((s.setReg (Reg.HOSTEP_MB_G2H.at 0) (BitVec.ofNat 32 (cmd + status * 2 ^ 8))).setReg (Reg.HOSTEP_MB_G2H.at 1) (BitVec.ofNat 32 next)).mailOut
  else s.emit .uart 0 [0x5A, cmd, status, next % 256, next / 256 % 256]

/-- The number of BSTAT.SRC for a download. -/
def BootRun.src (r : BootRun) (pcie : Bool) : Nat := if !r.recovery then 3 else if pcie then 5 else 4

/-- A download's set fails: answered with its reason and recorded; recovery waits for the next manifest, and a source has failed. -/
def State.dlFail (s : State) (r : BootRun) (pcie : Bool) (cmd reason misc1 : Nat) : State :=
  let s := (s.dlReply pcie cmd reason 0).rejected (r.src pcie) 0 reason misc1
  if r.recovery then s.setProfile.setRun { r with dl := none } else (s.srcRes r.pos 3 reason 3).sourceFailed r

/-- What a download expects next: the chunk on UART0, the block over PCIe. -/
def Download.expect (d : Download) : Nat := if d.pcie then d.block else d.next

/-- A whole manifest has come: the checks of R461. -/
def State.dlChecked (s : State) (r : BootRun) (d : Download) : State :=
  match s.manReason d.man none with
  | some x => s.dlFail r d.pcie 1 x 0
  | none =>
    let d := { d with whole := true }
    (s.dlReply d.pcie 1 0 d.expect).setRun { r with dl := some d }

/-- A whole block has come: written, compared (R462). -/
def State.dlBlock (s : State) (r : BootRun) (d : Download) (b : SetBlock) (data : List Byte) : State :=
  match s.loadBlock d.man b (some data) with
  | (s, none) =>
    let d := { d with block := d.block + 1, part := [] }
    (s.dlReply d.pcie 2 0 d.expect).setRun { r with dl := some d }
  | (s, some x) => (s.zeroBlocks ((manBlocks d.man false).take (d.block + 1))).dlFail r d.pcie 2 x 0

/-- END: every block must have come; the set boots from memory. -/
def State.dlEnd (s : State) (r : BootRun) (d : Download) : State :=
  if !d.whole ∨ d.block ≠ (manBlocks d.man false).length then
    (if d.whole then s.zeroBlocks ((manBlocks d.man false).take d.block) else s).dlFail r d.pcie 3 0x08 0
  else
    match s.clearProfile.bootSet r.env r.kind d.man (r.src d.pcie) 0 0 none with
    | (s, some f) => s.dlFail r d.pcie 3 0x02 f.misc1
    | (s, none) => (if r.recovery then s else s.srcRes r.pos 3 0 1).dlReply d.pcie 3 0 d.expect

/-- A message of the other kind, or out of order, is to be sent again; nothing else changes. -/
def State.dlResend (s : State) (pcie : Bool) (cmd next : Nat) : State := s.dlReply pcie cmd 0x0F next

/-- A frame on UART0 (R473). -/
def State.uartFrame (s : State) (r : BootRun) (cmd idx : Nat) (payload : List Byte) (crc : W32) : State :=
  let d := r.dl.getD { pcie := false, man := [], next := 0, part := [], whole := false, block := 0 }
  let sum := crc32c (leBytes 1 cmd ++ leBytes 2 idx ++ leBytes 2 payload.length ++ payload)
  if d.pcie then s.dlResend false cmd 0
  else if sum ≠ crc.toNat ∨ idx ≠ d.next ∨ 4096 < payload.length ∨ (cmd = 1 ∧ d.whole) ∨ (cmd = 2 ∧ !d.whole) then s.dlResend false cmd d.next
  else
    let d := { d with next := d.next + 1 }
    if cmd = 1 then
      let d := { d with man := d.man ++ payload }
      if d.man.length < manLength then (s.dlReply false 1 0 d.next).setRun { r with dl := some d }
      else if manLength < d.man.length then s.dlFail r false 1 0x02 0
      else s.dlChecked r d
    else if cmd = 2 then
      match (manBlocks d.man false)[d.block]? with
      | none => s.dlResend false cmd (d.next - 1)
      | some b =>
        let d := { d with part := d.part ++ payload }
        if d.part.length < b.len then (s.dlReply false 2 0 d.next).setRun { r with dl := some d } else s.dlBlock r d b d.part
    else s.dlEnd r d

/-- A mailbox message (R475): the manifest lies at window offset 0, a block in its buffer. -/
def State.bootMail (s : State) (r : BootRun) (cmd buf len blk : Nat) : State :=
  let d := r.dl.getD { pcie := true, man := [], next := 0, part := [], whole := false, block := 0 }
  if !d.pcie then s.dlResend true cmd 0
  else if (cmd = 1 ∧ d.whole) ∨ (cmd = 2 ∧ (!d.whole ∨ blk ≠ d.block)) then s.dlResend true cmd d.block
  else if cmd = 1 then s.dlChecked r { d with man := s.bytes 0x2F00000 len }
  else if cmd = 2 then
    match (manBlocks d.man false)[d.block]? with
    | none => s.dlResend true cmd d.block
    | some b => s.dlBlock r d b (if buf < 2 ∧ len ≤ 0x10000 then s.bytes (0x2F00000 + buf * 0x10000) len else [])
  else s.dlEnd r d

/-- A boot under the boot profile takes the mailbox message that has come (R475). -/
def State.bootHears (s : State) : State :=
  let w (i : Nat) : W32 := Sparse.get 0 s.host.mb (4 + i)
  let cmd := fld (w 0) 7 0
  match s.boot.run with
  | some r => if s.bootProfile ∧ 1 ≤ cmd ∧ cmd ≤ 3 then s.bootMail r cmd (fld (w 0) 15 8) (w 1).toNat (w 2).toNat else s
  | none => s

/-- MBDB_SEND (R417, R475). -/
def execMbdbSend (s : State) : Answer := .next (s.barWrite 0 (fun s => s.mailIn.bootHears))

/-- BAR0_REQUEST (R401): one that sends a mailbox message is heard by a boot that waits for it (R475). -/
def execBar0Request (fn : BitVec 8) (off len : Nat) (wr : Option W32) (ep : Bool) (s : State) : Answer :=
  let u := s.bar0Request fn.toNat off len wr ep
  let send : Bool := match wr with | some v => bit v 16 | none => false
  .next (if fn = 0 ∧ off = 0x120 ∧ len = 4 ∧ !ep ∧ send ∧ s.rb Reg.HOSTEP_LINKSTAT.at 0 ∧ s.barOpen 0 then u.bootHears else u)

/-- The message that a row of a download brings. A mailbox message also stands in the mailbox (R417). -/
def State.download (s : State) (cmd : Nat) (m : BootMsg) : State :=
  match m with
  | .uart idx payload crc =>
    (match s.boot.run with
     | some r => if r.recovery then s.uartFrame r cmd idx.toNat payload crc else s
     | none => s)
  | .mailbox buf len blk =>
    s.barWrite 0 (fun s =>
      ((((s.setMb 4 (BitVec.ofNat 32 (cmd + buf.toNat * 2 ^ 8))).setMb 5 len).setMb 6 blk).setMb 7 0).mailIn.bootHears)

/-- MANIFEST (R473, R475). -/
def execManifest (m : BootMsg) (s : State) : Answer := .next (s.download 1 m)
/-- BLOCK_DATA (R473, R475). -/
def execBlockData (m : BootMsg) (s : State) : Answer := .next (s.download 2 m)
/-- END (R473, R475). -/
def execEndDownload (m : BootMsg) (s : State) : Answer := .next (s.download 3 m)

/-- LINK_RESET (R415): where PERST_N falls during a PCIe transfer, the set in transfer is discarded (R475). -/
def execLinkReset (perst : Bool) (s : State) : Answer :=
  .next (
    let s := s.linkDown perst
    match s.boot.run, perst with
    | some r, true =>
      if r.recovery then
        (match r.dl with
         | some d => if d.pcie then s.setRun { r with dl := none } else s
         | none => s)
      else if r.left.head? = some 3 then (s.srcRes r.pos 3 0 2).sourceFailed r
      else s
    | _, _ => s)

/-! ## Resume from PARK (R474) -/

/-- The bytes of the range that RESCHK names. -/
def State.resumeRange (s : State) : List Byte :=
  let a := Reg.BOOT_RESCHK.at
  let n := s.rf a 29 24
  s.bytes (0x1000000 + s.rf a 20 12 * 4096) (if n = 0 then 0x40000 else n * 4096)

/-- RESDIG takes a digest. -/
def State.setResdig (s : State) : State :=
  let d := Config.digest 1 [] s.resumeRange
  (List.range 12).foldl (fun s i => s.setReg (Reg.BOOT_RESDIG.at i) (BitVec.ofNat 32 (leAt d (4 * i) 4))) s

/-- PARK_RESUME (R474): core 0 starts at RESUME when the digest matches; otherwise a Deferred record and a full boot. -/
def execParkResume (env : BootEnv) (s : State) : Answer :=
  .next (
    if s.boot.due ≠ some 5 ∨ s.clk.power ≠ .run then s
    else
      match s.boot.booted with
      | some b =>
        if s.rb Reg.BOOT_RESCHK.at 31 ∧ Config.digest 1 [] s.resumeRange = s.regBytes Reg.BOOT_RESDIG.at 12 then
          let s := { s with errOut := false, vault := { s.vault with root := Config.deviceSecret }, boot := { s.boot with due := none } }
          let s := (s.setRf Reg.KILN_LDR_STAT.at 21 16 b.svn).setRb Reg.KILN_RNGSTAT.at 0 true
          let s := (s.setRf Reg.BOOT_BSTAT.at 30 28 6).setRb Reg.BOOT_BSTAT.at 31 true
          s.startAt 0 (s.rf Reg.BOOT_RESUME_LO.at 31 2 * 4 + s.rf Reg.BOOT_RESUME_HI.at 11 0 * 2 ^ 32) (b.stack.getD 0 0)
        else (s.record { bank := 47, unit := 0x25, code := 0x07, sev := .deferred }).fullBoot env 4
      | none => (s.record { bank := 47, unit := 0x25, code := 0x07, sev := .deferred }).fullBoot env 4)

end Sys2Proof.Machine
end

