-- ==== Sys2Proof/Machine/Resets.lean ====
section
/-! DEFINITION. Resets (R520-R525): CORE and CLUSTER reset (R522), WARM reset (R521), PIN reset, and what each leaves (R524, R256). -/
namespace Sys2Proof.Machine

/-! ## CORE and CLUSTER reset (R522) -/

/-- What a core keeps through every reset but POR and PIN: SPARECNT. -/
def Core.afterReset (k : Core) : Core := Core.reset.swr 0x980 (k.srd 0x980)

/-- The steps of R522 for one core, whose buffered Device stores raise nothing any more (R197). A sealed-world restart that the core still owes
stays. -/
def State.resetCore (s : State) (c : Nat) : State :=
  let s := ((s.stopCore State.mmioWrite c).abandonStores State.mmioWrite c).stopWaiting c
  let s := ((s.requeueHeldTask c).coldCore c).unhalt c
  let s := (s.emptyStack c).clearPrivate c
  let s := s.setRb (releaseBit c).1 (releaseBit c).2 false
  s.modCore c (fun k => { k.afterReset with restart := k.restart })

/-- Must a reset of a core wait: for its Device load in WB, or for its sparing (R522)? -/
def State.resetWaits (s : State) (c : Nat) : Bool := s.sparing c || (s.core c).inDeviceLoad

/-- The CORE reset that RSTCTL names, when it need not wait. A requested CLUSTER reset of its cluster absorbs it (R522). -/
def State.coreResetDue (s : State) : State :=
  let a := Reg.SYSCTL_RSTCTL.at
  let c := s.rf a 5 0
  if !s.rb a 8 ∨ numCores ≤ c then s
  else if s.rb a (16 + clusterOf c) then s.setRb a 8 false
  else if s.resetWaits c then s
  else (if s.online c then s.resetCore c else s).setRb a 8 false

/-- CORE_RESET (R522): the write of RSTCTL, and the reset unless it waits; none: a reset that waited. -/
def execCoreReset (r : Option Requester) (c : BitVec 6) (s : State) : Answer :=
  .next (
    let s := match r with
      | some r => s.mmioWrite r Reg.SYSCTL_RSTCTL.at (BitVec.ofNat 32 (2 ^ 8 + c.toNat))
      | none => s
    if s.rf Reg.SYSCTL_RSTCTL.at 5 0 = c.toNat then s.coreResetDue else s)

/-- A slot of a cluster that an offline core may take (R172): neither retired nor in use. -/
def State.freeSlots (s : State) (n : Nat) : List Nat :=
  (List.range 7).filter (fun sl =>
    !s.rb (Reg.CLUSTER_SLOTMAP.at n) (24 + sl) && (List.range 6).all (fun i => s.slotOf (6 * n + i) != sl) &&
    (sl != 6 || s.rf (Reg.CLUSTER_SPARESTAT.at n) 1 0 == 0))

/-- The Pacer counts the cores of a cluster anew (R167, R172). -/
def State.countCapacity (s : State) (n : Nat) : State := s.setCapacity n (s.onlineIn (6 * n) 6).length

/-- The offline cores of a cluster come back, as far as slots are available (R172). -/
def State.returnCores (s : State) (n : Nat) : State :=
  ((List.range 6).foldl (fun s i =>
    let c := 6 * n + i
    match s.slotOf c, s.freeSlots n with
    | 7, sl :: _ =>
      let s := (s.mapSlot c sl).modCore c Core.afterReset
      if sl = 6 then s.setRf (Reg.CLUSTER_SPARESTAT.at n) 1 0 1 else s
    | _, _ => s) s).countCapacity n

/-- The L2 of a cluster is written back and emptied. -/
def State.emptyL2 (s : State) (n : Nat) : State :=
  let mine := fun (x : Copy) => x.place == .l2 n
  let s := s.l2op n true
  (s.linesAt mine).foldl (fun s l => s.discardAt l mine false) s

/-- A CLUSTER reset (R522): its cores, its L2, its offline cores; those of a fenced cluster wait for WARM reset (R52). -/
def State.resetCluster (s : State) (n : Nat) : State :=
  let s := (s.onlineIn (6 * n) 6).foldl (fun s c => s.resetCore c) s
  let s := s.emptyL2 n
  let s := (List.range 6).foldl (fun s i => s.setRb (releaseBit (6 * n + i)).1 (releaseBit (6 * n + i)).2 false) s
  if nfld s.memc.fencedClusters n n = 1 then s else s.returnCores n

/-- CLUSTER_RESET (R522): the write of RSTCTL, and the reset unless it waits; none: a reset that waited. It absorbs a waiting CORE reset of the
cluster. -/
def execClusterReset (r : Option Requester) (n : BitVec 3) (s : State) : Answer :=
  .next (
    let a := Reg.SYSCTL_RSTCTL.at
    let s := match r with
      | some r => s.mmioWrite r a (BitVec.ofNat 32 (2 ^ (16 + n.toNat) + s.rf a 5 0))
      | none => s
    if !s.rb a (16 + n.toNat) ∨ (s.onlineIn (6 * n.toNat) 6).any (fun c => s.resetWaits c) then s
    else
      let s := (s.resetCluster n.toNat).setRb a (16 + n.toNat) false
      if clusterOf (s.rf a 5 0) = n.toNat then s.setRb a 8 false else s)

/-! ## What the whole-device resets leave (R524) -/

/-- Does an address lie in a range? -/
def inRange (lo hi a : Nat) : Bool := decide (lo ≤ a ∧ a < hi)

/-- Registers that the AON domain, the fuses and the straps hold: the AON block, BOOT's fuses, straps, RESUME, RESCHK and RESDIG, ID,
soft repairs, TRAINDATA and error bank 47. -/
def keptInAon (a : Nat) : Bool :=
  inRange 0x10200000 0x10300000 a || inRange 0x1A03F000 0x1A040000 a || a == Reg.SYSCTL_ID.at ||
  [Reg.BOOT_LCS, Reg.BOOT_FSVN, Reg.BOOT_KEYSTAT, Reg.BOOT_SEQCFG, Reg.BOOT_RESUME_LO, Reg.BOOT_RESUME_HI, Reg.BOOT_RESCHK, Reg.BOOT_RESDIG,
   Reg.MEMC_TUN_BANKSTAT, Reg.MEMC_CASK_BANKSTAT, Reg.MEMC_QDR_TRAINDATA, Reg.MEMC_DDR_TRAINDATA].any (fun r => r.holds a)

/-- Registers that a WARM reset keeps: also TRACE, SLOTMAP, the error records and their counts, LBAL, the recovery log's positions, and
the dispatch queues. -/
def keptWarm (a : Nat) : Bool :=
  keptInAon a || inRange 0x17000000 0x18000000 a || inRange 0x1A010000 0x1A040000 a ||
  [Reg.CLUSTER_SLOTMAP, Reg.ERRREC_SUMMARY_LO, Reg.ERRREC_SUMMARY_HI, Reg.CSS_LBAL, Reg.CSS_RLOG_HEAD, Reg.CSS_RLOG_TAIL, Reg.PACER_QCFG,
   Reg.PACER_QSTAT, Reg.PACER_QEAVG, Reg.PACER_QENERGY_LO, Reg.PACER_QENERGY_HI, Reg.PACER_RAILE_LO, Reg.PACER_RAILE_HI].any
    (fun r => r.holds a)

/-- Registers that PARK and OFF keep. -/
def keptAsleep (a : Nat) : Bool := keptInAon a || Reg.CLUSTER_SLOTMAP.holds a

/-- The register file after a reset. -/
def State.regsAfter (s : State) (keep : Nat → Bool) (locks : Bool) : Sparse W32 :=
  s.regs.filterMap (fun e =>
    let v := if keep e.1 then e.2 else s.valAfter locks e.1
    if v = resetAt e.1 then none else some (e.1, v))

/-- The fields that a reset keeps in registers that it resets: UNLOCK.FAILS, and by choice TSTAT.ADOPTED and SPARESTAT.RESERVE. -/
def State.carry (s old : State) (adopted reserve : Bool) : State :=
  let s := s.setRf Reg.DEBUG_UNLOCK.at 19 16 (old.rf Reg.DEBUG_UNLOCK.at 19 16)
  let s := if adopted then s.setRb Reg.RELAY_TSTAT.at 31 (old.rb Reg.RELAY_TSTAT.at 31) else s
  if reserve then
    (List.range 8).foldl (fun s n => s.setRf (Reg.CLUSTER_SPARESTAT.at n) 1 0 (old.rf (Reg.CLUSTER_SPARESTAT.at n) 1 0)) s
  else s

/-- HID after a reset: INCARN, and INDEX as on a device without an index. -/
def State.setIncarn (s : State) (n : Nat) : State :=
  s.setReg Reg.RELAY_HID.at (BitVec.ofNat 32 (n % 2 ^ 16 * 2 ^ 16 + (if s.manager then 0 else 31)))

/-- The latches and held words of the requesters that a reset of the whole device outside AON leaves: those of AON's pairs (R19, R21). -/
def aonPairs (m : Sparse (Option W32)) : Sparse (Option W32) := m.filter (fun e => inRange 0x10200000 0x10300000 (e.1 / 64))

/-- The units after a reset of the whole device outside AON: cores, caches, endpoint, CSS, adapters, engines and Relay start anew, and the tiers'
windows are as the registers then give them (R566). -/
def State.unitsAfter (s : State) (regs : Sparse W32) (mem : Mem) : State :=
  let q := s.reg Reg.MEMC_QTIER.at
  let d := s.reg Reg.MEMC_DTIER.at
  { s with
    regs := regs, latch := aonPairs s.latch, hold := aonPairs s.hold, mem := { mem with lines := [] }, fatalDue := false, stopped := false, spare := [],
    cores := (List.range numCores).foldl (fun m c => Sparse.set Core.reset m c (s.core c).afterReset) [],
    memc := { s.memc with powerDown := [], applied := false, fencedClusters := 0, marks := s.memc.marks.filter (fun m => m.bank == 32) },
    host := HostEp.reset, css := CssUnit.reset, adpt := [], mash := { steps := [], jobs := [] }, kiln := { steps := [], jobs := [] },
    vault := KilnUnit.reset, relay := RelayUnit.reset,
    boot := { s.boot with run := none, warm := none, lcs := none, sleep := false, itr := [], token := 0 } }.remapTiers q d

/-- Every dirty line is written back and every cache is empty. -/
def State.writeBackAll (s : State) : State :=
  let s := (s.mem.lines.map (fun e => e.1)).foldl (fun s n => s.cleanLine n) s
  { s with mem := { s.mem with lines := [] } }

/-- LEAVE leaves on each ACTIVE port, to the manager or, from it, to the neighbour (R388, R521). -/
def State.sendLeave (s : State) : State :=
  (List.range 6).foldl (fun s p =>
    if s.portState p = 3 then
      s.sendOn p { vl := 3, ty := 7, dst := if s.manager then s.rf (Reg.RELAY_PORTSTAT.at p) 20 16 else 0, src := s.devIndex, tag := 0, info := 0,
                   payload := pad64 [] }
    else s) s

/-- Every adapter takes its safe output state (R334), unless the Fatal sequence has done so. -/
def State.adaptersSafe (s : State) : State :=
  if s.cssStopped then s else (List.range 0x4C).foldl (fun s p => (s.sendSafe p).emit .safe p []) s

/-! ## WARM reset (R521) -/

/-- Steps 1 to 3: every core stops, stores drain, LEAVE, and the caches are written back. -/
def State.warmDrain (s : State) : State :=
  let s := (s.emit .pin 1 [0]).adaptersSafe
  let s := (List.range numCores).foldl (fun s c => (s.stopCore State.mmioWrite c).requeueHeldTask c) s
  s.sendLeave.writeBackAll

/-- A WARM reset with its bit of RSTCAUSE. A pending life-cycle change takes effect here, with its wipe of Cask (R252, R469). -/
def State.warmReset (s : State) (cause : Nat) : State :=
  let lcs := s.boot.lcs
  let old := s.warmDrain
  let s := old.unitsAfter (old.regsAfter keptWarm true) old.mem
  let s := { s with pacer := { PacerUnit.reset with queues := s.pacer.queues, njRest := s.pacer.njRest, ujRest := s.pacer.ujRest } }
  let s := (s.carry old true true).setIncarn (old.incarn + 1)
  let s := (List.range 8).foldl (fun s n => s.returnCores n) s
  let s := s.setRb Reg.AON_RSTCAUSE.at cause true
  let s := match lcs with
    | some l => ((s.setRf Reg.BOOT_LCS.at 2 0 l).setRb Reg.BOOT_LCS.at 31 false).wipeCask 4 false
    | none => s
  { s with boot := { s.boot with due := some 2, booted := none } }.refreshAuth

/-- The WARM reset that was requested. After a Fatal stop with HALT the device waits for PIN reset or POR (R58). -/
def State.warmDue (s : State) : State :=
  match s.boot.warm with
  | some cause => if s.stopped ∨ s.clk.power ≠ .run then s else s.warmReset cause
  | none => s

/-- WARM_RESET (R521): a write of RSTCTL.WARM, and the reset that is requested. -/
def execWarmReset (r : Option Requester) (s : State) : Answer :=
  .next (match r with
    | some r => (s.mmioWrite r Reg.SYSCTL_RSTCTL.at (BitVec.ofNat 32 (2 ^ 31 + s.rf Reg.SYSCTL_RSTCTL.at 5 0))).warmDue
    | none => s.warmDue)

/-- FATAL_HOLD_EXPIRY (R58): a WARM reset after the Fatal sequence, or a halt until PIN reset or POR. -/
def execFatalHoldExpiry (s : State) : Answer :=
  .next (
    if !s.cssStopped ∨ s.stopped then s
    else if s.rb Reg.ERRREC_FATALCTL.at 16 then { s with stopped := true }
    else ({ s with boot := { s.boot with warm := some 3 } }).warmDue)

/-- LCADV (R469): the write of LCADV with its key, and the WARM reset that follows the fuses. -/
def execLcadv (r : Requester) (target : BitVec 3) (s : State) : Answer :=
  .next (
    let s := s.mmioWrite r Reg.BOOT_LCADV.at (BitVec.ofNat 32 (0xC5 * 2 ^ 24 + target.toNat))
    if s.boot.warm = some 4 then s.warmDue else s)

/-! ## PIN reset -/

/-- Memory after PIN reset (R256): QDR where its devices stay powered; Tun and Cask zero; DRAM undefined, read as memory that nothing has
written (log entry 5). -/
def Mem.afterPin (m : Mem) (qdrKept : Bool) : Mem :=
  let kept (a : Nat) : Bool := qdrKept && inRange 0x800000000 0x900000000 a
  let keptAway (k : Nat) : Bool := qdrKept && decide (k / 2 ^ 40 < 6)
  { cells := m.cells.filter (fun e => kept e.1), poisoned := m.poisoned.filter (fun e => kept (e.1 * 64)),
    away := m.away.filter (fun e => keptAway e.1), awayPoison := m.awayPoison.filter (fun e => keptAway (e.1 * 64)), lines := [] }

/-- Bank 47's own part of SUMMARY. -/
def State.summary47 (s : State) : State := ((s.setReg Reg.ERRREC_SUMMARY_LO.at 0).setReg Reg.ERRREC_SUMMARY_HI.at 0).refreshBank 47

/-- The ETC restarts at 0 after OFF (R516, R553). -/
def State.etcRestart (s : State) : State :=
  (({ s with clk := { s.clk with etc := 0, frac := 0, copy := 0 } }).setRb Reg.AON_ETCSTAT.at 0 true).setRb Reg.AON_RSTCAUSE.at 5 true

/-- PIN_RESET (R520, R553): buffered stores and cached data are lost. In PARK or OFF, and in their entry window, it takes the place of the wake and powers the device
up; in OFF the ETC restarts. -/
def execPinReset (qdrKept : Bool) (s : State) : Answer :=
  .next (
    let old := s
    let asleep := s.clk.power ≠ .run
    let s := s.unitsAfter (s.regsAfter keptInAon true) (s.mem.afterPin qdrKept)
    let s := { s with pacer := PacerUnit.reset, trace := TraceUnit.reset, cores := [], errOut := false, ceCount := s.ceCount.filter (fun e => e.1 == 47),
                      memc := { s.memc with marks := [] },
                      boot := { s.boot with due := some 1, booted := none, powerUp := s.boot.powerUp || decide asleep } }
    let s := ((s.carry old false false).setIncarn (old.incarn + 1)).summary47
    let s := if old.clk.power = .off then s.etcRestart else s
    let s := { s with clk := { s.clk with power := .run }, boot := { s.boot with caskLost := false } }
    (((s.setRb Reg.AON_RSTCAUSE.at 1 true).wipeCask 7 false).emit .pin 1 [0]).refreshAuth)

end Sys2Proof.Machine
end

