-- ==== Sys2Proof/Machine/Power.lean ====
section
/-! DEFINITION. Device sleep (R483-R487, R523, R551): entry to PARK and OFF, the entry window, wake sources and the wake. -/
namespace Sys2Proof.Machine

/-! ## Entry -/

/-- The configuration snapshot (R523): every field with reset notation C and every RWL field. -/
def State.snapshot (s : State) : Sparse W32 :=
  s.regs.filterMap (fun e =>
    match regAt e.1 with
    | none => none
    | some r =>
      let v := r.fields.foldl (fun v f => if f.img || f.acc == .rwl then setFld v f.hi f.lo (fld e.2 f.hi f.lo) else v) (resetAt e.1)
      if v = resetAt e.1 then none else some (e.1, v))

/-- Steps 3 to 5 of R485: LEAVE, ports DOWN, cores stopped, stores drained, traces flushed, caches written back, DRAM in self-refresh,
RESDIG stored, Kiln cleared, regulators off; the entry window begins (R484). -/
def State.enterWindow (s : State) : State :=
  let target := s.rb Reg.PACER_DEVSLEEP.at 30
  let s := s.sendLeave
  let s := (List.range 6).foldl (fun s p => if s.portState p = 3 ∨ s.portState p = 4 then s.portDown p 1 1 else s) s
  let s := (List.range numCores).foldl (fun s c => if (s.core c).released && s.online c then (s.stopCore State.mmioWrite c).traceSleep c else s) s
  let s := s.flushSinks.writeBackAll
  let s := (List.range 16).foldl (fun s n => if s.rb Reg.MEMC_DTIER.at (8 + n) then s.setRb (ctrlBase (6 + n) + 4) 2 true else s) s
  let s := (s.setResdig.clearKeys.loseKilnSteps).powerOff
  { s with clk := { s.clk with power := .window target }, boot := { s.boot with sleep := false, snap := s.snapshot } }

/-- Entry goes on once the CSS has drained (R485, step 2). -/
def State.sleepOn (s : State) : State :=
  if s.boot.sleep ∧ s.clk.power = .run ∧ s.rf Reg.CSS_STAT.at 29 16 = 0 then s.enterWindow else s

/-- DEVSLEEP (R485): the write, step 1, and the steps up to the window when nothing is in flight. -/
def execDevsleep (r : Requester) (v : W32) (s : State) : Answer := .next (s.mmioWrite r Reg.PACER_DEVSLEEP.at v).sleepOn

/-- DRAIN_TIMEOUT (R485): the entry is aborted with ABORT 2. -/
def execDrainTimeout (s : State) : Answer :=
  .next (
    if !s.boot.sleep then s
    else
      let a := Reg.PACER_DEVSLEEP.at
      { (s.setRb a 31 false).setRf a 19 16 2 with boot := { s.boot with sleep := false } })

/-! ## Wake sources (R483, R484) -/

/-- Wake sources that are seen start the power-up. -/
def State.wakeSeen (s : State) (bits : Nat) : State :=
  if bits = 0 then s
  else
    let a := Reg.AON_WAKESTAT.at
    let s := s.setReg a (s.reg a ||| BitVec.ofNat 32 bits)
    { s with boot := { s.boot with powerUp := true } }

/-- Is ACLK present, so that a device asleep sees its wake sources (R513)? -/
def State.aclkOk (s : State) : Bool := s.rb Reg.AON_ETCSTAT.at 2

/-- Is the ETC alarm on: enabled, in PARK, with ETC ≥ WAKEETC? -/
def State.alarmOn (s : State) : Bool :=
  decide (s.clk.power = .park) && s.rb Reg.AON_WAKECFG.at 6 && decide (s.reg64 Reg.AON_WAKEETC_LO.at ≤ s.clk.etc.toNat)

/-- The sources that stand when entry completes: low level pins, the alarm, and edges held from before the window. -/
def State.standing (s : State) : Nat :=
  let cfg := s.reg Reg.AON_WAKECFG.at
  let stat := s.reg Reg.AON_WAKESTAT.at
  let pins := ((List.range 4).map (fun n =>
    if bit cfg n ∧ (if bit cfg (8 + n) then nfld s.boot.wakeLow n n = 1 else bit stat n) then 2 ^ n else 0)).sum
  pins + (if s.alarmOn then 2 ^ 6 else 0)

/-- What PARK or OFF leaves (R256, R524): registers outside AON at reset values, without locks after OFF; Tun lost, in OFF all memory. -/
def State.asleep (s : State) (off : Bool) : State :=
  let old := s
  let s := s.unitsAfter (s.regsAfter keptAsleep (!off)) (if off then { cells := [], poisoned := [], away := [], awayPoison := [], lines := [] } else s.mem.clearRange 0x2000000 0x3000000)
  let s := { s with pacer := PacerUnit.reset, trace := TraceUnit.reset, cores := [], errOut := false, ceCount := s.ceCount.filter (fun e => e.1 == 47),
                    clk := { s.clk with power := if off then .off else .park }, memc := { s.memc with applied := !off && old.memc.applied, marks := [] } }
  let s := if off then { s with boot := { s.boot with booted := none, snap := [] } } else s
  let s := (List.range 8).foldl (fun s n => s.countCapacity n) s
  (((s.carry old (!off) true).setIncarn old.incarn).summary47).emit .pin 1 [0]

/-- ENTRY_WINDOW_END (R484): AON takes over; a source that stands starts the wake at once. -/
def execEntryWindowEnd (s : State) : Answer :=
  .next (
    let s := s.sleepOn
    match s.clk.power with
    | .window off =>
      let s := s.asleep off
      if s.aclkOk then s.wakeSeen s.standing else s
    | _ => s)

/-- WAKE_PIN (R483, R484): an edge while the SoC is powered is held in WAKESTAT, in the window it is lost, and in PARK and OFF it
wakes; a low level wakes in PARK and OFF. -/
def execWakePin (n : BitVec 2) (low : Bool) (s : State) : Answer :=
  .next (
    let i := n.toNat
    let was := nfld s.boot.wakeLow i i = 1
    let mask := if low ∧ ¬ was then s.boot.wakeLow + 2 ^ i else if !low ∧ was then s.boot.wakeLow - 2 ^ i else s.boot.wakeLow
    let s := { s with boot := { s.boot with wakeLow := mask } }
    let cfg := s.reg Reg.AON_WAKECFG.at
    let edge := low ∧ ¬ was
    if !bit cfg i then s
    else match s.clk.power with
      | .run => if !bit cfg (8 + i) ∧ edge then s.setRb Reg.AON_WAKESTAT.at i true else s
      | .window _ => s
      | _ => if s.aclkOk ∧ (if bit cfg (8 + i) then low = true else edge) then s.wakeSeen (2 ^ i) else s)

/-- I2C0_ADDRESS_MATCH (R483, R484): in PARK and OFF a match of I2CWADDR is acknowledged and wakes; in the window every address
gets a NACK. -/
def execI2c0AddressMatch (addr : BitVec 7) (s : State) : Answer :=
  .next (
    match s.clk.power with
    | .run => s
    | .window _ => s.emit .pin 4 [0]
    | _ =>
      if s.aclkOk ∧ s.rb Reg.AON_WAKECFG.at 5 ∧ s.rf Reg.AON_I2CWADDR.at 6 0 = addr.toNat then (s.emit .pin 4 [1]).wakeSeen (2 ^ 5)
      else s.emit .pin 4 [0])

/-- ETC_ALARM (R483). -/
def execEtcAlarm (s : State) : Answer := .next (if s.aclkOk ∧ s.alarmOn then s.wakeSeen (2 ^ 6) else s)

/-! ## Wake -/

/-- Memory after the QDR devices have lost their power. -/
def Mem.loseQdr (m : Mem) : Mem :=
  { m with cells := m.cells.filter (fun e => !inRange 0x800000000 0x900000000 e.1),
           poisoned := m.poisoned.filter (fun e => !inRange 0x800000000 0x900000000 (e.1 * 64)),
           away := m.away.filter (fun e => decide (6 ≤ e.1 / 2 ^ 40)), awayPoison := m.awayPoison.filter (fun e => decide (6 ≤ e.1 * 64 / 2 ^ 40)) }

/-- An item that AON retains is lost (R526): the snapshot, the soft repairs of the SRAM banks, the training data. -/
def State.loseAon (s : State) : AonItem → State
  | .snapshot => { s with boot := { s.boot with snap := [] } }
  | .repairs => { s with regs := s.regs.filter (fun e => !(Reg.MEMC_TUN_BANKSTAT.holds e.1 || Reg.MEMC_CASK_BANKSTAT.holds e.1)) }
  | .traindata => { s with regs := s.regs.filter (fun e => !(Reg.MEMC_QDR_TRAINDATA.holds e.1 || Reg.MEMC_DDR_TRAINDATA.holds e.1)) }

/-- What the check code of a retained item finds on a wake (R526 UNIT 0x05). -/
def State.aonCheck (s : State) (item : AonItem) : ArrayCheck → State
  | .ok => s
  | .corrected => s.record { bank := 47, unit := 0x05, code := 0x01, sev := .corrected }
  | .bad => (s.loseAon item).record { bank := 47, unit := 0x05, code := 0x02, sev := .contained }

/-- The snapshot is restored (R523). The CSS starts anew: EN = 1 is restored as its first write is (log entry 15). A tamper event of the sleep has left
Cask without power: the power-up wipe runs (R253). trained: AON still holds the training data that the controllers load. -/
def State.restore (s : State) (trained : Bool) : State :=
  let q := s.reg Reg.MEMC_QTIER.at
  let d := s.reg Reg.MEMC_DTIER.at
  let s := (s.boot.snap.foldl (fun s e => s.setReg e.1 e.2) s).remapTiers q d
  let s := if s.boot.caskLost then s.wipeCask 7 false else s
  let a := Reg.CSS_CTL.at
  let s := if s.rb a 0 then (s.setRb a 0 false).mmioWrite .bootRom a (s.reg a) else s
  let s := s.presentCtrls.foldl (fun s k => s.trainLoad k trained) s
  { s with boot := { s.boot with snap := [], caskLost := false } }

/-- WAKE (R487, R516, R551): the regulators at OP5; after PARK the snapshot and the resume check, after OFF a full boot with the ETC
at zero. qdrKept: the board has kept the QDR devices powered in PARK; without it their contents are undefined (R256), and read as memory that nothing has
written (log entry 5). -/
def execWake (qdrKept : Bool) (item : AonItem) (chk : ArrayCheck) (s : State) : Answer :=
  .next (
    if !s.boot.powerUp then s
    else match s.clk.power with
      | .park =>
        let s := (if qdrKept then s else { s with mem := s.mem.loseQdr }).aonCheck item chk
        let s := { s.powerOn with clk := { s.clk with power := .run, frac := 0 }, boot := { s.powerOn.boot with due := some 5 } }
        (((s.restore (decide (item ≠ .traindata ∨ chk ≠ .bad))).setRb Reg.AON_RSTCAUSE.at 6 true).emit .pin 1 [1]).refreshAuth
      | .off =>
        let s := s.aonCheck item chk
        let s := { s.powerOn with clk := { s.clk with power := .run }, boot := { s.powerOn.boot with due := some 3 } }
        (((s.etcRestart).setIncarn (s.incarn + 1)).wipeCask 7 false).refreshAuth
      | _ => s)

/-- SOC_RAIL_TIMEOUT (R551): OPERATION off and SOCPWR_EN low; after 100 ms the sequence starts again. -/
def execSocRailTimeout (s : State) : Answer :=
  .next (if s.boot.powerUp then (((s.emit .power 1 [0]).emit .power 0 [0]).emit .power 0 [1]).emit .power 1 [1] else s)

end Sys2Proof.Machine
end

