-- ==== Sys2Proof/Machine/Dispatch.lean ====
section
/-! DEFINITION. The dispatch: one arm per command of the table, each a direct call of its meaning. -/
namespace Sys2Proof.Machine
open Sys2Proof

def exec (i : Instr) (s : State) : Host.Outcome State Fault Refusal :=
  match i with
  | .registerWrite r addr v hw => Sys2Proof.Machine.execRegisterWrite r addr v hw s
  | .registerSizeError r addr write size => Sys2Proof.Machine.execRegisterSizeError r addr write size s
  | .unmappedAccess t addr write => Sys2Proof.Machine.execUnmappedAccess t addr write s
  | .nameLoRead r addr => Sys2Proof.Machine.execNameLoRead r addr s
  | .nameHiRead r addr => Sys2Proof.Machine.execNameHiRead r addr s
  | .nameLoWrite r addr v => Sys2Proof.Machine.execNameLoWrite r addr v s
  | .nameHiWrite r addr v => Sys2Proof.Machine.execNameHiWrite r addr v s
  | .recordSlotFree r bank slot => Sys2Proof.Machine.execRecordSlotFree r bank slot s
  | .bankCtlWrite r bank v => Sys2Proof.Machine.execBankCtlWrite r bank v s
  | .partitionFence r pid => Sys2Proof.Machine.execPartitionFence r pid s
  | .partitionFenceRelease r pid => Sys2Proof.Machine.execPartitionFenceRelease r pid s
  | .fatalSequence found => Sys2Proof.Machine.execFatalSequence found s
  | .fatalHoldExpiry => Sys2Proof.Machine.execFatalHoldExpiry s
  | .add c rd rs1 rs2 => Sys2Proof.Machine.execAdd c rd rs1 rs2 s
  | .sub c rd rs1 rs2 => Sys2Proof.Machine.execSub c rd rs1 rs2 s
  | .and c rd rs1 rs2 => Sys2Proof.Machine.execAnd c rd rs1 rs2 s
  | .or c rd rs1 rs2 => Sys2Proof.Machine.execOr c rd rs1 rs2 s
  | .xor c rd rs1 rs2 => Sys2Proof.Machine.execXor c rd rs1 rs2 s
  | .andn c rd rs1 rs2 => Sys2Proof.Machine.execAndn c rd rs1 rs2 s
  | .orn c rd rs1 rs2 => Sys2Proof.Machine.execOrn c rd rs1 rs2 s
  | .xnor c rd rs1 rs2 => Sys2Proof.Machine.execXnor c rd rs1 rs2 s
  | .slt c rd rs1 rs2 => Sys2Proof.Machine.execSlt c rd rs1 rs2 s
  | .sltu c rd rs1 rs2 => Sys2Proof.Machine.execSltu c rd rs1 rs2 s
  | .min c rd rs1 rs2 => Sys2Proof.Machine.execMin c rd rs1 rs2 s
  | .max c rd rs1 rs2 => Sys2Proof.Machine.execMax c rd rs1 rs2 s
  | .minu c rd rs1 rs2 => Sys2Proof.Machine.execMinu c rd rs1 rs2 s
  | .maxu c rd rs1 rs2 => Sys2Proof.Machine.execMaxu c rd rs1 rs2 s
  | .addw c rd rs1 rs2 => Sys2Proof.Machine.execAddw c rd rs1 rs2 s
  | .subw c rd rs1 rs2 => Sys2Proof.Machine.execSubw c rd rs1 rs2 s
  | .sll c rd rs1 rs2 => Sys2Proof.Machine.execSll c rd rs1 rs2 s
  | .srl c rd rs1 rs2 => Sys2Proof.Machine.execSrl c rd rs1 rs2 s
  | .sra c rd rs1 rs2 => Sys2Proof.Machine.execSra c rd rs1 rs2 s
  | .ror c rd rs1 rs2 => Sys2Proof.Machine.execRor c rd rs1 rs2 s
  | .sllw c rd rs1 rs2 => Sys2Proof.Machine.execSllw c rd rs1 rs2 s
  | .srlw c rd rs1 rs2 => Sys2Proof.Machine.execSrlw c rd rs1 rs2 s
  | .sraw c rd rs1 rs2 => Sys2Proof.Machine.execSraw c rd rs1 rs2 s
  | .mul c rd rs1 rs2 => Sys2Proof.Machine.execMul c rd rs1 rs2 s
  | .mulh c rd rs1 rs2 => Sys2Proof.Machine.execMulh c rd rs1 rs2 s
  | .mulhu c rd rs1 rs2 => Sys2Proof.Machine.execMulhu c rd rs1 rs2 s
  | .mulhsu c rd rs1 rs2 => Sys2Proof.Machine.execMulhsu c rd rs1 rs2 s
  | .mulw c rd rs1 rs2 => Sys2Proof.Machine.execMulw c rd rs1 rs2 s
  | .div c rd rs1 rs2 => Sys2Proof.Machine.execDiv c rd rs1 rs2 s
  | .divu c rd rs1 rs2 => Sys2Proof.Machine.execDivu c rd rs1 rs2 s
  | .rem c rd rs1 rs2 => Sys2Proof.Machine.execRem c rd rs1 rs2 s
  | .remu c rd rs1 rs2 => Sys2Proof.Machine.execRemu c rd rs1 rs2 s
  | .divw c rd rs1 rs2 => Sys2Proof.Machine.execDivw c rd rs1 rs2 s
  | .divuw c rd rs1 rs2 => Sys2Proof.Machine.execDivuw c rd rs1 rs2 s
  | .remw c rd rs1 rs2 => Sys2Proof.Machine.execRemw c rd rs1 rs2 s
  | .remuw c rd rs1 rs2 => Sys2Proof.Machine.execRemuw c rd rs1 rs2 s
  | .clz c rd rs1 => Sys2Proof.Machine.execClz c rd rs1 s
  | .ctz c rd rs1 => Sys2Proof.Machine.execCtz c rd rs1 s
  | .popc c rd rs1 => Sys2Proof.Machine.execPopc c rd rs1 s
  | .rev8 c rd rs1 => Sys2Proof.Machine.execRev8 c rd rs1 s
  | .brev c rd rs1 => Sys2Proof.Machine.execBrev c rd rs1 s
  | .sextb c rd rs1 => Sys2Proof.Machine.execSextb c rd rs1 s
  | .sexth c rd rs1 => Sys2Proof.Machine.execSexth c rd rs1 s
  | .sextw c rd rs1 => Sys2Proof.Machine.execSextw c rd rs1 s
  | .zextw c rd rs1 => Sys2Proof.Machine.execZextw c rd rs1 s
  | .pickz c rd rs1 rs2 => Sys2Proof.Machine.execPickz c rd rs1 rs2 s
  | .picknz c rd rs1 rs2 => Sys2Proof.Machine.execPicknz c rd rs1 rs2 s
  | .crc32c c wd rd rs1 rs2 => Sys2Proof.Machine.execCrc32c c wd rd rs1 rs2 s
  | .addi c rd rs1 imm => Sys2Proof.Machine.execAddi c rd rs1 imm s
  | .addwi c rd rs1 imm => Sys2Proof.Machine.execAddwi c rd rs1 imm s
  | .andi c rd rs1 imm => Sys2Proof.Machine.execAndi c rd rs1 imm s
  | .ori c rd rs1 imm => Sys2Proof.Machine.execOri c rd rs1 imm s
  | .xori c rd rs1 imm => Sys2Proof.Machine.execXori c rd rs1 imm s
  | .slti c rd rs1 imm => Sys2Proof.Machine.execSlti c rd rs1 imm s
  | .sltui c rd rs1 imm => Sys2Proof.Machine.execSltui c rd rs1 imm s
  | .slli c rd rs1 sh => Sys2Proof.Machine.execSlli c rd rs1 sh s
  | .srli c rd rs1 sh => Sys2Proof.Machine.execSrli c rd rs1 sh s
  | .srai c rd rs1 sh => Sys2Proof.Machine.execSrai c rd rs1 sh s
  | .rori c rd rs1 sh => Sys2Proof.Machine.execRori c rd rs1 sh s
  | .sllwi c rd rs1 sh => Sys2Proof.Machine.execSllwi c rd rs1 sh s
  | .srlwi c rd rs1 sh => Sys2Proof.Machine.execSrlwi c rd rs1 sh s
  | .srawi c rd rs1 sh => Sys2Proof.Machine.execSrawi c rd rs1 sh s
  | .extu c rd rs1 pos lenM1 => Sys2Proof.Machine.execExtu c rd rs1 pos lenM1 s
  | .exts c rd rs1 pos lenM1 => Sys2Proof.Machine.execExts c rd rs1 pos lenM1 s
  | .ins c rd rs1 pos lenM1 => Sys2Proof.Machine.execIns c rd rs1 pos lenM1 s
  | .muli c rd rs1 imm => Sys2Proof.Machine.execMuli c rd rs1 imm s
  | .lui c rd imm => Sys2Proof.Machine.execLui c rd imm s
  | .auipc c rd imm => Sys2Proof.Machine.execAuipc c rd imm s
  | .adr c rd imm => Sys2Proof.Machine.execAdr c rd imm s
  | .luhi c rd imm => Sys2Proof.Machine.execLuhi c rd imm s
  | .ld c sz rt rb imm => Sys2Proof.Machine.execLd c sz rt rb imm s
  | .st c sz rt rb imm => Sys2Proof.Machine.execSt c sz rt rb imm s
  | .ldx c sz rt rb ri scale => Sys2Proof.Machine.execLdx c sz rt rb ri scale s
  | .stx c sz rt rb ri scale => Sys2Proof.Machine.execStx c sz rt rb ri scale s
  | .ldi c sz rt rb imm => Sys2Proof.Machine.execLdi c sz rt rb imm s
  | .sti c sz rt rb imm => Sys2Proof.Machine.execSti c sz rt rb imm s
  | .ldd c sz rt rb imm => Sys2Proof.Machine.execLdd c sz rt rb imm s
  | .std c sz rt rb imm => Sys2Proof.Machine.execStd c sz rt rb imm s
  | .l1dFill c va victim own ecc mem parity => Sys2Proof.Machine.execL1dFill c va victim own ecc mem parity s
  | .storeBufferDrain c ecc resp => Sys2Proof.Machine.execStoreBufferDrain c ecc resp s
  | .deviceLoadResponse c resp => Sys2Proof.Machine.execDeviceLoadResponse c resp s
  | .asyncBusError c arriving => Sys2Proof.Machine.execAsyncBusError c arriving s
  | .lateWriteback c residueOk => Sys2Proof.Machine.execLateWriteback c residueOk s
  | .ldres c wd rd rs1 => Sys2Proof.Machine.execLdres c wd rd rs1 s
  | .stcnd c wd rd rs1 rs2 => Sys2Proof.Machine.execStcnd c wd rd rs1 rs2 s
  | .blkmov c rd rs1 rs2 chunks => Sys2Proof.Machine.execBlkmov c rd rs1 rs2 chunks s
  | .blkset c rd rs1 rs2 chunks => Sys2Proof.Machine.execBlkset c rd rs1 rs2 chunks s
  | .fadd c fmt rd rs1 rs2 => Sys2Proof.Machine.execFadd c fmt rd rs1 rs2 s
  | .fsub c fmt rd rs1 rs2 => Sys2Proof.Machine.execFsub c fmt rd rs1 rs2 s
  | .fmul c fmt rd rs1 rs2 => Sys2Proof.Machine.execFmul c fmt rd rs1 rs2 s
  | .fdiv c fmt rd rs1 rs2 => Sys2Proof.Machine.execFdiv c fmt rd rs1 rs2 s
  | .fsqrt c fmt rd rs1 => Sys2Proof.Machine.execFsqrt c fmt rd rs1 s
  | .fmin c fmt rd rs1 rs2 => Sys2Proof.Machine.execFmin c fmt rd rs1 rs2 s
  | .fmax c fmt rd rs1 rs2 => Sys2Proof.Machine.execFmax c fmt rd rs1 rs2 s
  | .fmac c fmt rd rs1 rs2 => Sys2Proof.Machine.execFmac c fmt rd rs1 rs2 s
  | .fmsc c fmt rd rs1 rs2 => Sys2Proof.Machine.execFmsc c fmt rd rs1 rs2 s
  | .fabs c fmt rd rs1 => Sys2Proof.Machine.execFabs c fmt rd rs1 s
  | .fneg c fmt rd rs1 => Sys2Proof.Machine.execFneg c fmt rd rs1 s
  | .fcvtSD c rd rs1 => Sys2Proof.Machine.execFcvtSD c rd rs1 s
  | .fcvtDS c rd rs1 => Sys2Proof.Machine.execFcvtDS c rd rs1 s
  | .fcvtToInteger c uns fmt rd fs1 => Sys2Proof.Machine.execFcvtToInteger c uns fmt rd fs1 s
  | .fcvtFromInteger c uns fmt fd rs1 => Sys2Proof.Machine.execFcvtFromInteger c uns fmt fd rs1 s
  | .feq c fmt rd rs1 rs2 => Sys2Proof.Machine.execFeq c fmt rd rs1 rs2 s
  | .flt c fmt rd rs1 rs2 => Sys2Proof.Machine.execFlt c fmt rd rs1 rs2 s
  | .fle c fmt rd rs1 rs2 => Sys2Proof.Machine.execFle c fmt rd rs1 rs2 s
  | .fclass c fmt rd rs1 => Sys2Proof.Machine.execFclass c fmt rd rs1 s
  | .fmvGF c rd rs1 => Sys2Proof.Machine.execFmvGF c rd rs1 s
  | .fmvFG c rd rs1 => Sys2Proof.Machine.execFmvFG c rd rs1 s
  | .padd c lane rd rs1 rs2 => Sys2Proof.Machine.execPadd c lane rd rs1 rs2 s
  | .psub c lane rd rs1 rs2 => Sys2Proof.Machine.execPsub c lane rd rs1 rs2 s
  | .padds c lane rd rs1 rs2 => Sys2Proof.Machine.execPadds c lane rd rs1 rs2 s
  | .paddus c lane rd rs1 rs2 => Sys2Proof.Machine.execPaddus c lane rd rs1 rs2 s
  | .psubs c lane rd rs1 rs2 => Sys2Proof.Machine.execPsubs c lane rd rs1 rs2 s
  | .psubus c lane rd rs1 rs2 => Sys2Proof.Machine.execPsubus c lane rd rs1 rs2 s
  | .pmul c rd rs1 rs2 => Sys2Proof.Machine.execPmul c rd rs1 rs2 s
  | .pmulhs c rd rs1 rs2 => Sys2Proof.Machine.execPmulhs c rd rs1 rs2 s
  | .pmin c rd rs1 rs2 => Sys2Proof.Machine.execPmin c rd rs1 rs2 s
  | .pmax c rd rs1 rs2 => Sys2Proof.Machine.execPmax c rd rs1 rs2 s
  | .pminu c rd rs1 rs2 => Sys2Proof.Machine.execPminu c rd rs1 rs2 s
  | .pmaxu c rd rs1 rs2 => Sys2Proof.Machine.execPmaxu c rd rs1 rs2 s
  | .pcmpeq c lane rd rs1 rs2 => Sys2Proof.Machine.execPcmpeq c lane rd rs1 rs2 s
  | .pcmpgt c rd rs1 rs2 => Sys2Proof.Machine.execPcmpgt c rd rs1 rs2 s
  | .pand c rd rs1 rs2 => Sys2Proof.Machine.execPand c rd rs1 rs2 s
  | .por c rd rs1 rs2 => Sys2Proof.Machine.execPor c rd rs1 rs2 s
  | .pxor c rd rs1 rs2 => Sys2Proof.Machine.execPxor c rd rs1 rs2 s
  | .psad c rd rs1 rs2 => Sys2Proof.Machine.execPsad c rd rs1 rs2 s
  | .pfadd c rd rs1 rs2 => Sys2Proof.Machine.execPfadd c rd rs1 rs2 s
  | .pfsub c rd rs1 rs2 => Sys2Proof.Machine.execPfsub c rd rs1 rs2 s
  | .pfmul c rd rs1 rs2 => Sys2Proof.Machine.execPfmul c rd rs1 rs2 s
  | .pfmac c rd rs1 rs2 => Sys2Proof.Machine.execPfmac c rd rs1 rs2 s
  | .beq c rs1 rs2 off => Sys2Proof.Machine.execBeq c rs1 rs2 off s
  | .bne c rs1 rs2 off => Sys2Proof.Machine.execBne c rs1 rs2 off s
  | .blt c rs1 rs2 off => Sys2Proof.Machine.execBlt c rs1 rs2 off s
  | .bge c rs1 rs2 off => Sys2Proof.Machine.execBge c rs1 rs2 off s
  | .bltu c rs1 rs2 off => Sys2Proof.Machine.execBltu c rs1 rs2 off s
  | .bgeu c rs1 rs2 off => Sys2Proof.Machine.execBgeu c rs1 rs2 off s
  | .loop c rs1 off => Sys2Proof.Machine.execLoop c rs1 off s
  | .jmp c off => Sys2Proof.Machine.execJmp c off s
  | .bl c off => Sys2Proof.Machine.execBl c off s
  | .jr c rs1 => Sys2Proof.Machine.execJr c rs1 s
  | .jlr c rs1 => Sys2Proof.Machine.execJlr c rs1 s
  | .mfs c rd num => Sys2Proof.Machine.execMfs c rd num s
  | .mts c rs num => Sys2Proof.Machine.execMts c rs num s
  | .dcClean c rs => Sys2Proof.Machine.execDcClean c rs s
  | .dcInv c rs => Sys2Proof.Machine.execDcInv c rs s
  | .dcClinv c rs => Sys2Proof.Machine.execDcClinv c rs s
  | .dcZero c rs => Sys2Proof.Machine.execDcZero c rs s
  | .icInv c rs => Sys2Proof.Machine.execIcInv c rs s
  | .tlbiVa c rs => Sys2Proof.Machine.execTlbiVa c rs s
  | .tlbiAsid c rs => Sys2Proof.Machine.execTlbiAsid c rs s
  | .tlbiVmid c rs => Sys2Proof.Machine.execTlbiVmid c rs s
  | .tlbiAll c => Sys2Proof.Machine.execTlbiAll c s
  | .fenceC c => Sys2Proof.Machine.execFenceC c s
  | .fenceK c => Sys2Proof.Machine.execFenceK c s
  | .fenceS c => Sys2Proof.Machine.execFenceS c s
  | .barrierWaitEnd c => Sys2Proof.Machine.execBarrierWaitEnd c s
  | .isync c => Sys2Proof.Machine.execIsync c s
  | .wev c => Sys2Proof.Machine.execWev c s
  | .waitEnd c => Sys2Proof.Machine.execWaitEnd c s
  | .sev c scope => Sys2Proof.Machine.execSev c scope s
  | .wtu c rx => Sys2Proof.Machine.execWtu c rx s
  | .wtuDeadline c => Sys2Proof.Machine.execWtuDeadline c s
  | .clrres c => Sys2Proof.Machine.execClrres c s
  | .take c rd => Sys2Proof.Machine.execTake c rd s
  | .takeGrant c checkFails => Sys2Proof.Machine.execTakeGrant c checkFails s
  | .yield c => Sys2Proof.Machine.execYield c s
  | .gate c t n => Sys2Proof.Machine.execGate c t n s
  | .gret c => Sys2Proof.Machine.execGret c s
  | .eret c => Sys2Proof.Machine.execEret c s
  | .brk c imm => Sys2Proof.Machine.execBrk c imm s
  | .exceptionEntry c vec info far fipa wnr fetch => Sys2Proof.Machine.execExceptionEntry c vec info far fipa wnr fetch s
  | .interruptEntry c => Sys2Proof.Machine.execInterruptEntry c s
  | .instructionRetry c unit code inj line afterCk lost => Sys2Proof.Machine.execInstructionRetry c unit code inj line afterCk lost s
  | .checkpointScrub c j ecc => Sys2Proof.Machine.execCheckpointScrub c j ecc s
  | .proactiveThreshold c => Sys2Proof.Machine.execProactiveThreshold c s
  | .sparereqGo r n idx => Sys2Proof.Machine.execSparereqGo r n idx s
  | .sparing c bistOk xferOk xfer2Ok lost => Sys2Proof.Machine.execSparing c bistOk xferOk xfer2Ok lost s
  | .coreLoss c lost => Sys2Proof.Machine.execCoreLoss c lost s
  | .rangeClean c => Sys2Proof.Machine.execRangeClean c s
  | .rangeClinv c => Sys2Proof.Machine.execRangeClinv c s
  | .rangeInv c => Sys2Proof.Machine.execRangeInv c s
  | .rangeIinv c => Sys2Proof.Machine.execRangeIinv c s
  | .rangeOperationLine c => Sys2Proof.Machine.execRangeOperationLine c s
  | .dclinv c => Sys2Proof.Machine.execDclinv c s
  | .dclean c => Sys2Proof.Machine.execDclean c s
  | .dinv c => Sys2Proof.Machine.execDinv c s
  | .iinv c => Sys2Proof.Machine.execIinv c s
  | .cacheEnable c ien den => Sys2Proof.Machine.execCacheEnable c ien den s
  | .invall c => Sys2Proof.Machine.execInvall c s
  | .l2opClean r n => Sys2Proof.Machine.execL2opClean r n s
  | .l2opClinv r n => Sys2Proof.Machine.execL2opClinv r n s
  | .cacheScrub a part line ecc => Sys2Proof.Machine.execCacheScrub a part line ecc s
  | .clusterFence n unit code inj => Sys2Proof.Machine.execClusterFence n unit code inj s
  | .wayFence a way set => Sys2Proof.Machine.execWayFence a way set s
  | .qtierWrite r v => Sys2Proof.Machine.execQtierWrite r v s
  | .dtierWrite r v => Sys2Proof.Machine.execDtierWrite r v s
  | .gateBroadcastWrite r addr v => Sys2Proof.Machine.execGateBroadcastWrite r addr v s
  | .trainFull k results ok => Sys2Proof.Machine.execTrainFull k results ok s
  | .trainLoad k ok => Sys2Proof.Machine.execTrainLoad k ok s
  | .trainInvalidMode k => Sys2Proof.Machine.execTrainInvalidMode k s
  | .periodicRetraining n ok => Sys2Proof.Machine.execPeriodicRetraining n ok s
  | .powerDown n => Sys2Proof.Machine.execPowerDown n s
  | .patrolScrub k line ecc => Sys2Proof.Machine.execPatrolScrub k line ecc s
  | .sramScrub cask line ecc => Sys2Proof.Machine.execSramScrub cask line ecc s
  | .responseTimeout k t addr => Sys2Proof.Machine.execResponseTimeout k t addr s
  | .softRepair cask bank column lines => Sys2Proof.Machine.execSoftRepair cask bank column lines s
  | .sramBankFence cask bank => Sys2Proof.Machine.execSramBankFence cask bank s
  | .wipe r => Sys2Proof.Machine.execWipe r s
  | .tamperEvent cause => Sys2Proof.Machine.execTamperEvent cause s
  | .sqTailWrite r q v => Sys2Proof.Machine.execSqTailWrite r q v s
  | .cqHeadWrite r q v => Sys2Proof.Machine.execCqHeadWrite r q v s
  | .sqEntryRead => Sys2Proof.Machine.execSqEntryRead s
  | .scEnable r t => Sys2Proof.Machine.execScEnable r t s
  | .scDisable r t => Sys2Proof.Machine.execScDisable r t s
  | .scMigrateDrain r t pidx => Sys2Proof.Machine.execScMigrateDrain r t pidx s
  | .scMigrateForce r t pidx => Sys2Proof.Machine.execScMigrateForce r t pidx s
  | .scAbort r t => Sys2Proof.Machine.execScAbort r t s
  | .rpEnable r t => Sys2Proof.Machine.execRpEnable r t s
  | .rpDisable r t => Sys2Proof.Machine.execRpDisable r t s
  | .rpFlush r t => Sys2Proof.Machine.execRpFlush r t s
  | .badop r op t => Sys2Proof.Machine.execBadop r op t s
  | .ccdNop sc => Sys2Proof.Machine.execCcdNop sc s
  | .branch sc => Sys2Proof.Machine.execBranch sc s
  | .ccdWait sc => Sys2Proof.Machine.execCcdWait sc s
  | .waitExpiry sc => Sys2Proof.Machine.execWaitExpiry sc s
  | .check of => Sys2Proof.Machine.execCheck of s
  | .mash of => Sys2Proof.Machine.execMash of s
  | .unmash of => Sys2Proof.Machine.execUnmash of s
  | .seal of => Sys2Proof.Machine.execSeal of s
  | .unseal of => Sys2Proof.Machine.execUnseal of s
  | .ccdRead sc => Sys2Proof.Machine.execCcdRead sc s
  | .ccdWrite sc => Sys2Proof.Machine.execCcdWrite sc s
  | .control sc => Sys2Proof.Machine.execControl sc s
  | .sense sc => Sys2Proof.Machine.execSense sc s
  | .engineStepEnd kiln chk => Sys2Proof.Machine.execEngineStepEnd kiln chk s
  | .pathReport path slot gen notSent => Sys2Proof.Machine.execPathReport path slot gen notSent s
  | .stepTimeout sc => Sys2Proof.Machine.execStepTimeout sc s
  | .nopathTimeout sc => Sys2Proof.Machine.execNopathTimeout sc s
  | .coalescingTimeout q => Sys2Proof.Machine.execCoalescingTimeout q s
  | .pathFence p why => Sys2Proof.Machine.execPathFence p why s
  | .pathctlFence r p => Sys2Proof.Machine.execPathctlFence r p s
  | .pathctlEn r p en => Sys2Proof.Machine.execPathctlEn r p en s
  | .pathOnline p => Sys2Proof.Machine.execPathOnline p s
  | .cssEnable r => Sys2Proof.Machine.execCssEnable r s
  | .cssDisable r => Sys2Proof.Machine.execCssDisable r s
  | .rlogHeadWrite r v => Sys2Proof.Machine.execRlogHeadWrite r v s
  | .rlogcfgWrite r v => Sys2Proof.Machine.execRlogcfgWrite r v s
  | .ledgerScrub slot => Sys2Proof.Machine.execLedgerScrub slot s
  | .mirror port => Sys2Proof.Machine.execMirror port s
  | .mack port => Sys2Proof.Machine.execMack port s
  | .mref port => Sys2Proof.Machine.execMref port s
  | .cancel port => Sys2Proof.Machine.execCancel port s
  | .mirrorResend => Sys2Proof.Machine.execMirrorResend s
  | .peerwaitExpiry dev => Sys2Proof.Machine.execPeerwaitExpiry dev s
  | .noslotKeyExpiry dev slot gen => Sys2Proof.Machine.execNoslotKeyExpiry dev slot gen s
  | .frameReceive path f ts bad => Sys2Proof.Machine.execFrameReceive path f ts bad s
  | .frameSent path errs sfd => Sys2Proof.Machine.execFrameSent path errs sfd s
  | .readWaitExpiry path slot => Sys2Proof.Machine.execReadWaitExpiry path slot s
  | .linkLoss path => Sys2Proof.Machine.execLinkLoss path s
  | .adapterReset r path => Sys2Proof.Machine.execAdapterReset r path s
  | .qbvCycleStart path => Sys2Proof.Machine.execQbvCycleStart path s
  | .gclEntryEnd path => Sys2Proof.Machine.execGclEntryEnd path s
  | .sdResponse path bytes => Sys2Proof.Machine.execSdResponse path bytes s
  | .sdRetransmit path => Sys2Proof.Machine.execSdRetransmit path s
  | .keepAlive path cs => Sys2Proof.Machine.execKeepAlive path cs s
  | .faultin path => Sys2Proof.Machine.execFaultin path s
  | .jobStart r kiln ch v => Sys2Proof.Machine.execJobStart r kiln ch v s
  | .verify ch => Sys2Proof.Machine.execVerify ch s
  | .cipher ch => Sys2Proof.Machine.execCipher ch s
  | .derive r dst src root => Sys2Proof.Machine.execDerive r dst src root s
  | .importKey r dst src => Sys2Proof.Machine.execImportKey r dst src s
  | .ldrInvalidOp r v => Sys2Proof.Machine.execLdrInvalidOp r v s
  | .slotClear r slot v => Sys2Proof.Machine.execSlotClear r slot v s
  | .rngdataRead r sealedReg => Sys2Proof.Machine.execRngdataRead r sealedReg s
  | .healthTestFailure => Sys2Proof.Machine.execHealthTestFailure s
  | .rngRestart r => Sys2Proof.Machine.execRngRestart r s
  | .fullTraining port lanes => Sys2Proof.Machine.execFullTraining port lanes s
  | .param port p => Sys2Proof.Machine.execParam port p s
  | .idle port ack => Sys2Proof.Machine.execIdle port ack s
  | .nak port seq ack => Sys2Proof.Machine.execNak port seq ack s
  | .bret port freed ack => Sys2Proof.Machine.execBret port freed ack s
  | .recon port accepted freed => Sys2Proof.Machine.execRecon port accepted freed s
  | .dataFrameReceive port seq crcOk ack f injected => Sys2Proof.Machine.execDataFrameReceive port seq crcOk ack f injected s
  | .replayTimeout port ecc => Sys2Proof.Machine.execReplayTimeout port ecc s
  | .fastRetrain port lost => Sys2Proof.Machine.execFastRetrain port lost s
  | .retrainLimit port => Sys2Proof.Machine.execRetrainLimit port s
  | .portEnable r port v => Sys2Proof.Machine.execPortEnable r port v s
  | .portFence r port => Sys2Proof.Machine.execPortFence r port s
  | .rd port => Sys2Proof.Machine.execRd port s
  | .wr port => Sys2Proof.Machine.execWr port s
  | .wrd port => Sys2Proof.Machine.execWrd port s
  | .fwd port => Sys2Proof.Machine.execFwd port s
  | .brd port => Sys2Proof.Machine.execBrd port s
  | .bwr port => Sys2Proof.Machine.execBwr port s
  | .rdr port => Sys2Proof.Machine.execRdr port s
  | .relayCmp port => Sys2Proof.Machine.execRelayCmp port s
  | .requestTimeout tag => Sys2Proof.Machine.execRequestTimeout tag s
  | .assign port => Sys2Proof.Machine.execAssign port s
  | .routeset port => Sys2Proof.Machine.execRouteset port s
  | .ready port => Sys2Proof.Machine.execReady port s
  | .assignRepeat dev => Sys2Proof.Machine.execAssignRepeat dev s
  | .sync port t2 t3 => Sys2Proof.Machine.execSync port t2 t3 s
  | .syncPeriod => Sys2Proof.Machine.execSyncPeriod s
  | .dreq port t4 => Sys2Proof.Machine.execDreq port t4 s
  | .dresp port => Sys2Proof.Machine.execDresp port s
  | .loss port => Sys2Proof.Machine.execLoss port s
  | .lossRepeat => Sys2Proof.Machine.execLossRepeat s
  | .leave port => Sys2Proof.Machine.execLeave port s
  | .configurationRequest fn off wr => Sys2Proof.Machine.execConfigurationRequest fn off wr s
  | .bar0Request fn off len wr ep => Sys2Proof.Machine.execBar0Request fn off len wr ep s
  | .bar2Request fn off len wr ep chk => Sys2Proof.Machine.execBar2Request fn off len wr ep chk s
  | .rpcmdEnable q => Sys2Proof.Machine.execRpcmdEnable q s
  | .rpcmdDisable q => Sys2Proof.Machine.execRpcmdDisable q s
  | .rpcmdFlush q => Sys2Proof.Machine.execRpcmdFlush q s
  | .intpendClear v => Sys2Proof.Machine.execIntpendClear v s
  | .bmeChange fn en => Sys2Proof.Machine.execBmeChange fn en s
  | .flr fn => Sys2Proof.Machine.execFlr fn s
  | .vfEnableClear => Sys2Proof.Machine.execVfEnableClear s
  | .d3hotToD0 fn => Sys2Proof.Machine.execD3hotToD0 fn s
  | .linkReset perst => Sys2Proof.Machine.execLinkReset perst s
  | .hostCompletion tag res chk => Sys2Proof.Machine.execHostCompletion tag res chk s
  | .completionTimeout tag => Sys2Proof.Machine.execCompletionTimeout tag s
  | .mbdbSend => Sys2Proof.Machine.execMbdbSend s
  | .mbsend r => Sys2Proof.Machine.execMbsend r s
  | .edgeEvent c snum => Sys2Proof.Machine.execEdgeEvent c snum s
  | .levelLine src high chk => Sys2Proof.Machine.execLevelLine src high chk s
  | .setp r addr v => Sys2Proof.Machine.execSetp r addr v s
  | .csig r v => Sys2Proof.Machine.execCsig r v s
  | .ieoi c rs => Sys2Proof.Machine.execIeoi c rs s
  | .istkclr c rs => Sys2Proof.Machine.execIstkclr c rs s
  | .sealedRestart r set => Sys2Proof.Machine.execSealedRestart r set s
  | .blkgateWrite r b v => Sys2Proof.Machine.execBlkgateWrite r b v s
  | .chal r => Sys2Proof.Machine.execChal r s
  | .unlock r => Sys2Proof.Machine.execUnlock r s
  | .relock r => Sys2Proof.Machine.execRelock r s
  | .halt r c => Sys2Proof.Machine.execHalt r c s
  | .resume r c => Sys2Proof.Machine.execResume r c s
  | .step r c => Sys2Proof.Machine.execStep r c s
  | .itr r c v => Sys2Proof.Machine.execItr r c v s
  | .extest bits => Sys2Proof.Machine.execExtest bits s
  | .idcode => Sys2Proof.Machine.execIdcode s
  | .samplePreload bits => Sys2Proof.Machine.execSamplePreload bits s
  | .clamp => Sys2Proof.Machine.execClamp s
  | .highz => Sys2Proof.Machine.execHighz s
  | .bypass code tdi => Sys2Proof.Machine.execBypass code tdi s
  | .dap v => Sys2Proof.Machine.execDap v s
  | .fullBoot env => Sys2Proof.Machine.execFullBoot env s
  | .bootSourceTimeout => Sys2Proof.Machine.execBootSourceTimeout s
  | .manifest m => Sys2Proof.Machine.execManifest m s
  | .blockData m => Sys2Proof.Machine.execBlockData m s
  | .endDownload m => Sys2Proof.Machine.execEndDownload m s
  | .release r j v => Sys2Proof.Machine.execRelease r j v s
  | .lcadv r target => Sys2Proof.Machine.execLcadv r target s
  | .raiseSvn r arg verified => Sys2Proof.Machine.execRaiseSvn r arg verified s
  | .revokeRootKeySlot r arg verified => Sys2Proof.Machine.execRevokeRootKeySlot r arg verified s
  | .revokeDebugKeySlot r arg verified => Sys2Proof.Machine.execRevokeDebugKeySlot r arg verified s
  | .fuseprogInvalidOp r arg => Sys2Proof.Machine.execFuseprogInvalidOp r arg s
  | .parkResume env => Sys2Proof.Machine.execParkResume env s
  | .epoch ms soc chk => Sys2Proof.Machine.execEpoch ms soc chk s
  | .voltageConfirmed g repeated => Sys2Proof.Machine.execVoltageConfirmed g repeated s
  | .voltageTimeout g => Sys2Proof.Machine.execVoltageTimeout g s
  | .measurement energies temps other => Sys2Proof.Machine.execMeasurement energies temps other s
  | .qpush r q v => Sys2Proof.Machine.execQpush r q v s
  | .devsleep r v => Sys2Proof.Machine.execDevsleep r v s
  | .drainTimeout => Sys2Proof.Machine.execDrainTimeout s
  | .entryWindowEnd => Sys2Proof.Machine.execEntryWindowEnd s
  | .wakePin n low => Sys2Proof.Machine.execWakePin n low s
  | .i2c0AddressMatch addr => Sys2Proof.Machine.execI2c0AddressMatch addr s
  | .etcAlarm => Sys2Proof.Machine.execEtcAlarm s
  | .wake qdrKept item chk => Sys2Proof.Machine.execWake qdrKept item chk s
  | .idleEntry c => Sys2Proof.Machine.execIdleEntry c s
  | .swmsg r ch v => Sys2Proof.Machine.execSwmsg r ch v s
  | .traceSourceEnable r n v => Sys2Proof.Machine.execTraceSourceEnable r n v s
  | .chunkTimeout n chk => Sys2Proof.Machine.execChunkTimeout n chk s
  | .syncPeriodic n => Sys2Proof.Machine.execSyncPeriodic n s
  | .sinkWrite k flush resp => Sys2Proof.Machine.execSinkWrite k flush resp s
  | .frozenClear r k => Sys2Proof.Machine.execFrozenClear r k s
  | .refLost => Sys2Proof.Machine.execRefLost s
  | .pllLockLost pll => Sys2Proof.Machine.execPllLockLost pll s
  | .aclkLost => Sys2Proof.Machine.execAclkLost s
  | .etcIncrement copyOk => Sys2Proof.Machine.execEtcIncrement copyOk s
  | .etcComparator c => Sys2Proof.Machine.execEtcComparator c s
  | .pinReset qdrKept => Sys2Proof.Machine.execPinReset qdrKept s
  | .warmReset r => Sys2Proof.Machine.execWarmReset r s
  | .clusterReset r n => Sys2Proof.Machine.execClusterReset r n s
  | .coreReset r c => Sys2Proof.Machine.execCoreReset r c s
  | .socRailTimeout => Sys2Proof.Machine.execSocRailTimeout s
  | .binjArm r j v => Sys2Proof.Machine.execBinjArm r j v s
  | .rsvtest r n pass => Sys2Proof.Machine.execRsvtest r n pass s
  | .l1iFill c va victim mem parity => Sys2Proof.Machine.execL1iFill c va victim mem parity s
  | .linkUp speed width => Sys2Proof.Machine.execLinkUp speed width s
  | .bretInterval port => Sys2Proof.Machine.execBretInterval port s
  | .ackInterval port => Sys2Proof.Machine.execAckInterval port s

end Sys2Proof.Machine
end

