-- ==== Sys2Proof/Safety.lean ====
section
/-! DEFINITION. What claims are stated in: the canonical form of the state, the legal values of a core's own registers,
and when a core executes an instruction with nothing else in the way. -/
namespace Sys2Proof.Machine

/-! ## Canonical and legal states -/

/-- The data that a cache holds of a line is a whole line (R212). -/
def CLine.full (l : CLine) : Bool :=
  (match l.l1 with | some d => d.data.length == 64 | none => true) && (match l.dirty with | some d => d.length == 64 | none => true)

/-- Every table that holds memory, registers or cores is in its one canonical form, and every cached line's data is whole. -/
def State.canonical (s : State) : Bool :=
  s.mem.wf && s.mem.lines.all (fun e => e.2.full) && Sparse.wf resetAt s.regs && Sparse.wf (fun _ => Core.reset) s.cores

/-- A core's registers that the manual restricts: WORLD is 1 exactly at level M and STAT's reserved bits are zero (STAT's table, R79);
PC and the loop addresses are word addresses (R65, R73). -/
def Core.legal (k : Core) : Bool :=
  (bit k.stat 2 == (k.lvl == 3)) && fld k.stat 3 3 == 0 && fld k.stat 63 10 == 0 &&
  fld k.pc 1 0 == 0 && fld k.lbeg 1 0 == 0 && fld k.lend 1 0 == 0

/-! ## A core with nothing in the way -/

/-- A core executes the effect of its next instruction: it runs, nothing comes before it (a halt, a restart entry, a report, an interrupt: R78, R149, R441,
R448), no breakpoint matches (R447), and the instruction comes from its own program (R449). -/
def State.ready (s : State) (c : Nat) : Bool :=
  s.runs c && (s.due c).isNone && (s.core c).breakHit.isNone && !(s.core c).itr

/-- Debug, injection and trace are at rest for a core: DBGCTL is zero (R447), no halt is requested or stepped (R448), no injector is armed and
nothing injected is held (R541), and neither of its trace sources is enabled (R503). -/
def State.still (s : State) (c : Nat) : Bool :=
  decide ((s.core c).srd 0xA40 = 0) && !(s.core c).stepping && !s.rb (Reg.DEBUG_CORECTL.at c) 30 &&
  (List.range 4).all (fun i => !s.rb (Reg.DEBUG_BINJ_CTL.at i) 31) && s.memc.marks.isEmpty && s.tstate c == 0 && s.tstate (48 + c) == 0

/-- A core that is ready, with debug, injection and trace at rest. -/
def State.calm (s : State) (c : Nat) : Bool := s.ready c && s.still c

/-- The next PC of an instruction that falls through, with the hardware loop (R73). -/
def Core.nextPc (k : Core) : Core :=
  if k.pc = k.lend ∧ 1 < k.lcnt then { k with pc := k.lbeg, lcnt := k.lcnt - 1, retries := 0 }
  else if k.pc = k.lend ∧ k.lcnt = 1 then { k with pc := k.pc + 4, lcnt := 0, retries := 0 }
  else { k with pc := k.pc + 4, retries := 0 }

/-- A core after an instruction that falls through: the next PC, and the hold of a reserved line over (R105). -/
def Core.fallThrough (k : Core) : Core := (k.holdAfter .next).nextPc

/-- A core after an instruction of class I0, of which the hold of a reserved line lasts for eight (R105). -/
def Core.fallThrough0 (k : Core) : Core := (k.holdAfter .i0).nextPc

/-- An instruction of class I0 runs to its end: it leaves its core as k at the next PC, and changes nothing else. -/
def completes0 (i : Instr) (s : State) (c : Nat) (k : Core) : Prop := exec i s = .next (s.setCore c k.fallThrough0)

/-- The instruction runs to its end: it leaves its core as k at the next PC, and changes nothing else. -/
def completes (i : Instr) (s : State) (c : Nat) (k : Core) : Prop := exec i s = .next (s.setCore c k.fallThrough)

/-- The instruction takes an exception in place of its effect (R88, R90); a requested halt comes at the boundary before the handler (R448). -/
def traps (i : Instr) (s : State) (c : Nat) (e : Exc) : Prop := exec i s = .next ((s.raise c e).haltBoundary c)

/-! ## Values of data -/

end Sys2Proof.Machine

namespace Sys2Proof
open Sys2Proof.Machine

/-- The exact value of a datum that is a number. -/
def FVal.toRat : FVal → Option Rat
  | .zero _ => some 0
  | .fin sg m e => some ((if sg then -1 else 1) * (m : Rat) * (2 : Rat) ^ e)
  | _ => none

/-- The exact value of an operand of a format, where it is a finite number. -/
def Fmt.value (f : Fmt) (v : W64) : Option Rat := (f.unpack v).toRat

/-- r is the exact value q rounded to the format under a rounding mode (R72, R97): no number of the format lies nearer on the side the
mode rounds to; of two equally near, nearest-even takes the one with an even last bit and nearest-away the larger magnitude. A result that is
no number has overflowed. -/
def Fmt.rounds (f : Fmt) (rm : Nat) (q : Rat) (r : W64) : Prop :=
  match f.value r with
  | some v => ∀ u w, f.value u = some w →
      (rm = 0 → (v - q).abs ≤ (w - q).abs ∧ ((v - q).abs = (w - q).abs → v ≠ w → r.toNat % 2 = 0)) ∧
      (rm = 1 → v.abs ≤ q.abs ∧ 0 ≤ v * q ∧ (w.abs ≤ q.abs → w.abs ≤ v.abs)) ∧
      (rm = 2 → q ≤ v ∧ (q ≤ w → v ≤ w)) ∧
      (rm = 3 → v ≤ q ∧ (w ≤ q → w ≤ v)) ∧
      (rm = 4 → (v - q).abs ≤ (w - q).abs ∧ ((v - q).abs = (w - q).abs → w.abs ≤ v.abs))
  | none => r = f.infBits (decide (q < 0)) ∧ ∀ u w, f.value u = some w → w.abs < q.abs

end Sys2Proof

namespace Sys2Proof.Machine

/-- Lane i of width w of a packed value (R70). -/
def laneAt (w i : Nat) (v : W64) : BitVec w := v.extractLsb' (w * i) w

/-! ## Ordinary memory -/

/-- n bytes at va are ordinary memory to core c at a level with nothing on the way: identity-mapped by both stages (R200), in one page, in no
register region and no window, outside the store buffer's bytes (R183), held by no cache that the access looks in (R245), admitted by the decode and
the gates (R27, R243), not poisoned (R229), and the prefetcher off (R220). -/
def State.plainAt (s : State) (c lvl : Nat) (write : Bool) (va : W64) (n : Nat) : Bool :=
  let k := s.core c
  let a := va.toNat
  let lines := (List.range ((a % 64 + n + 63) / 64)).map (fun i => max a ((a / 64 + i) * 64))
  (match k.half lvl va with | some ttb => !bit ttb 0 | none => false) && !(decide (lvl < 2) && bit (k.srd 0x8C1) 0) &&
  decide (fld va 63 44 = 0) && decide (n ≤ 4096 - a % 4096) &&
  !inRegs a && !inWindow a && k.sbuf.all (fun e => !e.overlaps a n) && !bit (k.srd 0x500) 0 &&
  lines.all (fun x => (s.mem.firstCopy (x / 64) (dataPlaces c)).isNone && decide (s.admits (k.tagAt c lvl) write x = (s, none)) && !s.mem.poisonAt x)

/-- The same at the level that the core runs at. -/
def State.plain (s : State) (c : Nat) (write : Bool) (va : W64) (n : Nat) : Bool := s.plainAt c (s.core c).lvl write va n

/-- The number that n bytes of memory from an address hold, least significant first (R5). -/
def State.number (s : State) (a n : Nat) : Nat := ((List.range n).map (fun i => (s.byte (a + i)).toNat * 256 ^ i)).sum

/-! ## Ended operations -/

/-- The operation of a slot has ended with a status: nothing of it is in flight, and the slot holds its completion record (R268, R285, R295)
where it has not gone to the log and been freed. -/
def State.ended (s : State) (n status : Nat) : Prop :=
  s.op? n = none ∧ inFlight (s.slot n).st = false ∧ ((s.slot n).st = 0 ∨ leNat ((s.slot n).image.take 4) / 2 ^ 24 = status)

/-! ## Relay links -/

/-- A port sends a flit of a VL at once: ACTIVE with nothing queued, a baton, room in its replay buffer, and its injector off (R367, R368, R371,
R393). -/
def State.portOpen (s : State) (p vl : Nat) : Bool :=
  let q := s.port p
  decide (p < 6) && decide (vl < 4) && s.portState p == 3 && q.queue.isEmpty && q.batons vl != 0 && decide (q.replay.length < 256) &&
  !s.rb (Reg.RELAY_FINJ.at p) 31 && q.late.isNone

/-- From s to u a port has sent one flit and nothing else has left the device: the flit's frame is the last output, and the replay buffer keeps it
(R364, R371). -/
def State.sent (s u : State) (p : Nat) (f : Flit) : Prop :=
  let q := s.port p
  u.out = s.out ++ [{ kind := .relay, port := p, data := (frameBytes q.nextSeq ((q.expect + 511) % 512) f false).map BitVec.toNat }] ∧
  (u.port p).replay = q.replay ++ [(q.nextSeq, f)] ∧ (u.port p).queue = [] ∧ (u.port p).nextSeq = (q.nextSeq + 1) % 512

/-- A port that no route and no peer path uses, with nothing to send (R377, R381): its going down concerns no device. -/
def State.portQuiet (s : State) (p : Nat) : Bool :=
  (s.port p).queue.isEmpty && (List.range 31).all (fun d => nfld (s.rf (Reg.RELAY_HROUTE.at d) 5 0) p p == 0) &&
  (List.range 20).all (fun k => !s.rb (Reg.RELAY_PEERPATH.at k) 31 && s.pathState (0x4C + k) != 1)

end Sys2Proof.Machine
end

