-- ==== Sys2Proof/Certificates/Slice0/Obligations.lean ====
section
/-! DEFINITION. The statements for the provers: what the numbered rules of the manual say the block does. -/
open Sys2Proof Sys2Proof.Machine

/-! ## Integer instructions -/

/-- The integer register operations of the first table of the chapter Instruction Reference, with R94: each writes its result to rd and
falls through, and nothing else changes.

The one-operand integer operations: counts, reversals and extensions. -/
def Obligations.IntegerRegisterResults : Prop :=
  (∀ (s : State) (c : Nat) (d a b : RegNo), s.calm c = true →
      let x := (s.core c).g a.toNat
      let y := (s.core c).g b.toNat
      let n := y.toNat % 64
      let nw := y.toNat % 32
      let xw : W32 := x.truncate 32
      let yw : W32 := y.truncate 32
      let gives (i : Instr) (v : W64) : Prop := completes0 i s c ((s.core c).setG d.toNat v)
      gives (.add c d a b) (BitVec.ofNat 64 (x.toNat + y.toNat)) ∧
      gives (.sub c d a b) (BitVec.ofInt 64 (x.toNat - y.toNat)) ∧
      gives (.and c d a b) (x &&& y) ∧ gives (.or c d a b) (x ||| y) ∧ gives (.xor c d a b) (x ^^^ y) ∧
      gives (.andn c d a b) (x &&& ~~~ y) ∧ gives (.orn c d a b) (x ||| ~~~ y) ∧ gives (.xnor c d a b) (~~~ (x ^^^ y)) ∧
      gives (.slt c d a b) (if x.toInt < y.toInt then 1 else 0) ∧
      gives (.sltu c d a b) (if x.toNat < y.toNat then 1 else 0) ∧
      gives (.min c d a b) (BitVec.ofInt 64 (min x.toInt y.toInt)) ∧
      gives (.max c d a b) (BitVec.ofInt 64 (max x.toInt y.toInt)) ∧
      gives (.minu c d a b) (BitVec.ofNat 64 (min x.toNat y.toNat)) ∧
      gives (.maxu c d a b) (BitVec.ofNat 64 (max x.toNat y.toNat)) ∧
      gives (.addw c d a b) ((xw + yw).signExtend 64) ∧
      gives (.subw c d a b) ((xw - yw).signExtend 64) ∧
      gives (.sll c d a b) (x <<< n) ∧
      gives (.srl c d a b) (BitVec.ofNat 64 (x.toNat / 2 ^ n)) ∧
      gives (.sra c d a b) (BitVec.ofInt 64 (x.toInt / 2 ^ n)) ∧
      gives (.ror c d a b) ((x >>> n) ||| (x <<< ((64 - n) % 64))) ∧
      gives (.sllw c d a b) ((xw <<< nw).signExtend 64) ∧
      gives (.srlw c d a b) ((xw >>> nw).signExtend 64) ∧
      gives (.sraw c d a b) ((xw.sshiftRight nw).signExtend 64) ∧
      completes (.mul c d a b) s c ((s.core c).setG d.toNat (BitVec.ofNat 64 (x.toNat * y.toNat))) ∧
      completes (.mulw c d a b) s c ((s.core c).setG d.toNat ((xw * yw).signExtend 64)) ∧
      gives (.pickz c d a b) (if y = 0 then x else (s.core c).g d.toNat) ∧
      gives (.picknz c d a b) (if y = 0 then (s.core c).g d.toNat else x)) ∧
  (∀ (s : State) (c : Nat) (d a : RegNo), s.calm c = true →
      let x := (s.core c).g a.toNat
      let gives (i : Instr) (v : W64) : Prop := completes0 i s c ((s.core c).setG d.toNat v)
      (∃ v : W64, gives (.clz c d a) v ∧ v.toNat ≤ 64 ∧ (∀ i, 64 - v.toNat ≤ i → x.getLsbD i = false) ∧
        (v.toNat < 64 → x.getLsbD (63 - v.toNat) = true)) ∧
      (∃ v : W64, gives (.ctz c d a) v ∧ v.toNat ≤ 64 ∧ (∀ i, i < v.toNat → x.getLsbD i = false) ∧
        (v.toNat < 64 → x.getLsbD v.toNat = true)) ∧
      gives (.popc c d a) (BitVec.ofNat 64 ((List.range 64).countP (fun i => x.getLsbD i))) ∧
      (∃ v : W64, gives (.rev8 c d a) v ∧ ∀ i j, i < 8 → j < 8 → v.getLsbD (8 * i + j) = x.getLsbD (8 * (7 - i) + j)) ∧
      (∃ v : W64, gives (.brev c d a) v ∧ ∀ i, i < 64 → v.getLsbD i = x.getLsbD (63 - i)) ∧
      gives (.sextb c d a) ((x.truncate 8).signExtend 64) ∧ gives (.sexth c d a) ((x.truncate 16).signExtend 64) ∧
      gives (.sextw c d a) ((x.truncate 32).signExtend 64) ∧ gives (.zextw c d a) (BitVec.ofNat 64 (x.toNat % 2 ^ 32)))

/-- The immediate and shift-by-immediate operations (R84): imm12 is sign-extended.

The upper-immediate operations, and the bit-field operations of R96 with the encodings that it leaves undefined: those take Undefined
Instruction. -/
def Obligations.IntegerImmediateResults : Prop :=
  (∀ (s : State) (c : Nat) (d a : RegNo) (imm : BitVec 12) (sh : BitVec 6) (sw : BitVec 5), s.calm c = true →
      let x := (s.core c).g a.toNat
      let i := imm.toInt
      let xw : W32 := x.truncate 32
      let gives (i : Instr) (v : W64) : Prop := completes0 i s c ((s.core c).setG d.toNat v)
      gives (.addi c d a imm) (BitVec.ofInt 64 (x.toNat + i)) ∧
      gives (.addwi c d a imm) ((BitVec.ofInt 32 (x.toNat + i)).signExtend 64) ∧
      gives (.andi c d a imm) (x &&& BitVec.ofInt 64 i) ∧
      gives (.ori c d a imm) (x ||| BitVec.ofInt 64 i) ∧
      gives (.xori c d a imm) (x ^^^ BitVec.ofInt 64 i) ∧
      gives (.slti c d a imm) (if x.toInt < i then 1 else 0) ∧
      gives (.sltui c d a imm) (if x.toNat < (BitVec.ofInt 64 i).toNat then 1 else 0) ∧
      completes (.muli c d a imm) s c ((s.core c).setG d.toNat (BitVec.ofInt 64 (x.toNat * i))) ∧
      gives (.slli c d a sh) (x <<< sh.toNat) ∧
      gives (.srli c d a sh) (BitVec.ofNat 64 (x.toNat / 2 ^ sh.toNat)) ∧
      gives (.srai c d a sh) (BitVec.ofInt 64 (x.toInt / 2 ^ sh.toNat)) ∧
      gives (.rori c d a sh) ((x >>> sh.toNat) ||| (x <<< ((64 - sh.toNat) % 64))) ∧
      gives (.sllwi c d a sw) ((xw <<< sw.toNat).signExtend 64) ∧
      gives (.srlwi c d a sw) ((xw >>> sw.toNat).signExtend 64) ∧
      gives (.srawi c d a sw) ((xw.sshiftRight sw.toNat).signExtend 64)) ∧
  (∀ (s : State) (c : Nat) (d a : RegNo) (imm : BitVec 21) (pos lenM1 : BitVec 6), s.calm c = true →
      let k := s.core c
      let x := k.g a.toNat
      let old := k.g d.toNat
      let p := pos.toNat
      let len := lenM1.toNat + 1
      let gives (i : Instr) (v : W64) : Prop := completes0 i s c (k.setG d.toNat v)
      gives (.lui c d imm) (BitVec.ofInt 64 (imm.toInt * 2 ^ 12)) ∧
      gives (.auipc c d imm) (k.pc + BitVec.ofInt 64 (imm.toInt * 2 ^ 12)) ∧
      gives (.adr c d imm) (k.pc + BitVec.ofInt 64 (imm.toInt * 2 ^ 2)) ∧
      gives (.luhi c d imm) (BitVec.ofNat 64 (imm.toNat * 2 ^ 43 + old.toNat % 2 ^ 43)) ∧
      (p + len ≤ 64 →
        gives (.extu c d a pos lenM1) (BitVec.ofNat 64 (x.toNat / 2 ^ p % 2 ^ len)) ∧
        gives (.exts c d a pos lenM1) (((BitVec.ofNat len (x.toNat / 2 ^ p)).signExtend 64)) ∧
        gives (.ins c d a pos lenM1)
          (BitVec.ofNat 64 (old.toNat % 2 ^ p + x.toNat % 2 ^ len * 2 ^ p + old.toNat / 2 ^ (p + len) * 2 ^ (p + len)))) ∧
      (64 < p + len → ∀ i ∈ [Instr.extu c d a pos lenM1, .exts c d a pos lenM1, .ins c d a pos lenM1],
        traps i s c { vec := 0x01 }))

/-- CRC32C (R95): the low bytes of rs2, least significant first, are folded into rs1[31:0] bit by bit, reflected, with the polynomial
0x82F63B78, and rd[63:32] is zero. -/
def Obligations.Crc32cFolds : Prop :=
  ∀ (s : State) (c : Nat) (wd : Width) (d a b : RegNo), s.calm c = true →
    let x := (s.core c).g a.toNat
    let y := (s.core c).g b.toNat
    let shift (v : W32) : W32 := if v.getLsbD 0 then (v >>> 1) ^^^ 0x82F63B78 else v >>> 1
    let fold (v : W32) (i : Nat) : W32 := shift (shift (shift (shift (shift (shift (shift (shift (v ^^^ ((y >>> (8 * i)).truncate 8).zeroExtend 32))))))))
    let n := match wd with | .b => 1 | .h => 2 | .w => 4 | .d => 8
    completes (.crc32c c wd d a b) s c ((s.core c).setG d.toNat (((List.range n).foldl fold (x.truncate 32)).zeroExtend 64))

/-- The products and quotients that a unit delivers late (R94, R119): rd is entered as owed by the multiplier-divider with the stated
value. Division by zero gives all bits set and the dividend. -/
def Obligations.LateIntegerResults : Prop :=
  ∀ (s : State) (c : Nat) (d a b : RegNo), s.calm c = true →
    let x := (s.core c).g a.toNat
    let y := (s.core c).g b.toNat
    let xw : W32 := x.truncate 32
    let yw : W32 := y.truncate 32
    let owes (i : Instr) (v : W64) : Prop := completes i s c ((s.core c).oweG 0x25 d.toNat v)
    owes (.mulh c d a b) (BitVec.ofInt 64 (x.toInt * y.toInt / 2 ^ 64)) ∧
    owes (.mulhu c d a b) (BitVec.ofNat 64 (x.toNat * y.toNat / 2 ^ 64)) ∧
    owes (.mulhsu c d a b) (BitVec.ofInt 64 (x.toInt * y.toNat / 2 ^ 64)) ∧
    owes (.div c d a b) (if y = 0 then BitVec.allOnes 64 else BitVec.ofInt 64 (x.toInt.tdiv y.toInt)) ∧
    owes (.divu c d a b) (if y = 0 then BitVec.allOnes 64 else BitVec.ofNat 64 (x.toNat / y.toNat)) ∧
    owes (.rem c d a b) (if y = 0 then x else BitVec.ofInt 64 (x.toInt.tmod y.toInt)) ∧
    owes (.remu c d a b) (if y = 0 then x else BitVec.ofNat 64 (x.toNat % y.toNat)) ∧
    owes (.divw c d a b) (if yw = 0 then BitVec.allOnes 64 else (BitVec.ofInt 32 (xw.toInt.tdiv yw.toInt)).signExtend 64) ∧
    owes (.divuw c d a b) (if yw = 0 then BitVec.allOnes 64 else (BitVec.ofNat 32 (xw.toNat / yw.toNat)).signExtend 64) ∧
    owes (.remw c d a b) ((if yw = 0 then xw else BitVec.ofInt 32 (xw.toInt.tmod yw.toInt)).signExtend 64) ∧
    owes (.remuw c d a b) ((if yw = 0 then xw else BitVec.ofNat 32 (xw.toNat % yw.toNat)).signExtend 64)

/-! ## Floating-point and packed instructions -/

/-- The floating-point operations that a unit delivers late (R97, R119): on a calm core with FPE set and RM not reserved, fd is entered as owed by
the floating-point unit with the operation's result and flags, and the core falls through. FMAC and FMSC read fd as their third operand and round
once; PFADD, PFSUB, PFMUL and PFMAC work on two binary32 lanes. openNV is the flag that IEEE 754-2019 leaves open (log entry 3).

The floating-point operations written with the stream (R97, R98): the result goes to fd or rd, its flags are added to FCSR (R72), and nothing
else changes but the PC. FABS, FNEG and the moves set no flag. The operations that use RM need it not reserved.

An instruction that reads or writes an f register while FPE is 0 takes FP Disabled; one that uses a reserved RM takes Undefined while FPE
is 1, and a lane width that the table does not list is Undefined first (R71, R72, R150). Nothing of the instruction's own effect happens. -/
def Obligations.FloatingPointResults : Prop :=
  (∀ (s : State) (c : Nat) (fmt : Fmt) (d a b : RegNo), s.calm c = true → (s.core c).fpe = true → (s.core c).rm < 5 →
      let k := s.core c
      let x := k.f a.toNat
      let y := k.f b.toNat
      let z := k.f d.toNat
      let owes (i : Instr) (r : FRes) : Prop := completes i s c (k.oweF 0x26 d.toNat r.1 r.2)
      let owesOpen (i : Instr) (r : Bool → FRes) : Prop :=
        ∃ openNV : Bool, exec i s = .next (s.took.setCore c (k.oweF 0x26 d.toNat (r openNV).1 (r openNV).2).fallThrough)
      owes (.fadd c fmt d a b) (fmt.add k.rm k.fz false x y) ∧
      owes (.fsub c fmt d a b) (fmt.add k.rm k.fz true x y) ∧
      owes (.fmul c fmt d a b) (fmt.mul k.rm k.fz x y) ∧
      owes (.fdiv c fmt d a b) (fmt.div k.rm k.fz x y) ∧
      owes (.fsqrt c fmt d a) (fmt.sqrt k.rm k.fz x) ∧
      owesOpen (.fmac c fmt d a b) (fun o => fmt.fma k.rm k.fz false o z x y) ∧
      owesOpen (.fmsc c fmt d a b) (fun o => fmt.fma k.rm k.fz true o z x y) ∧
      owes (.pfadd c d a b) (lanes2 (fun _ u v => Fmt.s.add k.rm k.fz false u v) z x y) ∧
      owes (.pfsub c d a b) (lanes2 (fun _ u v => Fmt.s.add k.rm k.fz true u v) z x y) ∧
      owes (.pfmul c d a b) (lanes2 (fun _ u v => Fmt.s.mul k.rm k.fz u v) z x y) ∧
      owesOpen (.pfmac c d a b) (fun o => lanes2 (fun w u v => Fmt.s.fma k.rm k.fz false o w u v) z x y)) ∧
  (∀ (s : State) (c : Nat) (uns : Bool) (fmt : Fmt) (d a b : RegNo), s.calm c = true → (s.core c).fpe = true →
      let k := s.core c
      let x := k.f a.toNat
      let y := k.f b.toNat
      let toF (i : Instr) (r : FRes) : Prop := completes i s c { k.setF d.toNat r.1 with fcsr := (k.setF d.toNat r.1).fcsr ||| r.2 }
      let toG (i : Instr) (r : FRes) : Prop := completes i s c { k.setG d.toNat r.1 with fcsr := (k.setG d.toNat r.1).fcsr ||| r.2 }
      let sign := fmt.width - 1
      toF (.fmin c fmt d a b) (fmt.minMax k.fz false x y) ∧
      toF (.fmax c fmt d a b) (fmt.minMax k.fz true x y) ∧
      toF (.fabs c fmt d a) (BitVec.ofNat 64 (x.toNat % 2 ^ sign), 0) ∧
      toF (.fneg c fmt d a) (BitVec.ofNat 64 ((x.toNat + 2 ^ sign) % 2 ^ fmt.width), 0) ∧
      toF (.fcvtDS c d a) (Fmt.d.pack 0 k.fz (Fmt.s.operand k.fz x)) ∧
      toG (.feq c fmt d a b) (fmt.compare k.fz 0 x y) ∧
      toG (.flt c fmt d a b) (fmt.compare k.fz 1 x y) ∧
      toG (.fle c fmt d a b) (fmt.compare k.fz 2 x y) ∧
      toG (.fclass c fmt d a) (fmt.classOf x, 0) ∧
      toG (.fmvGF c d a) (x, 0) ∧
      toF (.fmvFG c d a) (k.g a.toNat, 0) ∧
      (k.rm < 5 →
        toF (.fcvtSD c d a) (Fmt.s.pack k.rm k.fz (Fmt.d.operand k.fz x)) ∧
        toG (.fcvtToInteger c uns fmt d a) (fmt.toInteger k.rm k.fz uns x) ∧
        toF (.fcvtFromInteger c uns fmt d a) (fmt.ofInteger k.rm uns (k.g a.toNat)))) ∧
  (∀ (s : State) (c : Nat) (uns : Bool) (fmt : Fmt) (lane : Lane) (d a b : RegNo), s.calm c = true →
      let k := s.core c
      let useRm : List Instr := [.fcvtSD c d a, .fcvtToInteger c uns fmt d a, .fcvtFromInteger c uns fmt d a, .fadd c fmt d a b, .fsub c fmt d a b,
        .fmul c fmt d a b, .fdiv c fmt d a b, .fsqrt c fmt d a, .pfadd c d a b, .pfsub c d a b, .pfmul c d a b]
      let useRmOpen : List Instr := [.fmac c fmt d a b, .fmsc c fmt d a b, .pfmac c d a b]
      let others : List Instr := [.fmin c fmt d a b, .fmax c fmt d a b, .fabs c fmt d a, .fneg c fmt d a, .fcvtDS c d a, .feq c fmt d a b,
        .flt c fmt d a b, .fle c fmt d a b, .fclass c fmt d a, .fmvGF c d a, .fmvFG c d a, .padd c lane d a b, .psub c lane d a b, .pmul c d a b,
        .pmulhs c d a b, .pmin c d a b, .pmax c d a b, .pminu c d a b, .pmaxu c d a b, .pcmpgt c d a b, .pand c d a b, .por c d a b,
        .pxor c d a b, .psad c d a b]
      let halfLanes : List Instr := [.padds c lane d a b, .paddus c lane d a b, .psubs c lane d a b, .psubus c lane d a b, .pcmpeq c lane d a b]
      (k.fpe = false → (∀ i ∈ useRm ++ others, traps i s c { vec := 0x03 }) ∧
        (∀ i ∈ useRmOpen, exec i s = .next ((s.took.raise c { vec := 0x03 }).haltBoundary c)) ∧
        (lane ≠ .w → ∀ i ∈ halfLanes, traps i s c { vec := 0x03 })) ∧
      (k.fpe = true → 5 ≤ k.rm → (∀ i ∈ useRm, traps i s c { vec := 0x01 }) ∧
        (∀ i ∈ useRmOpen, exec i s = .next ((s.took.raise c { vec := 0x01 }).haltBoundary c))) ∧
      (lane = .w → ∀ i ∈ halfLanes, traps i s c { vec := 0x01 }))

/-- Rounding is correct (R97): an exact nonzero value rounded to a format is the number of the format that the rounding mode asks for, NX is
raised exactly when the value changed, and a value that is not exact on a subnormal or smaller result raises UF. -/
def Obligations.RoundingIsCorrect : Prop :=
  ∀ (f : Fmt) (rm m : Nat) (sg : Bool) (e : Int), rm < 5 → 0 < m →
    let q : Rat := (if sg then -1 else 1) * (m : Rat) * (2 : Rat) ^ e
    let r := f.round rm false sg m e
    f.rounds rm q r.1 ∧ (r.2 &&& flagNX = flagNX ↔ f.value r.1 ≠ some q)

/-- Sums, products and quotients of numbers are the exact results rounded (R97): for finite operands that are not flushed, with FZ clear.

What R97 says of NaNs, zeros and conversions: an arithmetic operation with a NaN operand writes the canonical quiet NaN and sets NV exactly for a
signalling one; FMIN and FMAX take the other operand, and order −0 below +0; FEQ sets NV only for a signalling NaN, FLT and FLE for any; a
conversion to an integer writes 0 for a NaN and the nearest bound when out of range, with NV. -/
def Obligations.FloatingPointArithmetic : Prop :=
  (∀ (f : Fmt) (rm : Nat) (a b : W64) (x y : Rat), rm < 5 → f.value a = some x → f.value b = some y →
      (x + y ≠ 0 → f.rounds rm (x + y) (f.add rm false false a b).1) ∧
      (x - y ≠ 0 → f.rounds rm (x - y) (f.add rm false true a b).1) ∧
      (x * y ≠ 0 → f.rounds rm (x * y) (f.mul rm false a b).1) ∧
      (x ≠ 0 → y ≠ 0 → f.rounds rm (x / y) (f.div rm false a b).1) ∧
      (x ≠ 0 → y = 0 → (f.div rm false a b).2 = flagDZ ∧ (f.value (f.div rm false a b).1) = none)) ∧
  (∀ (f : Fmt) (rm : Nat) (fz : Bool) (a b c : W64),
      let isNan (v : W64) : Prop := ∃ sig, f.unpack v = .nan sig
      let isSnan (v : W64) : Prop := f.unpack v = .nan true
      let number (v : W64) : Prop := ¬ isNan v
      (isNan a ∨ isNan b → ∀ r ∈ [f.add rm fz false a b, f.add rm fz true a b, f.mul rm fz a b, f.div rm fz a b],
        r.1 = f.nan ∧ (r.2 = flagNV ↔ isSnan a ∨ isSnan b) ∧ (r.2 = 0 ↔ ¬ (isSnan a ∨ isSnan b))) ∧
      (isNan a → (f.sqrt rm fz a).1 = f.nan ∧ ((f.sqrt rm fz a).2 = flagNV ↔ isSnan a)) ∧
      (isNan a ∨ isNan b ∨ isNan c → (f.fma rm fz false true c a b).1 = f.nan) ∧
      (isNan a → isNan b → ∀ mx, (f.minMax fz mx a b).1 = f.nan) ∧
      (isNan a → number b → f.subnormal (f.unpack b) = false → ∀ mx, (f.minMax fz mx a b).1 = BitVec.ofNat 64 (b.toNat % 2 ^ f.width)) ∧
      (number a → isNan b → f.subnormal (f.unpack a) = false → ∀ mx, (f.minMax fz mx a b).1 = BitVec.ofNat 64 (a.toNat % 2 ^ f.width)) ∧
      ((f.minMax fz false (f.zeroBits true) (f.zeroBits false)).1 = f.zeroBits true ∧
        (f.minMax fz true (f.zeroBits true) (f.zeroBits false)).1 = f.zeroBits false ∧
        (f.minMax fz false (f.zeroBits false) (f.zeroBits true)).1 = f.zeroBits true ∧
        (f.minMax fz true (f.zeroBits false) (f.zeroBits true)).1 = f.zeroBits false) ∧
      (isNan a ∨ isNan b → (f.compare fz 0 a b = (0, if f.unpack a = .nan true ∨ f.unpack b = .nan true then flagNV else 0)) ∧
        f.compare fz 1 a b = (0, flagNV) ∧ f.compare fz 2 a b = (0, flagNV)) ∧
      (isNan a → ∀ uns, f.toInteger rm fz uns a = (0, flagNV)) ∧
      (∀ x, f.value a = some x →
        (2 ^ 63 ≤ x → f.toInteger rm fz false a = (BitVec.ofInt 64 (2 ^ 63 - 1), flagNV)) ∧
        (x ≤ -(2 ^ 63 + 1) → f.toInteger rm fz false a = (BitVec.ofInt 64 (-(2 ^ 63)), flagNV)) ∧
        (2 ^ 64 ≤ x → f.toInteger rm fz true a = (BitVec.allOnes 64, flagNV)) ∧
        (x ≤ -1 → f.toInteger rm fz true a = (0, flagNV))))

/-- FCLASS (R98): on a calm core with FPE set, rd gets the class, the sign and the integral bit of the operand with every other bit zero, whatever
FZ holds, and no flag is set. -/
def Obligations.FclassFields : Prop :=
  ∀ (s : State) (c : Nat) (f : Fmt) (d r : RegNo), s.calm c = true → (s.core c).fpe = true →
    let a := (s.core c).f r.toNat
    let n := a.toNat % 2 ^ f.width
    let frac := n % 2 ^ (f.prec - 1)
    let ex := n / 2 ^ (f.prec - 1) % 2 ^ f.ebits
    let top := 2 ^ f.ebits - 1
    ∃ v : W64, completes (.fclass c f d r) s c ((s.core c).setG d.toNat v) ∧
      (ex = 0 → frac = 0 → fld v 2 0 = 0) ∧ (ex = 0 → frac ≠ 0 → fld v 2 0 = 1) ∧ (0 < ex → ex < top → fld v 2 0 = 2) ∧
      (ex = top → frac = 0 → fld v 2 0 = 3) ∧ (ex = top → 2 ^ (f.prec - 2) ≤ frac → fld v 2 0 = 4) ∧
      (ex = top → 0 < frac → frac < 2 ^ (f.prec - 2) → fld v 2 0 = 5) ∧
      (bit v 3 = true ↔ 2 ^ (f.width - 1) ≤ n) ∧
      (bit v 4 = true ↔ (ex = 0 ∧ frac = 0) ∨ (0 < ex ∧ ∃ x, f.value a = some x ∧ x.den = 1)) ∧
      fld v 63 5 = 0

/-- The packed integer operations (R70, R99): each lane of fd is the operation of the operands' lanes, saturating operations set SAT exactly when a
lane was clamped and no other sets a flag. -/
def Obligations.PackedResults : Prop :=
  ∀ (s : State) (c : Nat) (lane : Lane) (d a b : RegNo), s.calm c = true → (s.core c).fpe = true →
    let k := s.core c
    let x := k.f a.toNat
    let y := k.f b.toNat
    let w := lane.bits
    let writes (i : Instr) (v flags : W64) : Prop := completes i s c { k.setF d.toNat v with fcsr := (k.setF d.toNat v).fcsr ||| flags }
    let perLane (i : Instr) (w : Nat) (f : BitVec w → BitVec w → BitVec w) : Prop :=
      ∃ v, writes i v 0 ∧ ∀ j, j < 64 / w → laneAt w j v = f (laneAt w j x) (laneAt w j y)
    let signed (op : Int → Int → Int) (i : Instr) : Prop :=
      ∃ v flags, writes i v flags ∧ (∀ j, j < 64 / w →
          (laneAt w j v).toInt = max (-(2 ^ (w - 1))) (min (2 ^ (w - 1) - 1) (op (laneAt w j x).toInt (laneAt w j y).toInt))) ∧
        (flags = flagSAT ∨ flags = 0) ∧
        (flags = flagSAT ↔ ∃ j, j < 64 / w ∧ (laneAt w j v).toInt ≠ op (laneAt w j x).toInt (laneAt w j y).toInt)
    let unsigned (op : Int → Int → Int) (i : Instr) : Prop :=
      ∃ v flags, writes i v flags ∧ (∀ j, j < 64 / w →
          ((laneAt w j v).toNat : Int) = max 0 (min (2 ^ w - 1) (op (laneAt w j x).toNat (laneAt w j y).toNat))) ∧
        (flags = flagSAT ∨ flags = 0) ∧
        (flags = flagSAT ↔ ∃ j, j < 64 / w ∧ ((laneAt w j v).toNat : Int) ≠ op (laneAt w j x).toNat (laneAt w j y).toNat)
    perLane (.padd c lane d a b) w (fun u v => u + v) ∧
    perLane (.psub c lane d a b) w (fun u v => u - v) ∧
    (lane ≠ .w → signed (· + ·) (.padds c lane d a b) ∧ unsigned (· + ·) (.paddus c lane d a b) ∧
      signed (· - ·) (.psubs c lane d a b) ∧ unsigned (· - ·) (.psubus c lane d a b) ∧
      perLane (.pcmpeq c lane d a b) w (fun u v => if u = v then BitVec.allOnes w else 0)) ∧
    perLane (.pmul c d a b) 16 (fun u v => u * v) ∧
    perLane (.pmulhs c d a b) 16 (fun u v => BitVec.ofInt 16 (u.toInt * v.toInt / 2 ^ 16)) ∧
    perLane (.pmin c d a b) 16 (fun u v => BitVec.ofInt 16 (min u.toInt v.toInt)) ∧
    perLane (.pmax c d a b) 16 (fun u v => BitVec.ofInt 16 (max u.toInt v.toInt)) ∧
    perLane (.pminu c d a b) 8 (fun u v => BitVec.ofNat 8 (min u.toNat v.toNat)) ∧
    perLane (.pmaxu c d a b) 8 (fun u v => BitVec.ofNat 8 (max u.toNat v.toNat)) ∧
    perLane (.pcmpgt c d a b) 16 (fun u v => if v.toInt < u.toInt then 0xFFFF else 0) ∧
    writes (.pand c d a b) (x &&& y) 0 ∧ writes (.por c d a b) (x ||| y) 0 ∧ writes (.pxor c d a b) (x ^^^ y) 0 ∧
    writes (.psad c d a b) (BitVec.ofNat 64 (((List.range 8).map (fun j =>
      ((laneAt 8 j x).toNat - (laneAt 8 j y).toNat) + ((laneAt 8 j y).toNat - (laneAt 8 j x).toNat))).sum)) 0

/-! ## Branches, calls and loops -/

/-- The compare-and-branch instructions: a condition that holds takes the target PC + sext(off16) × 4, and leaves LCNT even at LEND (R74); one that
does not falls through under R73. Only the PC, the loop registers and the predictor change.

The hardware loop (R73, R74), as an instruction that falls through sees it: it acts only at LEND, goes back to LBEG while LCNT is above 1, and
falls out when LCNT is 1. -/
def Obligations.BranchesAndHardwareLoop : Prop :=
  (∀ (s : State) (c : Nat) (a b : RegNo) (off : BitVec 16), s.calm c = true →
      let k := s.core c
      let x := k.g a.toNat
      let y := k.g b.toNat
      let target := k.pc + BitVec.ofInt 64 (off.toInt * 4)
      let decides (i : Instr) (cond : Prop) : Prop :=
        (cond → ∃ p, exec i s = .next (s.setCore c { k.holdAfter .next with pc := target, pred := p, retries := 0 })) ∧
        (¬ cond → ∃ p, completes i s c { k with pred := p })
      decides (.beq c a b off) (x = y) ∧ decides (.bne c a b off) (x ≠ y) ∧
      decides (.blt c a b off) (x.toInt < y.toInt) ∧ decides (.bge c a b off) (y.toInt ≤ x.toInt) ∧
      decides (.bltu c a b off) (x.toNat < y.toNat) ∧ decides (.bgeu c a b off) (y.toNat ≤ x.toNat)) ∧
  (∀ (s : State) (c : Nat) (d a b : RegNo), s.calm c = true →
      let k := s.core c
      ∃ t, exec (.add c d a b) s = .next t ∧
        (k.pc = k.lend → 1 < k.lcnt → (t.core c).pc = k.lbeg ∧ (t.core c).lcnt = k.lcnt - 1) ∧
        (k.pc = k.lend → k.lcnt = 1 → (t.core c).pc = k.pc + 4 ∧ (t.core c).lcnt = 0) ∧
        (k.pc ≠ k.lend ∨ k.lcnt = 0 → (t.core c).pc = k.pc + 4 ∧ (t.core c).lcnt = k.lcnt) ∧
        (t.core c).lbeg = k.lbeg ∧ (t.core c).lend = k.lend)

/-- LOOP (R101): undefined when off16 is zero or negative; otherwise LBEG, LEND and LCNT are replaced, and a count of zero skips the body. -/
def Obligations.LoopInstruction : Prop :=
  ∀ (s : State) (c : Nat) (a : RegNo) (off : BitVec 16), s.calm c = true →
    let k := s.core c
    let count := k.g a.toNat
    let last := k.pc + BitVec.ofInt 64 (off.toInt * 4)
    (off.toInt ≤ 0 → traps (.loop c a off) s c { vec := 0x01 }) ∧
    (0 < off.toInt → count = 0 → exec (.loop c a off) s =
      .next (s.setCore c { k.holdAfter .next with lbeg := k.pc + 4, lend := last, lcnt := 0, pc := last + 4, retries := 0 })) ∧
    (0 < off.toInt → count ≠ 0 → exec (.loop c a off) s =
      .next (s.setCore c { k.holdAfter .next with lbeg := k.pc + 4, lend := last, lcnt := count, pc := k.pc + 4, retries := 0 }))

/-- Jumps and calls: JMP and BL go to PC + sext(off26) × 4, JR and JLR to rs1; BL and JLR write the address of the next instruction to lk (R67), JLR
after it has read rs1 (R100). A target whose bits [1:0] are not zero takes Alignment with lk unchanged (R89). -/
def Obligations.JumpsAndCalls : Prop :=
  ∀ (s : State) (c : Nat) (a : RegNo) (off : BitVec 26), s.calm c = true →
    let k := s.core c
    let near := k.pc + BitVec.ofInt 64 (off.toInt * 4)
    let far := k.g a.toNat
    let goes (i : Instr) (k' : Core) (t : W64) : Prop := ∃ p, exec i s = .next (s.setCore c { k'.holdAfter .next with pc := t, pred := p, retries := 0 })
    goes (.jmp c off) k near ∧
    goes (.bl c off) (k.setG 30 (k.pc + 4)) near ∧
    (fld far 1 0 = 0 → goes (.jr c a) k far ∧ goes (.jlr c a) (k.setG 30 (k.pc + 4)) far) ∧
    (fld far 1 0 ≠ 0 → traps (.jr c a) s c { vec := 0x04, far := some far } ∧ traps (.jlr c a) s c { vec := 0x04, far := some far })

/-- The register file as instructions see it: g0 reads zero and discards writes (R66), g31 is the stack pointer of the current level (R68), a write
is read back and leaves every other register, and late results are read at once (R119). The flags that a late result owes FCSR are never lost (R72,
R120).

LATE_WRITEBACK (R119, R120): the oldest owed result leaves the list, and the register that it names, like every other, reads as before;
its flags are then in FCSR. With nothing owed nothing happens; a failed residue check writes a Corrected record and the result stays owed. Where the manual is silent its clauses state the model's choices of log entries 7. -/
def Obligations.RegisterFileAndLateResults : Prop :=
  (∀ (k : Core) (r q : Nat) (v : W64) (u : Nat), r < 32 → q < 32 → k.lvl < 4 →
      k.g 0 = 0 ∧ k.setG 0 v = k ∧ (k.oweG u 0 v).g 0 = 0 ∧
      k.g 31 = k.spOf k.lvl ∧ (k.setG 31 v).spOf k.lvl = v ∧
      (r ≠ 0 → (k.setG r v).g r = v ∧ (k.oweG u r v).g r = v) ∧ (k.setG r v).fcsrNow = k.fcsrNow ∧ (k.setF r v).fcsrNow = k.fcsrNow ∧
      (q ≠ r → (k.setG r v).g q = k.g q ∧ (k.oweG u r v).g q = k.g q) ∧
      (k.setF r v).f r = v ∧ (q ≠ r → (k.setF r v).f q = k.f q) ∧
      (∀ flags, (k.oweF u r v flags).f r = v ∧ (q ≠ r → (k.oweF u r v flags).f q = k.f q) ∧
        (k.oweF u r v flags).fcsrNow = k.fcsrNow ||| flags) ∧
      (∀ l, l < 4 → l ≠ k.lvl → (k.setG r v).spOf l = k.spOf l)) ∧
  (∀ (s : State) (c : Nat) (x : LateWb) (rest : List LateWb), (s.core c).late = x :: rest → x ∉ rest → 
      let k := s.core c
      (∀ y ∈ rest, y.fp = x.fp → y.rd ≠ x.rd) →
      (∃ k' : Core, exec (.lateWriteback c true) s = .next (s.setCore c k') ∧ k'.late = rest ∧ k'.fcsr = k.fcsr ||| x.flags ∧
        (∀ r, k'.g r = k.g r) ∧ (∀ r, k'.f r = k.f r) ∧ k'.fcsrNow = k.fcsrNow ∧ k'.pc = k.pc ∧ k'.stat = k.stat ∧ k'.sr = k.sr) ∧
      exec (.lateWriteback c false) s = .next (s.record { bank := 1 + clusterOf c, unit := x.unit, code := 0x04, sev := .corrected, tag := some (k.tag c) }))

/-! ## Loads and stores -/

/-- Loads from ordinary memory (R86): the effective address of each mode, the bytes there least significant first, zero- or sign-extended, in a g or
an f register, and the base update of the post-increment and pre-decrement modes before the loaded register. The tag of the access stands as the last
committed one (R171).

A store is seen by the next load of the same bytes (R183), forwarded from the buffer. -/
def Obligations.LoadsFromMemoryAndBuffer : Prop :=
  (∀ (s : State) (c : Nat) (sz : MemSize) (t b x : RegNo) (imm : BitVec 12) (sc : BitVec 2), s.calm c = true →
      let k := s.core c
      let n := sz.bytes
      let base := k.g b.toNat
      let up := base + BitVec.ofNat 64 imm.toNat
      let down := base - BitVec.ofNat 64 imm.toNat
      let value (va : W64) : W64 :=
        if sz.isSigned then (BitVec.ofNat (8 * n) (s.number va.toNat n)).signExtend 64 else BitVec.ofNat 64 (s.number va.toNat n)
      let put (k' : Core) (va : W64) : Core :=
        { (if sz.isF then k'.setF t.toNat (value va) else k'.setG t.toNat (value va)) with lastTag := some (k.tag c) }
      let loads (i : Instr) (va : W64) (k' : Core) : Prop := s.plain c false va n = true → completes i s c (put k' va)
      ((sz.isF = true → k.fpe = true) →
        loads (.ld c sz t b imm) (base + BitVec.ofInt 64 imm.toInt) k ∧
        loads (.ldx c sz t b x sc) (base + BitVec.ofNat 64 ((k.g x.toNat).toNat * 2 ^ sc.toNat)) k ∧
        (sz.isF = true ∨ t ≠ b → loads (.ldi c sz t b imm) base (k.setG b.toNat up) ∧ loads (.ldd c sz t b imm) down (k.setG b.toNat down))) ∧
      (sz.isF = false → t = b → traps (.ldi c sz t b imm) s c { vec := 0x01 } ∧ traps (.ldd c sz t b imm) s c { vec := 0x01 }) ∧
      (sz.isF = true → k.fpe = false → ∀ i ∈ [Instr.ld c sz t b imm, .ldx c sz t b x sc, .ldi c sz t b imm, .ldd c sz t b imm],
        traps i s c { vec := 0x03 })) ∧
  (∀ (s : State) (c : Nat) (sz : MemSize) (t u b : RegNo) (imm : BitVec 12), s.calm c = true → (s.core c).sbuf = [] →
      sz.isF = false → sz.isSigned = false → u ≠ 0 →
      let k := s.core c
      let va := k.g b.toNat + BitVec.ofInt 64 imm.toInt
      s.plain c true va sz.bytes = true → va.toNat % 16 + sz.bytes ≤ 16 → 
      ∃ s1 s2, exec (.st c sz t b imm) s = .next s1 ∧ exec (.ld c sz u b imm) s1 = .next s2 ∧
        (s2.core c).g u.toNat = BitVec.ofNat 64 ((k.g t.toNat).toNat % 2 ^ (8 * sz.bytes)) ∧ s2.mem = s.mem)

/-- Stores to ordinary memory (R86, R87, R181): with an empty store buffer and all bytes in one 16-byte block, the low bytes of the register as it was
before the base update enter the buffer as one entry; the core's own reservation on the granule goes (R103), with the hold of its line. A signed size is undefined.

STORE_BUFFER_DRAIN (R182) of an entry for ordinary memory: the oldest entry leaves the buffer, its bytes are what memory reads at their addresses
(the last written where one address is listed twice), and every other byte of memory reads as before, whichever lines make way in the caches. Where the manual is silent its clauses state the model's choices of log entries 18. -/
def Obligations.StoresReachMemory : Prop :=
  (∀ (s : State) (c : Nat) (sz : MemSize) (t b x : RegNo) (imm : BitVec 12) (sc : BitVec 2), s.calm c = true → (s.core c).sbuf = [] →
      let k := s.core c
      let n := sz.bytes
      let base := k.g b.toNat
      let up := base + BitVec.ofNat 64 imm.toNat
      let down := base - BitVec.ofNat 64 imm.toNat
      let v := if sz.isF then k.f t.toNat else k.g t.toNat
      let entry (va : W64) : SbEntry :=
        { pa := va.toNat, bytes := (List.range n).map (fun i => (va.toNat + i, BitVec.ofNat 8 (v.toNat / 256 ^ i))),
          rtype := if inCask va.toNat then .uncached else .cached, va := va, lvl := k.lvl, tag := k.tag c, sent := false }
      let own (k' : Core) (va : W64) : Core := if k.resv = some (va.toNat / 128) then { k' with resv := none, hold := none, overlaid := [] } else k'
      let stores (i : Instr) (va : W64) (k' : Core) : Prop :=
        s.plain c true va n = true → va.toNat % 16 + n ≤ 16 →
          completes i s c { own k' va with sbuf := [entry va], lastTag := some (k.tag c) }
      ((sz.isF = true → k.fpe = true) → sz.isSigned = false →
        stores (.st c sz t b imm) (base + BitVec.ofInt 64 imm.toInt) k ∧
        stores (.stx c sz t b x sc) (base + BitVec.ofNat 64 ((k.g x.toNat).toNat * 2 ^ sc.toNat)) k ∧
        stores (.sti c sz t b imm) base (k.setG b.toNat up) ∧
        stores (.std c sz t b imm) down (k.setG b.toNat down)) ∧
      (sz.isSigned = true → ∀ i ∈ [Instr.st c sz t b imm, .stx c sz t b x sc, .sti c sz t b imm, .std c sz t b imm], traps i s c { vec := 0x01 }) ∧
      (sz.isF = true → k.fpe = false → ∀ i ∈ [Instr.st c sz t b imm, .stx c sz t b x sc, .sti c sz t b imm, .std c sz t b imm],
        traps i s c { vec := 0x03 })) ∧
  (∀ (s : State) (c : Nat) (e : SbEntry) (rest : List SbEntry) (resp : Resp),
      c < numCores → s.online c = true → s.canonical = true → (s.core c).sbuf = e :: rest →
      (∀ x ∈ e.bytes, x.1 / 16 = e.pa / 16) → 0x40000 ≤ e.pa →
      e.rtype = .cached ∨ e.rtype = .uncached → inWindow e.pa = false →
      s.memc.marks = [] → (∀ i, i < 4 → s.rb (Reg.DEBUG_BINJ_CTL.at i) 31 = false) →
      s.admits e.tag true e.pa = (s, none) → s.mem.firstCopy (e.pa / 64) (dataPlaces c) = none →
      ∃ t, exec (.storeBufferDrain c .ok resp) s = .next t ∧ (t.core c).sbuf = rest ∧
        (∀ a, t.byte a = match (e.bytes.reverse.find? (fun x => x.1 == a)) with | some x => x.2 | none => s.byte a) ∧
        t.regs = s.regs ∧ (∀ d, d ≠ c → (t.core d).gs = (s.core d).gs ∧ (t.core d).pc = (s.core d).pc))

/-! ## Reservations and block operations -/

/-- LDRES and CLRRES (R103, R104): a naturally aligned load from Normal-cached memory sets the reservation to its 128-byte granule and zero-extends;
the hold of its line begins for 8 instructions of class I0 (R105). B and H forms are undefined, a misaligned address takes Alignment, an address in Cask (Normal-uncached) takes Access Type; CLRRES ends the reservation.

STCND (R103, R104): it succeeds exactly when the reservation names its granule; success stores rs2 and writes 0 to rd, failure stores nothing
and writes 1; the reservation ends either way. Bytes that another requester has written during the hold of R105 come after the store. -/
def Obligations.Reservations : Prop :=
  (∀ (s : State) (c : Nat) (wd : Width) (d a : RegNo), s.calm c = true →
      let k := s.core c
      let va := k.g a.toNat
      let n := wd.bytes
      (wd = .b ∨ wd = .h → traps (.ldres c wd d a) s c { vec := 0x01 }) ∧
      (wd = .w ∨ wd = .d → s.plain c false va n = true →
        (va.toNat % n ≠ 0 → traps (.ldres c wd d a) s c { vec := 0x04, far := some va }) ∧
        (va.toNat % n = 0 → inCask va.toNat = true → traps (.ldres c wd d a) s c { vec := 0x0F, far := some va }) ∧
        (va.toNat % n = 0 → inCask va.toNat = false →
          completes0 (.ldres c wd d a) s c
            { k.endHold.setG d.toNat (BitVec.ofNat 64 (s.number va.toNat n)) with
              resv := some (va.toNat / 128), hold := some 9, overlaid := [], lastTag := some (k.tag c) })) ∧
      completes (.clrres c) s c { k with resv := none, hold := none, overlaid := [] }) ∧
  (∀ (s : State) (c : Nat) (wd : Width) (d a b : RegNo), s.calm c = true → (s.core c).sbuf = [] →
      let k := s.core c
      let va := k.g a.toNat
      let v := k.g b.toNat
      let n := wd.bytes
      let cells := ((List.range n).map (fun i => (va.toNat + i, BitVec.ofNat 8 (v.toNat / 256 ^ i)))).filter (fun x => !k.overlaid.contains x.1)
      (wd = .b ∨ wd = .h → traps (.stcnd c wd d a b) s c { vec := 0x01 }) ∧
      (wd = .w ∨ wd = .d → s.plain c true va n = true →
        (va.toNat % n ≠ 0 → traps (.stcnd c wd d a b) s c { vec := 0x04, far := some va }) ∧
        (va.toNat % n = 0 → inCask va.toNat = true → traps (.stcnd c wd d a b) s c { vec := 0x0F, far := some va, wnr := true }) ∧
        (va.toNat % n = 0 → inCask va.toNat = false →
          (k.resv ≠ some (va.toNat / 128) → completes (.stcnd c wd d a b) s c { k.setG d.toNat 1 with resv := none, hold := none, overlaid := [] }) ∧
          (k.resv = some (va.toNat / 128) → completes (.stcnd c wd d a b) s c
            { k.setG d.toNat 0 with
              resv := none,
              hold := none,
              overlaid := [],
              lastTag := some (k.tag c),
              sbuf := if cells = [] then [] else [{ pa := (cells.headD (0, 0)).1, bytes := cells, rtype := .cached, va := va, lvl := k.lvl, tag := k.tag c, sent := false }] }))))

/-- BLKMOV and BLKSET (R106): the undefined encodings, a count of zero, and one chunk that lies in one 16-byte block of Normal-cached memory; rd, the
source register of BLKMOV and rs2 hold the progress. -/
def Obligations.BlockOperations : Prop :=
  ∀ (s : State) (c : Nat) (d a b : RegNo) (chunks : Nat), s.calm c = true →
    let k := s.core c
    let dst := k.g d.toNat
    let src := k.g a.toNat
    let count := k.g b.toNat
    let n := count.toNat
    let entry (bytes : Nat → Byte) : SbEntry :=
      { pa := dst.toNat, bytes := (List.range n).map (fun i => (dst.toNat + i, bytes i)), rtype := .cached, va := dst, lvl := k.lvl, tag := k.tag c, sent := false }
    let own (k' : Core) : Core := if k.resv = some (dst.toNat / 128) then { k' with resv := none, hold := none, overlaid := [] } else k'
    (d = 0 ∨ b = 0 ∨ d = a ∨ d = b ∨ a = b → traps (.blkmov c d a b chunks) s c { vec := 0x01 } ∧ traps (.blkset c d a b chunks) s c { vec := 0x01 }) ∧
    (d ≠ 0 → b ≠ 0 → d ≠ a → d ≠ b → a ≠ b →
      (count = 0 → completes (.blkmov c d a b chunks) s c k ∧ completes (.blkset c d a b chunks) s c k) ∧
      (count ≠ 0 → chunks ≠ 0 → dst.toNat % 16 + n ≤ 16 → k.sbuf = [] → inCask dst.toNat = false → s.plain c true dst n = true →
        completes (.blkset c d a b chunks) s c
          { own ((k.setG d.toNat (dst + count)).setG b.toNat 0) with sbuf := [entry (fun _ => src.truncate 8)], lastTag := some (k.tag c) } ∧
        (a ≠ 0 → inCask src.toNat = false → s.plain c false src n = true → (src.toNat + n ≤ dst.toNat ∨ dst.toNat ≤ src.toNat) →
          completes (.blkmov c d a b chunks) s c
            { own (((k.setG a.toNat (src + count)).setG d.toNat (dst + count)).setG b.toNat 0) with
              sbuf := [entry (fun i => s.byte (src.toNat + i))], lastTag := some (k.tag c) })))

/-! ## System registers -/

/-- The checks of MFS and MTS (R82): a register of a higher level takes Privileged, an unassigned number Undefined, FCSR while FPE is 0 FP Disabled
(R71), and DBGDTR is Undefined but for a halted core's transferred instruction (R449).

What MFS reads: rd gets the register's value and nothing else changes but the PC.

What MTS writes: the writable bits of the register, as its table gives them, and nothing else of the core but the PC; memory, the registers of the
blocks and the other cores are unchanged. After those that refetch (R123) the predictor's context is the present one's (R132). STAT keeps LVL and WORLD, caps MLV (R144), and ends an emergency of its level when it clears FH (R153); PART
refuses PID 63. Where the manual is silent its clauses state the model's choices of log entries 19. -/
def Obligations.SystemRegisters : Prop :=
  (∀ (s : State) (c : Nat) (r : RegNo) (num : BitVec 12), s.calm c = true →
      let k := s.core c
      let n := num.toNat
      let both (e : Exc) : Prop := traps (.mfs c r num) s c e ∧ traps (.mts c r num) s c e
      (n = 0x240 → both { vec := 0x01 }) ∧
      (n ≠ 0x240 → k.lvl < n / 1024 → both { vec := 0x02 }) ∧
      (n ≠ 0x240 → n / 1024 ≤ k.lvl → srAssigned n = false → both { vec := 0x01 }) ∧
      (n = 0 → k.fpe = false → both { vec := 0x03 })) ∧
  (∀ (s : State) (c : Nat) (d : RegNo), s.calm c = true →
      let k := s.core c
      let reads (num : BitVec 12) (v : W64) : Prop := num.toNat / 1024 ≤ k.lvl → completes (.mfs c d num) s c (k.setG d.toNat v)
      (k.fpe = true → completes (.mfs c d 0x000) s c (k.settle.setG d.toNat k.fcsrNow)) ∧
      reads 0x001 k.lbeg ∧ reads 0x002 k.lend ∧ reads 0x003 k.lcnt ∧
      reads 0x008 (BitVec.ofNat 64 (c % 6 * 2 ^ 12 + c / 6 * 2 ^ 8 + c)) ∧
      reads 0x400 k.stat ∧ reads 0x401 k.spU ∧ reads 0x800 k.spK ∧ reads 0xC00 k.spH ∧ reads 0x1C0 s.clk.etc ∧ reads 0x681 0 ∧ reads 0xA80 0 ∧
      reads 0x940 (if k.lvl = 3 then k.srd 0x940 else k.srd 0x940 &&& 7) ∧ reads 0x680 (s.icur c k.lvl) ∧
      reads 0x040 0x11123111113 ∧ reads 0x041 0x10C102F2C30 ∧ reads 0x042 0x111401F ∧ reads 0x043 0x440160830 ∧
      reads 0x044 0 ∧ reads 0x045 0 ∧ reads 0x046 0 ∧ reads 0x047 0 ∧
      (∀ num ∈ ([0x004, 0x402, 0x480, 0x880, 0xC80, 0x481, 0x881, 0xC81, 0x482, 0x882, 0xC82, 0x483, 0x883, 0xC83, 0x484, 0x884, 0xC84, 0x485, 0x885,
          0xC85, 0x886, 0x887, 0x888, 0xC88, 0x4C0, 0x4C1, 0x4C2, 0x8C0, 0xCC0, 0x8C1, 0x500, 0x540, 0x600, 0x601, 0x1C1, 0x200, 0x801, 0x100, 0x101,
          0x102, 0x900, 0x901, 0x980, 0x5C0, 0x5C1, 0xA40, 0xA41, 0xA42, 0xA43, 0xA44, 0xA45, 0xA46] : List (BitVec 12)), reads num (k.srd num.toNat))) ∧
  (∀ (s : State) (c : Nat) (r : RegNo), s.calm c = true →
      let k := s.core c
      let v := k.g r.toNat
      let high (n : Nat) : W64 := BitVec.ofNat 64 (2 ^ 64 - 2 ^ n)
      let low (n : Nat) : W64 := BitVec.ofNat 64 (2 ^ n - 1)
      let cap := if k.lvl ≤ 1 then fld (k.srd 0x888) 3 0 else if k.lvl = 2 then fld (k.srd 0xC88) 3 0 else 15
      let newStat := BitVec.ofNat 64
        (k.lvl + (if k.lvl = 3 then 4 else 0) + min (fld v 7 4) cap * 16 + fld v 8 8 * 256 + fld v 9 9 * 512)
      let writes (num : BitVec 12) (k' : Core) : Prop :=
        num.toNat / 1024 ≤ k.lvl → ∃ t, exec (.mts c r num) s = .next t ∧
          t.core c = (if srRefetches num.toNat then { k' with pred := k'.pred.touch k'.predCtx } else k').fallThrough ∧ t.regs = s.regs ∧
          (∀ a, t.byte a = s.byte a) ∧ (∀ d, d ≠ c → t.core d = s.core d)
      (∀ e ∈ ([(0x004, low 64), (0x402, low 64), (0x480, high 9), (0x880, high 9), (0xC80, high 9), (0x481, high 15), (0x881, high 15),
          (0xC81, high 15), (0x482, high 4), (0x882, high 4), (0xC82, high 4), (0x483, low 64), (0x883, low 64), (0xC83, low 64),
          (0x484, high 2), (0x884, high 2), (0xC84, high 2), (0x485, high 4), (0x885, high 4), (0xC85, high 4), (0x886, low 48), (0x887, low 32),
          (0x888, low 4), (0xC88, low 4), (0x4C0, low 16), (0x4C1, low 44 &&& high 12 ||| 1), (0x4C2, low 44 &&& high 12 ||| 1),
          (0x8C0, low 44 &&& high 12 ||| 1), (0xCC0, low 44 &&& high 12 ||| 1), (0x500, low 3), (0x540, low 16), (0x600, low 64),
          (0x8C1, 0x0FFF0FFFFFFFF001), (0x601, low 2), (0x1C1, low 1), (0xA41, low 64 - 2), (0xA42, low 64 - 2), (0xA43, low 64 - 2), (0xA44, low 64 - 2),
          (0xA45, low 64), (0xA46, low 64), (0xA40, low 4)] : List (BitVec 12 × W64)),
        writes e.1 (k.swr e.1.toNat (v &&& e.2))) ∧
      writes 0x001 { k with lbeg := v &&& high 2 } ∧ writes 0x002 { k with lend := v &&& high 2 } ∧ writes 0x003 { k with lcnt := v } ∧
      writes 0x401 { k with spU := v } ∧ writes 0x800 { k with spK := v } ∧ writes 0xC00 { k with spH := v } ∧
      (k.fpe = true → writes 0x000 { k.settle with fcsr := v &&& 0x5FF }) ∧
      writes 0x801 (if fld v 5 0 = 63 then k else k.swr 0x801 (v &&& 63)) ∧
      writes 0x100 (if k.rangeBusy then k else k.swr 0x100 (v &&& high 6)) ∧ writes 0x101 (if k.rangeBusy then k else k.swr 0x101 v) ∧
      (let k' := k.swr 0x940 (if k.lvl = 3 then v &&& 0xF else (v &&& 7) ||| (k.srd 0x940 &&& 8))
       writes 0x940 (if bit v 8 then { k' with pred := Predictor.empty } else k')) ∧
      writes 0x008 k ∧ writes 0x200 k ∧ writes 0x1C0 k ∧ writes 0x680 k ∧ writes 0x682 k ∧
      writes 0x400 { (if bit v 8 then k else k.setEmg k.lvl false) with stat := newStat })

/-- STATIC and INVALL (R134), the way locks (R225) and the L1 enables (R215) that MTS or their own rows write: at most two ways of each L1 are
locked, an enable needs its cache initialised, and INVALL empties the predictor, but for the slot that the context then takes.

Cache maintenance by address (R221): on ordinary memory CLEAN and CLINV leave what every byte reads as, CLINV, INV and IC.INV leave no copy in the
places they name, DC.ZERO makes a line of Normal-cached memory read as zero with its poison mark gone, and takes Access Type elsewhere (R187); DC.INV
needs level K (R82).

Range operations (R222): the MTS that starts one records it at the level of the instruction with the range unchanged; each line that the engine
does in ordinary memory advances the base by 64 and takes at most 64 from the size, and BUSY ends with the last. Where the manual is silent its clauses state the model's choices of log entries 8, 18, 36. -/
def Obligations.CacheMaintenance : Prop :=
  (∀ (s : State) (c : Nat), s.calm c = true → 2 ≤ (s.core c).lvl → (s.core c).sbuf = [] →
      let k := s.core c
      (∃ t, exec (.invall c) s = .next t ∧ (t.core c).pred = { Predictor.empty with slots := [(0, k.predCtx)] } ∧ (t.core c).gs = k.gs ∧ (t.core c).stat = k.stat) ∧
      (∀ ien den, ∃ t, exec (.cacheEnable c ien den) s = .next t ∧
        bit ((t.core c).srd 0x900) 0 = (ien && bit (k.srd 0x900) 8) ∧ bit ((t.core c).srd 0x900) 1 = (den && bit (k.srd 0x900) 9)) ∧
      (∃ t, exec (.dclean c) s = .next t ∧ (∀ a, t.byte a = s.byte a) ∧ (t.core c).gs = k.gs) ∧
      (∃ t, exec (.dclinv c) s = .next t ∧ (∀ a, t.byte a = s.byte a) ∧ (∀ n, t.mem.copyAt n (.l1d c) = none)) ∧
      (∃ t, exec (.dinv c) s = .next t ∧ (∀ n, t.mem.copyAt n (.l1d c) = none) ∧ bit ((t.core c).srd 0x900) 9 = true) ∧
      (∃ t, exec (.iinv c) s = .next t ∧ (∀ a, t.byte a = s.byte a) ∧ (∀ n, t.mem.copyAt n (.l1i c) = none ∧ t.mem.copyAt n (.lineBuf c) = none) ∧
        bit ((t.core c).srd 0x900) 8 = true)) ∧
  (∀ (s : State) (c : Nat) (r : RegNo), s.calm c = true → (s.core c).sbuf = [] → s.canonical = true →
      let k := s.core c
      let va := k.g r.toNat
      let line := va.toNat / 64
      s.plain c true va 1 = true → s.plain c false va 1 = true →
      (∃ t, exec (.dcClean c r) s = .next t ∧ t.core c = k.fallThrough ∧ (∀ a, t.byte a = s.byte a) ∧ (t.mem.line line).isDirty = false ∧
        (t.mem.line line).copies = (s.mem.line line).copies) ∧
      (∃ t, exec (.dcClinv c r) s = .next t ∧ t.core c = k.fallThrough ∧ (∀ a, t.byte a = s.byte a) ∧ (t.mem.line line).dirty = none ∧
        ∀ x ∈ (t.mem.line line).copies, x.reserved = true) ∧
      (1 ≤ k.lvl → ∃ t, exec (.dcInv c r) s = .next t ∧ t.core c = k.fallThrough ∧ (∀ a, a / 64 ≠ line → t.byte a = s.byte a) ∧
        (t.mem.line line).dirty = none ∧ ∀ x ∈ (t.mem.line line).copies, x.reserved = true) ∧
      (k.lvl = 0 → traps (.dcInv c r) s c { vec := 0x02 }) ∧
      (∃ t, exec (.icInv c r) s = .next t ∧ t.core c = k.fallThrough ∧ (∀ a, t.byte a = s.byte a) ∧
        ∀ d, t.mem.copyAt line (.l1i d) = none ∧ t.mem.copyAt line (.lineBuf d) = none) ∧
      (inCask va.toNat = true → traps (.dcZero c r) s c { vec := 0x0F, far := some va, wnr := true }) ∧
      (inCask va.toNat = false → s.plain c true (va &&& BitVec.ofNat 64 (2 ^ 64 - 64)) 64 = true → ∃ t, exec (.dcZero c r) s = .next t ∧
        (t.core c).pc = k.fallThrough.pc ∧ (t.core c).gs = k.gs ∧
        (∀ a, 0x40000 ≤ a → t.byte a = if a / 64 = line then 0 else s.byte a) ∧ t.mem.poisonAt va.toNat = false)) ∧
  (∀ (s : State) (c : Nat), s.calm c = true →
      let k := s.core c
      let starts (i : Instr) (op : Nat) : Prop :=
        k.rangeBusy = false → k.srd 0x101 ≠ 0 → ∃ t, exec i s = .next t ∧ (t.core c).rangeBusy = true ∧ fld ((t.core c).srd 0x102) 1 0 = op ∧
          (t.core c).cmrLvl = k.lvl ∧ (t.core c).srd 0x100 = k.srd 0x100 ∧ (t.core c).srd 0x101 = k.srd 0x101
      starts (.rangeClean c) 0 ∧ starts (.rangeClinv c) 1 ∧ starts (.rangeInv c) 2 ∧ starts (.rangeIinv c) 3 ∧
      (k.rangeBusy = true → k.sbuf = [] → s.plainAt c k.cmrLvl false (k.srd 0x100) 1 = true → ∃ t, exec (.rangeOperationLine c) s = .next t ∧
        (t.core c).srd 0x100 = k.srd 0x100 + 64 ∧ ((t.core c).srd 0x101).toNat = (k.srd 0x101).toNat - 64 ∧
        ((t.core c).rangeBusy = true ↔ 64 < (k.srd 0x101).toNat)))

/-! ## Cache maintenance and translation -/

/-- Translation invalidation (R210): which entries of the TLBs and of the walk cache each TLBI removes, on every core, and the levels they need (R82). An entry that is not named
stays, and the cores are otherwise unchanged. -/
def Obligations.TranslationInvalidation : Prop :=
  ∀ (s : State) (c : Nat) (r : RegNo), s.calm c = true →
    let k := s.core c
    let v := k.g r.toNat
    let vmid := fld (k.srd 0x8C1) 59 48
    let bare (x : Core) : Core := { x with tlb := [], iTlb := [], dTlb := [], walks := [] }
    let removes (i : Instr) (p : TlbEntry → Prop) (q : WalkEntry → Prop) : Prop :=
      ∃ t, exec i s = .next t ∧ t.mem = s.mem ∧ t.regs = s.regs ∧
        (∀ d, d < numCores →
          (∀ e, (e ∈ (t.core d).tlb ↔ e ∈ (s.core d).tlb ∧ ¬ p e) ∧ (e ∈ (t.core d).iTlb ↔ e ∈ (s.core d).iTlb ∧ ¬ p e) ∧
            (e ∈ (t.core d).dTlb ↔ e ∈ (s.core d).dTlb ∧ ¬ p e)) ∧
          (∀ e, e ∈ (t.core d).walks ↔ e ∈ (s.core d).walks ∧ ¬ q e)) ∧
        (∀ d, d ≠ c → bare (t.core d) = bare (s.core d)) ∧ bare (t.core c) = bare k.fallThrough
    let covers (e : TlbEntry) : Prop := e.page % 2 ^ (48 - e.size) = fld v 47 12 * 4096 / 2 ^ e.size
    let onWalk (e : WalkEntry) : Prop := ∃ l next, e.item = .table l (fld v 47 12 * 4096 / 2 ^ (39 - 9 * l)) next
    let table (e : WalkEntry) : Prop := ∃ l pre next, e.item = .table l pre next
    (k.lvl = 1 → removes (.tlbiVa c r) (fun e => covers e ∧ e.regime = .uk ∧ e.vmid = vmid ∧ (e.glob = true ∨ e.asid = fld v 63 48))
      (fun e => onWalk e ∧ e.regime = .uk ∧ e.vmid = vmid ∧ e.asid = fld v 63 48)) ∧
    (k.lvl = 2 → removes (.tlbiVa c r) (fun e => covers e ∧ e.regime = .h) (fun e => onWalk e ∧ e.regime = .h)) ∧
    (k.lvl = 3 → removes (.tlbiVa c r) (fun e => covers e ∧ e.regime = .m) (fun e => onWalk e ∧ e.regime = .m)) ∧
    (1 ≤ k.lvl → removes (.tlbiAsid c r) (fun e => e.regime = .uk ∧ e.vmid = vmid ∧ e.glob = false ∧ e.asid = fld v 15 0)
      (fun e => table e ∧ e.regime = .uk ∧ e.vmid = vmid ∧ e.asid = fld v 15 0)) ∧
    (2 ≤ k.lvl → removes (.tlbiVmid c r) (fun e => e.regime = .uk ∧ e.vmid = fld v 11 0) (fun e => e.regime = .uk ∧ e.vmid = fld v 11 0)) ∧
    (k.lvl = 2 → removes (.tlbiAll c) (fun e => e.regime ≠ .m) (fun e => e.regime ≠ .m)) ∧
    (k.lvl = 3 → removes (.tlbiAll c) (fun _ => True) (fun _ => True)) ∧
    (k.lvl = 0 → traps (.tlbiVa c r) s c { vec := 0x02 } ∧ traps (.tlbiAsid c r) s c { vec := 0x02 }) ∧
    (k.lvl < 2 → traps (.tlbiVmid c r) s c { vec := 0x02 } ∧ traps (.tlbiAll c) s c { vec := 0x02 })

/-- A half whose EN bit is 0 is not translated (R200): below 2^44 the address is itself, with the type that R200 and R205 give, for every kind of
access at every level; an address above is a stage-1 Translation Fault. Stage 2 is off. -/
def Obligations.IdentityTranslation : Prop :=
  ∀ (s : State) (c lvl : Nat) (kind : AccKind) (va ttb : W64), lvl < 4 → (s.core c).half lvl va = some ttb → bit ttb 0 = false →
    (2 ≤ lvl ∨ bit ((s.core c).srd 0x8C1) 0 = false) →
    (va.toNat < 2 ^ 44 → s.translate c lvl kind va = (s, .ok (va.toNat,
      if inRegs va.toNat = true ∨ inWindow va.toNat = true then .devStrict else if inCask va.toNat then .uncached else .cached))) ∧
    (2 ^ 44 ≤ va.toNat → s.translate c lvl kind va = (s, .error .trf))

/-- A walk of four levels to a page (R201-R204): when the TLBs and the walk cache are empty, no stage 2 applies, and the four reads at table base + index × 8 give three table
descriptors and a 4 KiB page, the address is the page's with the low 12 bits of the input, of the page's type, provided that the page grants the kind of
access at the level; else a Permission Fault. A descriptor with bit 0 clear at the first level is a Translation Fault. -/
def Obligations.FourLevelWalk : Prop :=
  ∀ (s : State) (c lvl : Nat) (kind : AccKind) (va ttb d0 d1 d2 d3 : W64), lvl < 4 → c < numCores →
    (s.core c).tlb = [] → (s.core c).iTlb = [] → (s.core c).dTlb = [] → (s.core c).walks = [] →
    (s.core c).half lvl va = some ttb → bit ttb 0 = true → (2 ≤ lvl ∨ bit ((s.core c).srd 0x8C1) 0 = false) →
    let read (base : W64) (shift : Nat) (d : W64) : Prop :=
      ∀ s' : State, { s' with cores := s.cores } = s →
        s'.walkRead c ((s.core c).tagAt c lvl) (kind == .fetch) (fld base 43 12 * 4096 + va.toNat / 2 ^ shift % 512 * 8) = (s', .ok d)
    let table (d : W64) : Prop := fld d 1 0 = 3 ∧ fld d 51 44 = 0 ∧ fld d 11 2 = 0
    let grants : Prop := match kind with
      | .load => bit d3 (if lvl = 0 then 9 else 6) = true
      | .store => bit d3 (if lvl = 0 then 10 else 7) = true
      | .fetch => bit d3 (if lvl = 0 then 11 else 8) = true
      | .icInv => (bit d3 (if lvl = 0 then 9 else 6) || bit d3 (if lvl = 0 then 11 else 8)) = true
    let pa := fld d3 43 12 * 4096 + va.toNat % 4096
    let type : RType := if fld d3 3 2 = 0 then .cached else if fld d3 3 2 = 1 then .uncached else if fld d3 3 2 = 2 then .devOrdered else .devStrict
    read ttb 39 d0 →
    (bit d0 0 = false → s.translate c lvl kind va = (s, .error .trf)) ∧
    (table d0 → read d0 30 d1 → table d1 → read d1 21 d2 → table d2 → read d2 12 d3 →
      fld d3 1 0 = 3 → fld d3 51 44 = 0 → bit d3 4 = false → (2 ≤ lvl → fld d3 11 9 = 0 ∧ bit d3 5 = false) →
      (grants → (s.translate c lvl kind va).2 = .ok (pa, type.adjust pa)) ∧
      (¬ grants → (s.translate c lvl kind va).2 = .error .prm))

/-! ## Barriers, events, waits and dispatch -/

/-- The barriers (R110, R184) and ISYNC: a barrier whose condition holds completes (FENCE.C: no Device store waits in the buffer; FENCE.K: the
buffer is empty; FENCE.S: also every Device write is acknowledged and no range operation runs), else it waits, and BARRIER_WAIT_END ends the wait when the condition holds. ISYNC drains and discards what was fetched.

SEV (R109): EVENT.PEND is set in every online core of the scope, the issuing core included; a core outside the scope or offline is unchanged. Scope 3 is
undefined. The first system-scope SEV that releases cores (R472) is left to another statement. Where the manual is silent its clauses state the model's choices of log entries 7. -/
def Obligations.BarriersAndEvents : Prop :=
  (∀ (s : State) (c : Nat), s.calm c = true →
      let k := s.core c
      let noDevice := ∀ e ∈ k.sbuf, e.rtype = .cached ∨ e.rtype = .uncached
      (noDevice → completes (.fenceC c) s c k) ∧
      (¬ noDevice → exec (.fenceC c) s = .next (s.setCore c { k with wait := .barrier 0 })) ∧
      let allDone := k.sbuf = [] ∧ s.unacknowledged c = false ∧ k.rangeBusy = false
      (k.sbuf = [] → completes (.fenceK c) s c k) ∧ (allDone → completes (.fenceS c) s c k) ∧
      (k.sbuf ≠ [] → exec (.fenceK c) s = .next (s.setCore c { k with wait := .barrier 1 })) ∧
      (¬ allDone → exec (.fenceS c) s = .next (s.setCore c { k with wait := .barrier 2 }) ∧
        exec (.barrierWaitEnd c) (s.setCore c { k with wait := .barrier 2 }) = .next (s.setCore c { k with wait := .barrier 2 })) ∧
      (∀ kind, k.sbuf = [] → kind ≠ 2 ∨ allDone → completes (.barrierWaitEnd c) (s.setCore c { k with wait := .barrier kind }) c k) ∧
      (k.sbuf ≠ [] → ∀ kind, 0 < kind → exec (.barrierWaitEnd c) (s.setCore c { k with wait := .barrier kind }) =
        .next (s.setCore c { k with wait := .barrier kind })) ∧
      (k.sbuf = [] → ∃ t, exec (.isync c) s = .next t ∧ t.core c = k.fallThrough ∧ (∀ a, t.byte a = s.byte a) ∧
        ∀ n, t.mem.copyAt n (.lineBuf c) = none)) ∧
  (∀ (s : State) (c : Nat) (scope : BitVec 2), s.calm c = true →
      (scope = 3 → traps (.sev c scope) s c { vec := 0x01 }) ∧
      (scope ≠ 3 → (∀ b, s.boot.booted = some b → b.compat = false ∨ b.sev = true) →
        ∃ t, exec (.sev c scope) s = .next t ∧ t.mem = s.mem ∧ t.regs = s.regs ∧
          (∀ d, d < numCores → s.online d = true → (scope = 0 → d = c) → (scope = 1 → d / 6 = c / 6) → (t.core d).event = true) ∧
          (∀ d, d ≠ c → (numCores ≤ d ∨ s.online d = false ∨ scope = 0 ∨ (scope = 1 ∧ d / 6 ≠ c / 6)) → t.core d = s.core d) ∧
          (t.core c).pc = (s.core c).fallThrough.pc ∧ (t.core c).gs = (s.core c).gs))

/-- WEV and WTU (R109): with an end condition they complete at once and clear EVENT.PEND, WTU writing the ETC; else the core waits. WTU on g0 completes at
once. WAIT_END and WTU_DEADLINE end a wait whose condition holds and leave one whose condition does not.

IDLE_ENTRY (R481): a core that waits in WEV sleeps as SLPCTL.DEPTH selects, DOZE losing L1, the TLBs, the predictors and the reservation; a core that
does not wait is unchanged. Where the manual is silent its clauses state the model's choices of log entries 7, 16. -/
def Obligations.Waits : Prop :=
  (∀ (s : State) (c : Nat) (r : RegNo), s.calm c = true →
      let k := s.core c
      let d := k.g r.toNat
      let beyond := k.event = true
      (beyond → completes (.wev c) s c (k.swr 0x1C1 0)) ∧
      (¬ beyond → exec (.wev c) s = .next (s.setCore c { k with wait := .wev })) ∧
      (d.toNat ≤ s.clk.etc.toNat ∨ beyond → completes (.wtu c r) s c ((k.swr 0x1C1 0).setG r.toNat s.clk.etc)) ∧
      (¬ (d.toNat ≤ s.clk.etc.toNat ∨ beyond) → exec (.wtu c r) s = .next (s.setCore c { k with wait := .wtu r.toNat d })) ∧
      (completes (.wtu c 0) s c (k.swr 0x1C1 0)) ∧
      (∀ q dl, dl.toNat ≤ s.clk.etc.toNat → completes (.wtuDeadline c) (s.setCore c { k with wait := .wtu q dl }) c ((k.swr 0x1C1 0).setG q s.clk.etc)) ∧
      (∀ q dl, s.clk.etc.toNat < dl.toNat → exec (.wtuDeadline c) (s.setCore c { k with wait := .wtu q dl }) = .next (s.setCore c { k with wait := .wtu q dl })) ∧
      (k.event = true → completes (.waitEnd c) (s.setCore c { k with wait := .wev }) c (k.swr 0x1C1 0)) ∧
      (k.event = false → exec (.waitEnd c) (s.setCore c { k with wait := .wev }) = .next (s.setCore c { k with wait := .wev }))) ∧
  (∀ (s : State) (c : Nat), s.calm c = true → (s.core c).sbuf = [] →
      let k := s.core c
      let w := s.setCore c { k with wait := .wev }
      let depth := fld (k.srd 0x601) 1 0
      exec (.idleEntry c) s = .next s ∧
      (depth = 0 → exec (.idleEntry c) w = .next (s.setCore c { k with wait := .wev, sleep := .idle })) ∧
      (depth = 1 → exec (.idleEntry c) w = .next (s.setCore c { k with wait := .wev, sleep := .nap })) ∧
      (2 ≤ depth → ∃ t, exec (.idleEntry c) w = .next t ∧ (t.core c).sleep = .doze ∧ (t.core c).tlb = [] ∧ (t.core c).iTlb = [] ∧ (t.core c).dTlb = [] ∧ (t.core c).walks = [] ∧
        (t.core c).resv = none ∧
        (t.core c).pred = Predictor.empty ∧ (t.core c).gs = k.gs ∧ (∀ n, t.mem.copyAt n (.l1d c) = none) ∧ (∀ n, t.mem.copyAt n (.l1i c) = none) ∧
        (∀ a, t.byte a = s.byte a)))

/-! ## Exceptions, gates and returns -/

/-- Taking a synchronous exception (R142, R145-R147): with the vector entry and the frame in ordinary memory of the target level, room above SLIM, and no
exception of the same level in progress, EPC and ESTAT are pushed as one 16-byte frame, the stack pointer of the target level goes down by 16, STAT
gets the target level with FH set, FPE clear and MLV kept, the fault registers are written, any reservation ends, and the handler of the vector runs. The
exceptions of U and K go to K or, by XROUTE_H and for vector 0x09, to H; those of H and M stay. -/
def Obligations.ExceptionIsTaken : Prop :=
  ∀ (s : State) (c : Nat) (e : Exc), s.calm c = true → (s.core c).sbuf = [] → e.vec < 32 → e.vec ≠ 0x13 →
    let k := s.core c
    let t := if 2 ≤ k.lvl then k.lvl else if e.vec = 9 ∨ bit (k.srd 0x887) e.vec then 2 else 1
    let bank := (t - 1) * 0x400
    let slot := k.srd (0x480 + bank) + BitVec.ofNat 64 (e.vec * 8)
    let handler := s.number slot.toNat 8
    let frame := k.spOf t - 16
    let wnrVec := e.vec = 6 ∨ e.vec = 8 ∨ e.vec = 9 ∨ e.vec = 0x0B ∨ e.vec = 0x0E ∨ e.vec = 0x0F
    let estat := fld k.stat 9 0 + e.vec * 2 ^ 10 + (if e.fetch = true ∧ e.vec = 9 then 2 ^ 17 else 0) + (if e.wnr = true ∧ wnrVec then 2 ^ 18 else 0) +
      e.info % 2 ^ 16 * 2 ^ 32
    let bytes := (List.range 8).map (fun i => (frame.toNat + i, BitVec.ofNat 8 (k.pc.toNat / 256 ^ i))) ++
      (List.range 8).map (fun i => (frame.toNat + 8 + i, BitVec.ofNat 8 (estat / 256 ^ i)))
    ¬ (t = k.lvl ∧ k.fh = true) → (t = 3 → s.mHeld c = false) →
    s.plainAt c t false slot 8 = true → s.plainAt c t true frame 8 = true → s.plainAt c t true (frame + 8) 8 = true → frame.toNat % 16 = 0 →
    (k.srd (0x482 + bank)).toNat ≤ frame.toNat →
    16 ≤ (k.spOf t).toNat →
    ∃ u, s.raise c e = u ∧
      (u.core c).pc = BitVec.ofNat 64 (handler / 4 * 4) ∧ (u.core c).spOf t = frame ∧ (u.core c).lvl = t ∧
      (u.core c).fh = true ∧ (u.core c).fpe = false ∧ (u.core c).mlv = k.mlv ∧ bit (u.core c).stat 2 = decide (t = 3) ∧
      (u.core c).resv = none ∧ (u.core c).sbuf.map (fun x => x.bytes) = [bytes] ∧
      (u.core c).srd (0x483 + bank) = e.far.getD (k.srd (0x483 + bank)) ∧
      (∀ i, e.fipa = some i → (u.core c).srd 0x886 = BitVec.ofNat 64 (i % 2 ^ 48)) ∧ (e.fipa = none → (u.core c).srd 0x886 = k.srd 0x886) ∧
      (u.core c).gs = k.gs ∧ (u.core c).fs = k.fs ∧ (u.core c).fcsr = k.fcsr ∧ (u.core c).lbeg = k.lbeg ∧ (u.core c).lend = k.lend ∧
      (u.core c).lcnt = k.lcnt ∧ (∀ l, l < 4 → l ≠ t → (u.core c).spOf l = k.spOf l) ∧ u.regs = s.regs ∧ (∀ a, u.byte a = s.byte a) ∧
      (∀ d, d ≠ c → u.core d = s.core d)

/-- BRK and the exception that an instruction raises on its own account (R90, R147, R150): BRK takes vector 0x12 with its immediate as INFO;
EXCEPTION_ENTRY takes the vector that it names, with INFO, FAR and FIPA_H only where R147 gives them.

Escalation (R154): an exception that targets the level it is raised at while FH is 1 is entered as vector 0x14 at the next level up, with the original vector
as INFO; at M it takes the emergency entry, and while that is active the core stops with a Fatal record. Where the manual is silent its clauses state the model's choices of log entries 7. -/
def Obligations.ExceptionsAreRaised : Prop :=
  (∀ (s : State) (c : Nat) (imm : BitVec 10) (info : Nat) (far : W64) (ipa : Nat) (wnr fetch : Bool), s.calm c = true →
      traps (.brk c imm) s c { vec := 0x12, info := imm.toNat } ∧
      (∀ v ∈ [0x01, 0x02, 0x03, 0x11], traps (.exceptionEntry c v info (some far) (some ipa) wnr fetch) s c { vec := v, wnr := wnr, fetch := fetch }) ∧
      (∀ v ∈ [0x04, 0x05, 0x06, 0x07, 0x08, 0x0A, 0x0B, 0x0E, 0x0F],
        traps (.exceptionEntry c v info (some far) (some ipa) wnr fetch) s c { vec := v, far := some far, wnr := wnr, fetch := fetch }) ∧
      traps (.exceptionEntry c 0x12 info (some far) (some ipa) wnr fetch) s c { vec := 0x12, info := info, wnr := wnr, fetch := fetch } ∧
      traps (.exceptionEntry c 0x10 info (some far) (some ipa) wnr fetch) s c { vec := 0x10, info := info, far := some far, wnr := wnr, fetch := fetch } ∧
      ((s.core c).lvl < 2 → traps (.exceptionEntry c 0x09 info (some far) (some ipa) wnr fetch) s c
        { vec := 0x09, far := some far, fipa := some ipa, wnr := wnr, fetch := fetch })) ∧
  (∀ (s : State) (c : Nat) (e : Exc), (s.core c).itr = false → e.vec ≠ 0x13 →
      let k := s.core c
      let t := if 2 ≤ k.lvl then k.lvl else if e.vec = 9 ∨ (e.vec < 32 ∧ bit (k.srd 0x887) e.vec) then 2 else 1
      t = k.lvl → k.fh = true →
      (k.lvl < 3 → s.raise c e = State.entryAt 3 s c (k.lvl + 1)
        { vec := 0x14, info := e.vec, far := e.far, fipa := none, wnr := false, fetch := false, epc := k.pc }) ∧
      (k.lvl = 3 → k.emgM = true → s.raise c e = s.checkStop c e.vec) ∧
      (∀ v, ((s.checkStop c v).core c).checkStopped = true ∧ (s.checkStop c v).fatalDue = true ∧ ((s.checkStop c v).core c).pc = k.pc))

/-- The checks of a GATE that come before any access (R155, R157): target level U is Undefined, and a target that does not lie above the caller takes Gate Fault
with REASON 0.

GATE (R112, R155): with a valid entry in ordinary memory that the caller may use and that checks no argument, the return address and the status are pushed
on the target level's stack, the level changes with FH, MLV and FPE kept, and the entry's address runs; the g registers pass. -/
def Obligations.GateEnters : Prop :=
  (∀ (s : State) (c : Nat) (t : BitVec 2) (n : BitVec 10), s.calm c = true →
      let k := s.core c
      (t = 0 → traps (.gate c t n) s c { vec := 0x01 }) ∧
      (t ≠ 0 → t.toNat ≤ k.lvl → traps (.gate c t n) s c { vec := 0x10, info := n.toNat + t.toNat * 2 ^ 10 }) ∧
      (t = 3 → k.lvl < 3 → s.mHeld c = true → exec (.gate c t n) s = .next s)) ∧
  (∀ (s : State) (c : Nat) (t : BitVec 2) (n : BitVec 10), s.calm c = true → (s.core c).sbuf = [] →
      let k := s.core c
      let T := t.toNat
      let bank := (T - 1) * 0x400
      let a := k.srd (0x481 + bank) + BitVec.ofNat 64 (n.toNat * 32)
      let d0 := s.number a.toNat 8
      let d1 := s.number (a.toNat + 8) 8
      let frame := k.spOf T - 16
      let bytes := (List.range 8).map (fun i => (frame.toNat + i, BitVec.ofNat 8 ((k.pc + 4).toNat / 256 ^ i))) ++
        (List.range 8).map (fun i => (frame.toNat + 8 + i, BitVec.ofNat 8 (fld k.stat 9 0 / 256 ^ i)))
      k.lvl < T → (T = 3 → s.mHeld c = false) → (∀ i, i < 4 → s.plainAt c T false (a + BitVec.ofNat 64 (8 * i)) 8 = true) →
      s.plainAt c T true frame 8 = true → s.plainAt c T true (frame + 8) 8 = true → frame.toNat % 16 = 0 → a.toNat < 2 ^ 44 →
      (k.srd (0x482 + bank)).toNat ≤ frame.toNat → 16 ≤ (k.spOf T).toNat →
      d0 % 4 = 0 → d1 % 256 / 16 = 0 → d1 / 256 = 0 → d1 % 2 = 1 → d1 / 2 ^ (1 + k.lvl) % 2 = 1 → s.number (a.toNat + 24) 8 = 0 →
      ∃ u, exec (.gate c t n) s = .next u ∧ (u.core c).pc = BitVec.ofNat 64 d0 ∧ (u.core c).spOf T = frame ∧ (u.core c).lvl = T ∧
        (u.core c).fh = k.fh ∧ (u.core c).fpe = k.fpe ∧ (u.core c).mlv = k.mlv ∧ (u.core c).resv = none ∧
        (u.core c).sbuf.map (fun x => x.bytes) = [bytes] ∧ (u.core c).gs = k.gs ∧ (u.core c).fs = k.fs ∧
        (∀ l, l < 4 → l ≠ T → (u.core c).spOf l = k.spOf l) ∧ u.regs = s.regs ∧ (∀ x, u.byte x = s.byte x) ∧ (∀ d, d ≠ c → u.core d = s.core d))

/-- ERET and GRET (R112, R153): with the frame in ordinary memory the return address and the status image are taken from it and removed, LVL, MLV, FH and FPE
come from the image (MLV capped, R144), any reservation ends, and what was fetched is discarded (R123). A frame for a higher level (GRET: not for a lower one), or whose address is not a
word's, takes Illegal Return; both are privileged. -/
def Obligations.Returns : Prop :=
  ∀ (s : State) (c : Nat), s.calm c = true →
    let k := s.core c
    let sp := k.spOf k.lvl
    let ret := BitVec.ofNat 64 (s.number sp.toNat 8)
    let img := BitVec.ofNat 64 (s.number (sp.toNat + 8) 8)
    let l := fld img 1 0
    let cap := if l ≤ 1 then fld (k.srd 0x888) 3 0 else if l = 2 then fld (k.srd 0xC88) 3 0 else 15
    let comesBack (i : Instr) : Prop :=
      ∃ u, exec i s = .next u ∧ (u.core c).pc = ret ∧ (u.core c).spOf k.lvl = sp + 16 ∧ (u.core c).lvl = l ∧ (u.core c).mlv = min (fld img 7 4) cap ∧
        (u.core c).fh = bit img 8 ∧ (u.core c).fpe = bit img 9 ∧ (u.core c).resv = none ∧ (u.core c).gs = k.gs ∧ (u.core c).fs = k.fs ∧
        (u.core c).sbuf = k.sbuf ∧ u.regs = s.regs ∧ (∀ a, u.byte a = s.byte a) ∧ (∀ n, u.mem.copyAt n (.lineBuf c) = none) ∧
        (∀ d, d ≠ c → u.core d = s.core d)
    let illegal (i : Instr) : Prop := exec i s = .next (((s.noteAccess c (k.tag c)).raise c { vec := 0x11 }).haltBoundary c)
    (k.lvl = 0 → traps (.eret c) s c { vec := 0x02 } ∧ traps (.gret c) s c { vec := 0x02 }) ∧
    (1 ≤ k.lvl → s.plain c false sp 8 = true → s.plain c false (sp + 8) 8 = true → sp.toNat < 2 ^ 44 →
      (l ≤ k.lvl → fld ret 1 0 = 0 → comesBack (.eret c)) ∧ (l < k.lvl → fld ret 1 0 = 0 → comesBack (.gret c)) ∧
      (k.lvl < l ∨ fld ret 1 0 ≠ 0 → illegal (.eret c)) ∧ (k.lvl ≤ l ∨ fld ret 1 0 ≠ 0 → illegal (.gret c)))

/-! ## Interrupts -/

/-- Edges and level lines (R421, R422): an edge sets PEND, or MERGE when PEND is already set; a line shows in LINE, drives PEND of a level source while it is
not ACTIVE, and gives an edge source one edge on rising. An SNUM that names no source changes nothing. An
error in the distributor's arrays is recorded first (R432).

Software's edges (R420, R422, R431): a write of SETP is an edge on the source, and CSIG raises private source 16 + n of the target core; the
open world reaches no sealed source. -/
def Obligations.InterruptsArePended : Prop :=
  (∀ (s : State) (c n p : Nat) (high : Bool),
      let edge (i : Instr) (a : Nat) : Prop :=
        (s.rb a 0 = false → exec i s = .next (s.setRb a 0 true)) ∧ (s.rb a 0 = true → exec i s = .next (s.setRb a 2 true))
      (n < 1024 → edge (.edgeEvent c n) (Reg.INTD_SSTAT.at n)) ∧
      (p < 32 → reservedPrivate p = false → c < numCores → edge (.edgeEvent c (1024 + p)) (Reg.INTD_PSTAT.at c p)) ∧
      (1056 ≤ n → exec (.edgeEvent c n) s = .next s) ∧
      (p < 32 → reservedPrivate p = true → exec (.edgeEvent c (1024 + p)) s = .next s) ∧
      (n < 1024 → ∃ t, exec (.levelLine (.shared n) high .ok) s = .next t ∧
        let a := Reg.INTD_SSTAT.at n
        t.rb a 4 = high ∧ t.rb a 1 = s.rb a 1 ∧ (∀ b, b ≠ a → t.reg b = s.reg b) ∧ t.cores = s.cores ∧ t.mem = s.mem ∧
        (s.rb (Reg.INTD_SCFG.at n) 8 = true → t.rb a 0 = if s.rb a 1 then s.rb a 0 else high) ∧
        (s.rb (Reg.INTD_SCFG.at n) 8 = false → t.rb a 0 = (s.rb a 0 || (high && !s.rb a 4)))) ∧
      (n < 96 → s.rb (Reg.PINMUX_PAD.at n) 31 = false → exec (.levelLine (.gpio n) high .ok) s =
        .next (s.setRb (Reg.GPIO_DIN.at (n / 32)) (n % 32) high)) ∧
      (∀ src, exec (.levelLine src high .corrected) s = exec (.levelLine src high .ok) (s.record { bank := 44, unit := 0x00, code := 0x01, sev := .corrected }) ∧
        exec (.levelLine src high .bad) s = exec (.levelLine src high .ok) (s.record { bank := 44, unit := 0x00, code := 0x02, sev := .fatal }))) ∧
  (∀ (s : State) (r n : Nat) (v : W32), r < numCores →
      let world := decide ((s.core r).lvl = 3)
      let a := Reg.INTD_SSTAT.at n
      (n < 1024 → s.levelSource n = false → s.allSw a = false ∨ world = true → ∃ t, exec (.setp (.core r) a 0x100) s = .next t ∧
        t.rb a 0 = true ∧ t.rb a 1 = s.rb a 1 ∧ (∀ b, b ≠ a → t.reg b = s.reg b) ∧ t.cores = s.cores) ∧
      (n < 1024 → s.allSw a = true → world = false → exec (.setp (.core r) a v) s = .next s) ∧
      (let c := fld v 21 16
       let p := 16 + fld v 3 0
       (c < numCores → s.rb (Reg.INTD_PCFG.at c p) 31 = false ∨ world = true → exec (.csig (.core r) v) s = .next (s.edgeAt (Reg.INTD_PSTAT.at c p))) ∧
       (numCores ≤ c ∨ (s.rb (Reg.INTD_PCFG.at c p) 31 = true ∧ world = false) → exec (.csig (.core r) v) s = .next s)))

/-- Which interrupt a core takes (R143, R422, R423): one that is pending, enabled and not active, aimed at the core at or above its level, of a priority above
MLV and above the running priority; of these the highest priority, a private source before a shared one, then the lower number. While INTD.CTL.EN is 0
none is taken.

INTERRUPT_ENTRY (R143, R145, R424): the core's best interrupt is acknowledged — PEND cleared unless a level line holds it, ACTIVE set, and an entry pushed on
the running-priority stack — and vector 0x20 + priority is entered at the source's level, MLV taking the priority under the cap. With nothing due, nothing
happens; a waiting WEV completes first (R109).

Completion (R425-R427): an MTS to IEOI that names the top entry of the stack removes it and ends its source's ACTIVE; one that names another
source raises private source 15 with a Deferred record, and one below the entry's level does nothing. ISTKCLR without CLR does nothing, and with it removes the
entries that the level may complete. Where the manual is silent its clauses state the model's choices of log entries 7. -/
def Obligations.InterruptIsTaken : Prop :=
  (∀ (s : State) (c : Nat), c < numCores →
      let k := s.core c
      let private_ (a : IrqCand) : Prop := ∃ p, p < 32 ∧ a.snum = 1024 + p ∧
        s.rb (Reg.INTD_PSTAT.at c p) 0 = true ∧ s.rb (Reg.INTD_PSTAT.at c p) 1 = false ∧ a.prio = s.rf (Reg.INTD_PCFG.at c p) 3 0 ∧ a.prio ≠ 0 ∧
        a.lvl = if p = 9 then 3 else max 1 (s.rf (Reg.INTD_PCFG.at c p) 25 24)
      let eligible (a : IrqCand) : Prop := s.runPrio c < a.prio ∧ k.mlv < a.prio ∧ k.lvl ≤ a.lvl ∧ (a.lvl = 3 → s.mHeld c = false)
      (s.rb Reg.INTD_CTL.at 0 = false → s.takeable c = none) ∧
      (∀ a, s.takeable c = some a → eligible a ∧ (1024 ≤ a.snum → private_ a) ∧
        ∀ b, private_ b → eligible b → b.prio < a.prio ∨ (b.prio = a.prio ∧ 1024 ≤ a.snum ∧ a.snum ≤ b.snum)) ∧
      (s.rb Reg.INTD_CTL.at 0 = true → s.takeable c = none → ∀ b, private_ b → ¬ eligible b)) ∧
  (∀ (s : State) (c : Nat) (a : IrqCand), s.runs c = true → s.still c = true →
      let k := s.core c
      (s.due c = none → exec (.interruptEntry c) s = .next s) ∧
      ((s.due c).isSome = true → exec (.interruptEntry c) (s.setCore c { k with wait := .wev }) =
        exec (.interruptEntry c) (s.setCore c (k.swr 0x1C1 0).fallThrough)) ∧
      (s.due c = some (.irq a) → s.takeable c = some a) ∧
      (s.due c = some (.irq a) → k.sbuf = [] →
        let t := a.lvl
        let bank := (t - 1) * 0x400
        let slot := k.srd (0x480 + bank) + BitVec.ofNat 64 ((0x20 + a.prio) * 8)
        let frame := k.spOf t - 16
        let estat := fld k.stat 9 0 + (0x20 + a.prio) * 2 ^ 10
        let bytes := (List.range 8).map (fun i => (frame.toNat + i, BitVec.ofNat 8 (k.pc.toNat / 256 ^ i))) ++
          (List.range 8).map (fun i => (frame.toNat + 8 + i, BitVec.ofNat 8 (estat / 256 ^ i)))
        let cap := if t ≤ 1 then fld (k.srd 0x888) 3 0 else if t = 2 then fld (k.srd 0xC88) 3 0 else 15
        let st := if a.snum < 1024 then Reg.INTD_SSTAT.at a.snum else Reg.INTD_PSTAT.at c (a.snum - 1024)
        let top := Reg.INTD_RPS.at c (s.rpsDepth c + 1)
        s.plainAt c t false slot 8 = true → s.plainAt c t true frame 8 = true → s.plainAt c t true (frame + 8) 8 = true → frame.toNat % 16 = 0 →
        (k.srd (0x482 + bank)).toNat ≤ frame.toNat → 16 ≤ (k.spOf t).toNat →
        ∃ u, exec (.interruptEntry c) s = .next u ∧ (u.core c).pc = BitVec.ofNat 64 (s.number slot.toNat 8 / 4 * 4) ∧ (u.core c).spOf t = frame ∧
          (u.core c).lvl = t ∧ (u.core c).fh = true ∧ (u.core c).fpe = false ∧ (u.core c).mlv = min a.prio cap ∧ (u.core c).resv = none ∧
          (u.core c).sbuf.map (fun x => x.bytes) = [bytes] ∧ (u.core c).gs = k.gs ∧
          u.rb st 1 = true ∧ u.rb st 0 = (s.levelSource a.snum && s.rb st 4) ∧
          u.reg top = BitVec.ofNat 32 (2 ^ 31 + a.lvl * 2 ^ 24 + a.prio * 2 ^ 16 + a.snum) ∧
          (∀ b, b ≠ st → b ≠ top → u.reg b = s.reg b))) ∧
  (∀ (s : State) (c : Nat) (r : RegNo), s.calm c = true → 1 ≤ (s.core c).lvl →
      let k := s.core c
      let v := k.g r.toNat
      let d := s.rpsDepth c
      let top := s.reg (Reg.INTD_RPS.at c d)
      let n := fld v 10 0
      let st := if n < 1024 then Reg.INTD_SSTAT.at n else Reg.INTD_PSTAT.at c (n - 1024)
      let mismatch : ErrRec := { bank := 44, unit := 0x01, code := 0x07, sev := .deferred, tag := some (k.tag c),
                                 misc0 := n + (if d = 0 then 0x7FF else fld top 10 0) * 2 ^ 16 }
      (d ≠ 0 → d < 16 → fld top 25 24 ≤ k.lvl → fld top 10 0 = n → n < 1056 → ∃ t, exec (.ieoi c r) s = .next t ∧ t.core c = k.fallThrough ∧
        bit (t.reg (Reg.INTD_RPS.at c d)) 31 = false ∧ t.rb st 1 = false ∧
        t.rb st 0 = (if s.levelSource n then s.rb st 4 else s.rb st 0) ∧
        (∀ b, b ≠ st → b ≠ Reg.INTD_RPS.at c d → t.reg b = s.reg b) ∧ t.mem = s.mem) ∧
      (d ≠ 0 → k.lvl < fld top 25 24 → completes (.ieoi c r) s c k) ∧
      (d = 0 ∨ (fld top 25 24 ≤ k.lvl ∧ fld top 10 0 ≠ n) → exec (.ieoi c r) s =
        .next (((s.edgeAt (Reg.INTD_PSTAT.at c 15)).record mismatch).setCore c k.fallThrough)) ∧
      (2 ≤ k.lvl → bit v 0 = false → completes (.istkclr c r) s c k) ∧
      (2 ≤ k.lvl → bit v 0 = true → (∀ i, 1 ≤ i → i < 16 → (bit (s.reg (Reg.INTD_RPS.at c i)) 31 = true ↔ i ≤ d)) →
        (∀ i, 1 ≤ i → i < 16 → fld (s.reg (Reg.INTD_RPS.at c i)) 25 24 ≤ k.lvl) →
        ∃ t, exec (.istkclr c r) s = .next t ∧ t.rpsDepth c = 0 ∧ t.core c = k.fallThrough))

/-! ## Responses, reports and fills -/

/-- The response of a load that left the device (R122, R165): data completes it, joined with the bytes that memory gave and with the base update it still owed;
an error, a timeout or poison of a Normal load is its exception at the lowest byte that lies outside; of a Device load, which has committed, it is an
asynchronous report with rd unwritten. Consumed poison is recorded (R229). With no load waiting nothing happens.

ASYNC_BUS_ERROR (R149, R151): an error response to a retired store is recorded where its block does not record on its own, and becomes the pending
report — vector 0x0B with its address for a Device store, 0x0C for another; a further one sets MULTI. At a boundary with nothing arriving a due report is
taken, that of a Device load before that of a store; one whose target lies below the core's level, or is M with the core below it, stays pending.

Fills (R137, R213, R216-R218): the line of an address of ordinary cached memory that the fabric admits comes into the cluster's inclusive L2 and,
while the L1's enable is set, into L1; no byte of memory changes, whichever lines make way, and a core changes in nothing but a reservation lost
to an eviction (R103). With no way locked or fenced the line is then present. An early ownership request for a waiting store gives the cluster the line (R182, R244). Where the manual is silent its clauses state the model's choices of log entries 7, 18. -/
def Obligations.LateResponses : Prop :=
  (∀ (s : State) (c : Nat) (l : LoadWait) (v : Nat), s.calm c = true →
      s.host.reads = [] → s.host.queue = [] → s.relay.reqs = [] → s.relay.queue = [] → s.relay.parts = [] →
      l.size = 1 ∨ l.size = 2 ∨ l.size = 4 ∨ l.size = 8 →
      let k := s.core c
      let w := s.setCore c { k with wait := .load l }
      let number := ((List.range l.size).map (fun i =>
        (match l.known.find? (fun x => x.1 == i) with | some x => x.2.toNat | none => v / 256 ^ i % 256) * 256 ^ i)).sum
      let base : Core := match l.base with | some (r, x) => k.setG r x | none => k
      let value : W64 := if l.sext && !l.fp then (BitVec.ofNat (8 * l.size) number).signExtend 64 else BitVec.ofNat 64 number
      let level := if 2 ≤ k.lvl then k.lvl else if bit (k.srd 0x887) 0x0B then 2 else 1
      let reported : Core :=
        { k with loadRep := some { vec := 0x0B, tgt := level, multi := false, asyncBit := true, wnr := false, far := l.va }, lastTag := some (k.tag c) }
      completes (.deviceLoadResponse c (.data v)) w c { (if l.fp then base.setF l.rt value else base.setG l.rt value) with lastTag := some (k.tag c) } ∧
      (l.device = false →
        (∀ r, r = .error ∨ r = .timeout → exec (.deviceLoadResponse c r) w =
          .next (((s.setCore c k).raise c { vec := 0x0B, far := some l.far }).modCore c (fun x => { x with itr := false }))) ∧
        exec (.deviceLoadResponse c .poisoned) w =
          .next ((((s.setCore c k).recordPoison c (k.tag c) false l.pa).raise c { vec := 0x0E, far := some l.far }).modCore c (fun x => { x with itr := false }))) ∧
      (l.device = true → completes (.deviceLoadResponse c .timeout) w c reported ∧
        exec (.deviceLoadResponse c .error) w = .next (w.took.setCore c reported.fallThrough)) ∧
      exec (.deviceLoadResponse c (.data v)) s = .next s) ∧
  (∀ (s : State) (c : Nat) (e : StoreError) (o : AsyncRep), s.runs c = true → s.still c = true → (s.core c).itr = false →
      let k := s.core c
      let level (v : Nat) := if 2 ≤ e.lvl then e.lvl else if bit (k.srd 0x887) v then 2 else 1
      let fresh : AsyncRep := if e.device then { vec := 0x0B, tgt := level 0x0B, multi := false, asyncBit := true, wnr := true, far := e.va }
        else { vec := 0x0C, tgt := level 0x0C, multi := false, asyncBit := true, wnr := false, far := 0 }
      let arrives (u : State) : Prop := exec (.asyncBusError c (some e)) s =
        .next (u.setCore c { k with report := match k.report with | none => some fresh | some p => some { p with multi := true } })
      let t := k.tagAt c e.lvl
      let entry : EntryReq := { vec := o.vec, info := if o.multi then 1 else 0, far := some o.far, wnr := o.wnr, async := o.asyncBit, epc := k.pc }
      (s.decode e.pa = .host → arrives s) ∧ (∀ i, s.decode e.pa = .relay i → arrives s) ∧
      (s.decode e.pa = .unmapped ∨ s.decode e.pa = .rom → arrives (s.record { bank := 0, unit := 0x00, code := 0x08, sev := .deferred, addr := some e.pa, tag := some t })) ∧
      (s.decode e.pa = .regs → arrives (s.record { bank := 0, unit := 0x01, code := 0x07, sev := .deferred, addr := some e.pa, tag := some t })) ∧
      (∀ i off, s.decode e.pa = .tier i off → arrives (s.recordRefusal i off t e.pa)) ∧
      (s.due c = none → exec (.asyncBusError c none) s = .next s) ∧
      (k.restart = none → k.loadRep = some o → exec (.asyncBusError c none) s =
        .next (State.entryAt 3 (s.setCore c { k with loadRep := none }) c o.tgt entry)) ∧
      (k.restart = none → k.loadRep = none → k.report = some o →
        (k.lvl ≤ o.tgt → (o.tgt = 3 → k.lvl = 3) → exec (.asyncBusError c none) s =
          .next (State.entryAt 3 (s.setCore c { k with report := none }) c o.tgt entry)) ∧
        (o.tgt < k.lvl ∨ (o.tgt = 3 ∧ k.lvl < 3) → exec (.asyncBusError c none) s = .next s))) ∧
  (∀ (s : State) (c : Nat) (va : W64) (victim : Option Nat), s.calm c = true → s.canonical = true →
      let k := s.core c
      let line := va.toNat / 64
      let L2 := CopyAt.l2 (c / 6)
      let bare (x : Core) : Core := { x with resv := none, hold := none, overlaid := [] }
      let quiet (t : State) : Prop := (∀ a, t.byte a = s.byte a) ∧ t.regs = s.regs ∧ ∀ d, bare (t.core d) = bare (s.core d)
      s.plain c false va 1 = true → inCask va.toNat = false → s.admits (k.tag c) false (line * 64) = (s, none) →
      k.srd 0x901 = 0 → s.reg (Reg.CLUSTER_L2LOCK.at (c / 6)) = 0 → (∀ w, s.wayFenced (.l2 (c / 6)) w = false) →
      s.unallocated (.l2 (c / 6)) line = false →
      (∃ t, exec (.l1dFill c va victim false .ok .ok 0) s = .next t ∧ quiet t ∧ (t.mem.copyAt line L2).isSome = true ∧
        (bit (k.srd 0x900) 1 = true → (t.mem.copyAt line (.l1d c)).isSome = true)) ∧
      (∃ t, exec (.l1iFill c va victim .ok 0) s = .next t ∧ quiet t ∧ (t.mem.copyAt line L2).isSome = true ∧
        (bit (k.srd 0x900) 0 = true → (t.mem.copyAt line (.l1i c)).isSome = true) ∧ (t.mem.copyAt line (.lineBuf c)).isSome = true) ∧
      (s.admits (k.tag c) true (line * 64) = (s, none) → (∃ e ∈ k.sbuf, e.pa / 64 = line ∧ e.rtype = .cached) →
        ∃ t, exec (.l1dFill c va victim true .ok .ok 0) s = .next t ∧ quiet t ∧ (t.mem.line line).owner = some (c / 6)))

/-! ## Register access -/

/-- What a software write leaves in each field of a register (R11-R14): RW and RWH take the value, RO and WO keep theirs, W1C clears and W1S sets the bits
written as 1, a field that is locked or that is sealed-only for the open world is kept; bits outside every field are unchanged. -/
def Obligations.FieldsByAccessCode : Prop :=
  ∀ (s : State) (world : Bool) (a : Nat) (v : W32) (d : RegDef) (f : FieldDef), regAt a = some d → f ∈ d.fields →
    (∀ x ∈ d.fields, x.lo ≤ x.hi ∧ x.hi < 32) → d.fields.Pairwise (fun x y => x.hi < y.lo ∨ y.hi < x.lo) → s.allSw a = false ∨ world = true →
    let t := s.writeFields world a v
    let old (i : Nat) := s.rb a i
    let new (i : Nat) := v.getLsbD i
    let now (i : Nat) := t.rb a i
    let may := f.sw = false ∨ world = true
    (∀ b, b ≠ a → t.reg b = s.reg b) ∧
    (∀ i, i < 32 → (∀ x ∈ d.fields, i < x.lo ∨ x.hi < i) → now i = old i) ∧
    (∀ i, f.lo ≤ i → i ≤ f.hi →
      (¬ may → now i = old i) ∧
      (may → (f.acc = .rw ∨ f.acc = .rwh → now i = new i) ∧ (f.acc = .ro ∨ f.acc = .wo → now i = old i) ∧
        (f.acc = .w1c → now i = (old i && !new i)) ∧ (f.acc = .w1s → now i = (old i || new i)) ∧
        (f.acc = .rwl → now i = if s.fieldLocked a f then old i else new i)))

/-- The register tables are well formed (R10, R11, R23): every register lies in its block on a word boundary, its fields lie in its 32 bits and do not overlap, and
its reset value has no bit outside them.

REGISTER_WRITE and the wrong sizes (R10, R12, R16, R28, R36): a word write of a register without an effect of its own writes its fields, where hardware updates an
RW/H field in the same cycle the hardware value standing; the endpoint's access is unmapped; an access that is not one
aligned word gets an error response and a Deferred record of CODE 0x07 and changes no register but the records; an address that no
block holds gets the decode error of R28.

The 64-bit pairs (R19, R21): a read of NAME_LO answers the low word and latches the high word of the same sample, which the next read of NAME_HI by the same
requester answers; a write of NAME_LO is held for its requester, and NAME_HI commits both words at once. Where the manual is silent its clauses state the model's choices of log entries 39. -/
def Obligations.RegisterWrites : Prop :=
  (∀ (b : Block) (d : RegDef), d ∈ b.regs → d.base % 4 = 0 ∧ (∀ x ∈ d.fields, x.lo ≤ x.hi ∧ x.hi < 32 ∧ x.reset < 2 ^ (x.hi - x.lo + 1)) ∧
      d.fields.Pairwise (fun x y => x.hi < y.lo ∨ y.hi < x.lo) ∧ (∃ n m, blockOf d.base = some (b, n, m)) ∧ regAt d.base = some d) ∧
  (∀ (s : State) (r a size : Nat) (v : W32) (write hw : Bool), r < numCores →
      let k := s.core r
      let world := decide (k.lvl = 3)
      let answerPort := r
      let simple := Reg.AON_WAKECFG.holds a ∨ Reg.AON_RSTCAUSE.holds a ∨ Reg.ERRREC_ROUTE.holds a ∨ Reg.RELAY_HROUTE.holds a ∨ Reg.GPIO_DOUT.holds a ∨
        Reg.GPIO_DIR.holds a ∨ Reg.PACER_GRPCFG.holds a ∨ Reg.HOSTEP_FSTATD.holds a ∨ Reg.SYSCTL_CELALLOC.holds a ∨ Reg.CLUSTER_SPARECTL.holds a
      let sizeError : State :=
        (s.record { bank := 0, unit := 0x01, code := 0x07, sev := .deferred, addr := some a, tag := some (k.tag r) }).emit .answer answerPort [a]
      let decodeError : State :=
        (s.record { bank := 0, unit := 0x00, code := 0x08, sev := .deferred, addr := some a, tag := some (k.tag r) }).emit .answer answerPort [a]
      (simple → a % 4 = 0 → s.allSw a = false → exec (.registerWrite (.core r) a v hw) s = .next (s.writeFields world a (if hw then s.collided a v else v))) ∧
      (∀ d f, regAt a = some d → f ∈ d.fields → d.fields.Pairwise (fun x y => x.hi < y.lo ∨ y.hi < x.lo) → f.lo ≤ f.hi → f.hi < 32 →
        fld (s.collided a v) f.hi f.lo = if f.acc = .rwh then s.rf a f.hi f.lo else fld v f.hi f.lo) ∧
      ((blockOf a).isSome = true → exec (.registerWrite .pf0 a v hw) s = .next
        ((s.record { bank := 0, unit := 0x00, code := 0x08, sev := .deferred, addr := some a, tag := some (s.tagOf .pf0) }).emit .answer 512 [a])) ∧
      ((blockOf a).isSome = true → a % 4 ≠ 0 → exec (.registerWrite (.core r) a v hw) s = .next sizeError) ∧
      ((blockOf a).isSome = true → size ≠ 4 ∨ a % 4 ≠ 0 → exec (.registerSizeError (.core r) a write size) s = .next sizeError) ∧
      (0x10000000 ≤ a → a < 0x20000000 → blockOf a = none → exec (.registerWrite (.core r) a v hw) s = .next decodeError ∧
        exec (.registerSizeError (.core r) a write size) s = .next decodeError ∧ exec (.unmappedAccess (k.tag r) a write) s = .next decodeError)) ∧
  (∀ (s : State) (r a : Nat) (v w : W32), r < numCores → (s.core r).lvl = 3 →
      a ∈ [Reg.AON_WAKEETC_LO.at, Reg.CSS_SCBASE_LO.at, Reg.DEBUG_DTR_LO.at 0, Reg.BOOT_RESUME_LO.at, Reg.TRACE_TRIGVAL_LO.at 0, Reg.MEMC_QDR_OPEN_GRD_LO.at] →
      (∃ t, exec (.nameLoRead (.core r) a) s = .next t ∧ t.out = s.out ++ [{ kind := .answer, port := r, data := [a, (s.readAs true a (s.reg a)).toNat] }] ∧
        (∀ u, u.core r = s.core r → u.latch = t.latch → ∃ x, exec (.nameHiRead (.core r) (a + 4)) u = .next x ∧
          x.out = u.out ++ [{ kind := .answer, port := r, data := [a + 4, (u.readAs true (a + 4) (s.reg (a + 4))).toNat] }])) ∧
      (∃ t, exec (.nameLoWrite (.core r) a v) s = .next t ∧ t.regs = s.regs ∧
        exec (.nameHiWrite (.core r) (a + 4) w) t = .next (s.setHeld (.core r) a none |>.commitPair true a v w)))

/-! ## Error records, fences and the Fatal sequence -/

/-- Error records (R56, R57, R62, R564). A new record takes the lowest free slot of its bank with its words and the ETC, no other slot changes,
and a Corrected record that matches a stored one only sets MULTI; without a free slot a Corrected or Deferred one is counted as overflow. Deferred and
Contained records interrupt the designated core by private source 8, or 9 for sealed-world records; Fatal ones make the Fatal sequence due; Corrected
ones count up to CE_THRESH.

Software's rows of error records (R62, R564) and partition fences (R52, R54): freeing a slot clears its VALID and keeps the others; a write of BANK_CTL sets
CE_THRESH and restarts the count; a fence bit is set or cleared alone, and a new fence then ends the partition's operations (R54, R297). PFENCE[0] is reserved, and only the sealed world reaches bit 63.

The Fatal sequence (R58, R334): when a Fatal error has made it due, ERROUT_N falls, the CSS stops and every adapter takes its safe output state; with none
due nothing happens. A unit whose own check fails records it first (R291, R432, R526). When the hold expires, FATALCTL.HALT stops the device for good;
otherwise a WARM reset follows. Where the manual is silent its clauses state the model's choices of log entries 7, 8, 40. -/
def Obligations.ErrorRecordsAndFatalSequence : Prop :=
  (∀ (s : State) (e : ErrRec), e.bank < 48 → e.unit < 256 → e.code < 256 → (∀ a, e.addr = some a → a < 2 ^ 44) →
      let t := s.record e
      let b := e.bank
      let st (i : Nat) := Reg.ERRREC_REC_STATUS.at b i
      let th := s.rf (Reg.ERRREC_BANK_CTL.at b) 7 0
      let seen := Sparse.get 0 s.ceCount b + 1
      let merges := e.sev = .corrected ∧ (s.mergeSlot e).isSome = true
      (∀ i, s.freeSlot b = some i → ¬ merges →
        (∀ j, j < i → s.slotValid b j = true) ∧ s.slotValid b i = false ∧ t.slotValid b i = true ∧
        (∀ j, j < 16 → j ≠ i → t.slotValid b j = s.slotValid b j) ∧
        t.rf (st i) 2 1 = e.sev.code ∧ t.rb (st i) 3 = e.fence ∧ t.rb (st i) 4 = e.poison ∧ t.rb (st i) 5 = false ∧ t.rf (st i) 15 8 = e.unit ∧
        t.rf (st i) 23 16 = e.code ∧ t.reg (Reg.ERRREC_REC_TAG.at b i) = tagWord e.tag ∧
        t.reg64 (Reg.ERRREC_REC_ADDR_LO.at b i) = (match e.addr with | some a => a + 2 ^ 63 | none => 0) ∧
        t.reg64 (Reg.ERRREC_REC_ETC_LO.at b i) = s.clk.etc.toNat ∧
        t.reg (Reg.ERRREC_REC_MISC.at b i 0) = BitVec.ofNat 32 e.misc0 ∧ t.reg (Reg.ERRREC_REC_MISC.at b i 1) = BitVec.ofNat 32 e.misc1 ∧
        t.reg (Reg.ERRREC_REC_MISC.at b i 2) = BitVec.ofNat 32 e.misc2 ∧ t.reg (Reg.ERRREC_REC_MISC.at b i 3) = BitVec.ofNat 32 e.misc3) ∧
      (merges → (∀ j, j < 16 → t.slotValid b j = s.slotValid b j) ∧ ∃ i, s.mergeSlot e = some i ∧ t.rb (st i) 5 = true) ∧
      (s.freeSlot b = none → ¬ merges → e.sev = .corrected ∨ e.sev = .deferred →
        t.rb (Reg.ERRREC_BANK_STATUS.at b) 8 = true ∧
        t.rf (Reg.ERRREC_BANK_OVFCNT.at b) 15 0 = min (2 ^ 16 - 1) (s.rf (Reg.ERRREC_BANK_OVFCNT.at b) 15 0 + 1) ∧
        ∀ j, j < 16 → t.reg (st j) = s.reg (st j)) ∧
      (e.sev = .deferred ∨ e.sev = .contained → ∀ d, s.designated e.toSealed = some d →
        t.rb (Reg.INTD_PSTAT.at d (if e.toSealed then 9 else 8)) 0 = true) ∧
      (e.sev = .fatal → t.fatalDue = true) ∧ (e.sev ≠ .fatal → t.fatalDue = s.fatalDue) ∧
      (e.sev = .corrected → Sparse.get 0 t.ceCount b = if th = 0 then Sparse.get 0 s.ceCount b else if th ≤ seen then 0 else seen) ∧
      t.mem = s.mem ∧ t.cores = s.cores) ∧
  (∀ (s : State) (r bank slot pid : Nat) (v : W32), r < numCores → bank < 48 → slot < 16 → pid < 64 →
      let k := s.core r
      let world := decide (k.lvl = 3)
      (bank ≠ 33 ∧ bank ≠ 36 ∨ world = true →
        (∃ t, exec (.recordSlotFree (.core r) bank slot) s = .next t ∧ t.slotValid bank slot = false ∧
          (∀ j, j < 16 → j ≠ slot → t.reg (Reg.ERRREC_REC_STATUS.at bank j) = s.reg (Reg.ERRREC_REC_STATUS.at bank j)) ∧
          t.rf (Reg.ERRREC_BANK_STATUS.at bank) 4 0 = ((List.range 16).filter (fun i => t.slotValid bank i)).length ∧ t.cores = s.cores ∧ t.mem = s.mem) ∧
        (∃ t, exec (.bankCtlWrite (.core r) bank v) s = .next t ∧ t.rf (Reg.ERRREC_BANK_CTL.at bank) 7 0 = fld v 7 0 ∧ Sparse.get 0 t.ceCount bank = 0 ∧
          (∀ a, a ≠ Reg.ERRREC_BANK_CTL.at bank → t.reg a = s.reg a) ∧ t.cores = s.cores ∧ t.mem = s.mem)) ∧
      ((bank = 33 ∨ bank = 36) → world = false → exec (.recordSlotFree (.core r) bank slot) s = .next s ∧ exec (.bankCtlWrite (.core r) bank v) s = .next s) ∧
      (1 ≤ pid → pid ≠ 63 ∨ world = true →
        (∃ t, t.fenced pid = true ∧ (∀ p, p < 64 → p ≠ pid → t.fenced p = s.fenced p) ∧ t.cores = s.cores ∧ t.mem = s.mem ∧ t.css = s.css ∧
          exec (.partitionFence (.core r) pid) s = .next (if s.fenced pid then t else t.fencePartition pid)) ∧
        (∃ t, exec (.partitionFenceRelease (.core r) pid) s = .next t ∧ t.fenced pid = false ∧ (∀ p, p < 64 → p ≠ pid → t.fenced p = s.fenced p) ∧
          t.cores = s.cores ∧ t.mem = s.mem ∧ t.css = s.css))) ∧
  (∀ (s : State),
      (s.fatalDue = false → exec (.fatalSequence none) s = .next s) ∧
      (exec (.fatalSequence (some .cssLogic)) s = exec (.fatalSequence none) (s.record { bank := 34, unit := 0x02, code := 0x05, sev := .fatal })) ∧
      (exec (.fatalSequence (some .intdLogic)) s = exec (.fatalSequence none) (s.record { bank := 44, unit := 0x02, code := 0x05, sev := .fatal })) ∧
      (exec (.fatalSequence (some .queueParity)) s = exec (.fatalSequence none) (s.record { bank := 47, unit := 0x04, code := 0x03, sev := .fatal })) ∧
      (s.fatalDue = true → ∃ t, exec (.fatalSequence none) s = .next t ∧ t.fatalDue = false ∧ t.errOut = true ∧ t.rb Reg.CSS_STAT.at 1 = true ∧
        t.rb Reg.CSS_STAT.at 0 = false ∧ { kind := .pin, port := 0, data := [0] } ∈ t.out ∧
        (∀ p, p < 0x4C → { kind := .safe, port := p, data := [] } ∈ t.out) ∧ t.cores = s.cores ∧ t.mem = s.mem) ∧
      (s.rb Reg.CSS_STAT.at 1 = true → s.rb Reg.ERRREC_FATALCTL.at 16 = true → s.stopped = false → exec .fatalHoldExpiry s = .next { s with stopped := true }) ∧
      (s.rb Reg.CSS_STAT.at 1 = true → s.rb Reg.ERRREC_FATALCTL.at 16 = false → s.stopped = false →
        exec .fatalHoldExpiry s = .next ({ s with boot := { s.boot with warm := some 3 } }).warmDue))

/-! ## Retry, sparing and core loss -/

/-- Instruction retry and the triggers of sparing (R159-R166): an error of a retried unit within the budget is recorded and counted in RETRYCNT, and the
core executes again from its committed state; past the budget, and for a request, the core's trigger is queued while SPARE_EN is 1 and the
reserve is available, and otherwise REJ is set. Checkpoint doublewords that cannot be read mean a core loss with REASON 3 (R163); an error of the predictor or of the
walk cache only drops its entry (R227); retries count toward PRO_THRESH for 1 ms of ETC.

Sparing and core loss (R167-R175), for the oldest trigger of a cluster and a core with an empty store buffer that waits for no Device load: sparing gives
the logical core the reserve slot with its registers, its program and memory kept and its caches' contents, TLB and reservation gone, retires the old slot, and counts
in SPARECNT; a reserve that fails its test or its two transfers, and a checkpoint that cannot be read, turn the trigger into a core loss with its REASON; core loss takes the core
offline. Where the manual is silent its clauses state the model's choices of log entries 7, 8, 18, 37. -/
def Obligations.RetryAndSparing : Prop :=
  (∀ (s : State) (r c unit code i lost : Nat) (inj : Option Nat) (late : Bool), r < numCores → s.working c = true → s.memc.marks = [] →
      detectedCode unit code = true → unit ∉ [0x05, 0x08, 0x2A] →
      let k := s.core c
      let n := c / 6
      let st := Reg.CLUSTER_SPARESTAT.at n
      let ctl := Reg.CLUSTER_SPARECTL.at n
      let budget := max 1 (s.rf ctl 10 8)
      let open_ := s.rb ctl 0 = true ∧ s.rf st 1 0 = 0
      let queued (t : State) (u w : Nat) (loss : Option Nat) (req : Bool) (lost : Nat) : Prop :=
        Sparse.get [] t.spare n = Sparse.get [] s.spare n ++ [{ core := c, unit := u, code := w, loss := loss, etc := s.clk.etc, req := req, lost := lost }] ∧
        t.capacity n = s.capacity n - 1 ∧
        t.rb st 31 = true ∧ t.mem = s.mem
      (k.retries < budget → ∃ t, exec (.instructionRetry c unit code none none false 0) s = .next t ∧
        (t.core c).retries = k.retries + 1 ∧ (t.core c).retryEtc.head? = some s.clk.etc ∧ (t.core c).pc = k.pc ∧ (t.core c).gs = k.gs ∧ (t.core c).fs = k.fs ∧ (t.core c).stat = k.stat ∧
        (t.core c).sbuf = k.sbuf ∧ t.rf (Reg.CLUSTER_RETRYCNT.at n (c % 6)) 31 0 = min (2 ^ 32 - 1) (s.rf (Reg.CLUSTER_RETRYCNT.at n (c % 6)) 31 0 + 1) ∧
        (∀ a, t.byte a = s.byte a) ∧
        ∀ b i, b < 48 → i < 16 → t.reg (Reg.ERRREC_REC_STATUS.at b i) =
          (s.record { bank := 1 + n, unit := unit, code := code, sev := .corrected, tag := some (k.tag c) }).reg (Reg.ERRREC_REC_STATUS.at b i)) ∧
      (budget ≤ k.retries →
        (open_ → ∃ t, exec (.instructionRetry c unit code none none false lost) s = .next t ∧ queued t unit code none false 0 ∧ t.rf st 1 0 = 1 ∧
          t.cores = s.cores) ∧
        (¬ open_ → ∃ t, exec (.instructionRetry c unit code none none false lost) s = .next t ∧
          queued t unit code (some (if s.rb ctl 0 then 0 else 4)) false 0 ∧ t.rb st 18 = true ∧ t.cores = s.cores)) ∧
      (k.retries < budget → lost % 2 ^ 120 ≠ 0 → ∃ t, exec (.instructionRetry c unit code none none false lost) s = .next t ∧
        queued t 0x22 0x02 (some 3) false (lost % 2 ^ 120) ∧ t.cores = s.cores) ∧
      (open_ → ∃ t, exec (.instructionRetry c 0x28 0x05 inj none true lost) s = .next t ∧ queued t 0x28 0x05 none false 0 ∧ t.cores = s.cores) ∧
      (exec (.instructionRetry c 0x2A 0x03 inj (some i) late lost) s = .next (s.setCore c { k with pred := k.pred.dropEntry i })) ∧
      (∃ t, exec (.instructionRetry c 0x08 0x03 inj (some i) late lost) s = .next t ∧ (t.core c).walks = dropAt i k.walks ∧ (t.core c).gs = k.gs ∧
        (t.core c).pc = k.pc ∧ t.mem = s.mem) ∧
      (∃ t, exec (.checkpointScrub c i .uncorrectable) s = .next t ∧ queued t 0x22 0x02 (some 3) false (2 ^ (i % 120)) ∧ t.cores = s.cores) ∧
      (exec (.checkpointScrub c i .corrected) s =
        .next (s.record { bank := 1 + n, unit := 0x22, code := 0x01, sev := .corrected, tag := some (k.tag c) })) ∧
      (let recent := (k.retryEtc.filter (fun x => decide (x ≤ s.clk.etc) && decide ((s.clk.etc - x).toNat ≤ 1000000))).length
       (s.rf ctl 23 16 ≠ 0 → 16 * s.rf ctl 23 16 ≤ recent → open_ → ∃ t, exec (.proactiveThreshold c) s = .next t ∧
         queued t (k.lastRetry % 256) (k.lastRetry / 256) none false 0 ∧ (t.core c).retryEtc = [] ∧ (t.core c).pc = k.pc) ∧
       (s.rf ctl 23 16 = 0 ∨ recent < 16 * s.rf ctl 23 16 → exec (.proactiveThreshold c) s = .next s)) ∧
      (open_ → ∃ t, exec (.sparereqGo (.core r) n (c % 6)) s = .next t ∧ queued t 0 0 none true 0 ∧ t.rb (Reg.CLUSTER_SPAREREQ.at n) 31 = true ∧ t.cores = s.cores) ∧
      (¬ open_ → ∃ t, exec (.sparereqGo (.core r) n (c % 6)) s = .next t ∧ t.rb st 18 = true ∧ t.rb (Reg.CLUSTER_SPAREREQ.at n) 31 =
        (Sparse.get [] s.spare n).any (fun x => x.req) ∧ t.spare = s.spare ∧ t.cores = s.cores)) ∧
  (∀ (s : State) (c : Nat) (trg : SpareTrig) (rest : List SpareTrig) (lost : Nat), c < numCores → s.online c = true →
      s.rb (Reg.DEBUG_CORECTL.at c) 30 = false →
      Sparse.get [] s.spare (c / 6) = trg :: rest → trg.core = c → (s.core c).sbuf = [] → (s.core c).inDeviceLoad = false →
      (s.core c).late.Pairwise (fun x y => x.fp = y.fp → x.rd ≠ y.rd) →
      let k := s.core c
      let n := c / 6
      let st := Reg.CLUSTER_SPARESTAT.at n
      let old := s.slotOf c
      let kept (t : State) : Prop := (∀ q, (t.core c).g q = k.g q) ∧ (∀ q, (t.core c).f q = k.f q) ∧ (t.core c).pc = k.pc ∧ (t.core c).stat = k.stat ∧
        (∀ l, (t.core c).spOf l = k.spOf l) ∧ (t.core c).lbeg = k.lbeg ∧ (t.core c).lend = k.lend ∧ (t.core c).lcnt = k.lcnt
      let cold (t : State) : Prop := (t.core c).tlb = [] ∧ (t.core c).iTlb = [] ∧ (t.core c).dTlb = [] ∧ (t.core c).walks = [] ∧
        (t.core c).resv = none ∧ (t.core c).pred = Predictor.empty ∧
        ∀ m, t.mem.copyAt m (.l1d c) = none ∧ t.mem.copyAt m (.l1i c) = none
      let ended (t : State) (flag : Nat) : Prop := Sparse.get [] t.spare n = rest ∧ t.rb st flag = true ∧ t.rf st 10 8 = c % 6 ∧ t.rb st 31 = !rest.isEmpty
      (trg.loss = none → ∃ t, exec (.sparing c true true true 0) s = .next t ∧ kept t ∧ cold t ∧ ended t 16 ∧ t.slotOf c = 6 ∧
        t.rb (Reg.CLUSTER_SLOTMAP.at n) (24 + old % 7) = true ∧ ((t.core c).srd 0x980).toNat = min 255 ((k.srd 0x980).toNat + 1) ∧ ∀ a, t.byte a = s.byte a) ∧
      (trg.loss = none → ∃ t, exec (.sparing c false true true lost) s = .next t ∧ kept t ∧ t.slotOf c = old ∧ t.rf st 1 0 = 2 ∧
        Sparse.get [] t.spare n = { trg with loss := some 1 } :: rest) ∧
      (trg.loss = none → lost ≠ 0 → ∃ t, exec (.sparing c true true true lost) s = .next t ∧ kept t ∧ t.slotOf c = old ∧ t.rf st 1 0 = 0 ∧
        Sparse.get [] t.spare n = { trg with loss := some 3, lost := trg.lost ||| lost } :: rest) ∧
      (trg.loss = none → ∃ t, exec (.sparing c true false false 0) s = .next t ∧ kept t ∧ t.slotOf c = old ∧ t.rf st 1 0 = 3 ∧
        Sparse.get [] t.spare n = { trg with loss := some 2 } :: rest) ∧
      (trg.loss.isSome = true → ∃ t, exec (.coreLoss c lost) s = .next t ∧ t.online c = false ∧ cold t ∧ ended t 17 ∧
        t.rb (Reg.CLUSTER_SLOTMAP.at n) (24 + old) = true ∧ ∀ d, d < numCores → d ≠ c → t.slotOf d = s.slotOf d) ∧
      (trg.loss = none → exec (.coreLoss c lost) s = .next s) ∧
      (let bytes := s.lossRecord trg old lost 0 0 true false
       let word (o : Nat) := leNat ((bytes.drop o).take 8)
       bytes.length = 1024 ∧ leNat (bytes.take 4) = 0x53534F4C ∧ leNat ((bytes.drop 60).take 4) = crc32c (bytes.drop 64) ∧
       (lost = 0 → word 0x40 = k.pc.toNat ∧ ∀ q, 1 ≤ q → q ≤ 30 → word (0x40 + 8 * q) = (Sparse.get 0 k.gs q).toNat) ∧
       ∀ i, i < 120 → lost / 2 ^ i % 2 = 1 → word (0x40 + 8 * i) = 0))

/-! ## Memory tiers, shared caches and wipes -/

/-- Memory controllers (R231, R235, R236, R238, R239, R241, R248, R566): QTIER and DTIER take a value that obeys its rule and keep the old one otherwise, and
every byte stays in its device, read at the address that the new map gives its place; a
broadcast gate is written in every controller of its tier as its own pair would be; training ends with TRAINED and READY, or with FAIL
and a record, Fatal once the image is applied; an invalid MODE sets FAIL; failed retraining and a response timeout are Fatal; an idle DRAM
channel powers down.

Shared caches and their scrubbing (R223, R226-R228, R242): a whole-L2 operation leaves what every byte reads as, no line of the L2 dirty and, with CLINV,
no copy; a fenced way holds no copy and every byte reads as before, and a core changes in nothing but a reservation lost to a line that leaves (R103); an error found by a
scrub is corrected, or, uncorrectable in a dirty line or in a tier's line, leaves it poisoned, or, in the tags, fences the cluster; SCRUBH = 0 turns the
patrol scrub off.

Fences and wipes (R52, R55, R197, R250-R255): a cluster fence takes every core of the cluster offline, retires no slot and poisons the lines that the cluster
holds dirty, and is only recorded where the cluster is fenced already; a bank without a spare is fenced and becomes unmapped, one with a spare is repaired; a wipe zeroes Cask, by the sealed world or by an armed
tamper event, which clears Kiln's keys too. Where the manual is silent its clauses state the model's choices of log entries 7, 8, 36. -/
def Obligations.MemoryTiers : Prop :=
  (∀ (s : State) (r k addr : Nat) (v lo hi : W32) (results : List W32) (tag : AccessTag), r < numCores →
      let world := decide ((s.core r).lvl = 3)
      let q := Reg.MEMC_QTIER.at
      let d := Reg.MEMC_DTIER.at
      let qOk := fld v 21 16 ≠ 0 ∧ (fld v 15 8 = 32 ∨ fld v 15 8 = 64 ∨ fld v 15 8 = 128)
      let channels := (List.range 16).countP (fun i => v.getLsbD (8 + i))
      let dOk := (channels = 4 ∨ channels = 8 ∨ channels = 16) ∧ 1 ≤ fld v 7 0 ∧ fld v 7 0 ≤ 32
      let train := ctrlBase k + 0x10
      let stat := ctrlBase k + 4
      let keepsQdr (t : State) : Prop := s.mem.wf = true → (∀ e ∈ s.mem.away, qtierAt (s.reg q) e.1 = none) → ∀ w w' p,
        qtierLoc (s.reg q) w = some p → qtierLoc (t.reg q) w' = some p → t.mem.cell (0x800000000 + w') = s.mem.cell (0x800000000 + w)
      let keepsDram (t : State) : Prop := s.mem.wf = true → dtierOk (s.reg d) = true → (∀ e ∈ s.mem.away, dtierAt (s.reg d) e.1 = none) → ∀ w w' p,
        dtierLoc (s.reg d) w = some p → dtierLoc (t.reg d) w' = some p → t.mem.cell (0x1000000000 + w') = s.mem.cell (0x1000000000 + w)
      (s.rb q 31 = false →
        (qOk → ∃ t, exec (.qtierWrite (.core r) v) s = .next t ∧ t.rf q 21 16 = fld v 21 16 ∧ t.rf q 15 8 = fld v 15 8 ∧ t.rb q 24 = bit v 24 ∧
          t.rb q 31 = bit v 31 ∧ (∀ a, a ≠ q → t.reg a = s.reg a) ∧ t.cores = s.cores ∧ keepsQdr t) ∧
        (¬ qOk → exec (.qtierWrite (.core r) v) s = .next s)) ∧
      (s.rb d 31 = false →
        (dOk → ∃ t, exec (.dtierWrite (.core r) v) s = .next t ∧ t.rf d 23 8 = fld v 23 8 ∧ t.rf d 7 0 = fld v 7 0 ∧ t.rb d 31 = bit v 31 ∧
          (∀ a, a ≠ d → t.reg a = s.reg a) ∧ t.cores = s.cores ∧ keepsDram t) ∧
        (¬ dOk → exec (.dtierWrite (.core r) v) s = .next s)) ∧
      (s.rb q 31 = true → ∃ t, exec (.qtierWrite (.core r) v) s = .next t ∧ ∀ a, t.reg a = s.reg a) ∧
      (s.rb d 31 = true → ∃ t, exec (.dtierWrite (.core r) v) s = .next t ∧ ∀ a, t.reg a = s.reg a) ∧
      (∀ x ∈ [(0x160F8000, 0x16008000, 6), (0x16208000, 0x16108000, 16)], ∀ i, i < 24 → ∃ t u,
        exec (.gateBroadcastWrite (.core r) (x.1 + 0x20 * i) lo) s = .next t ∧
        exec (.gateBroadcastWrite (.core r) (x.1 + 0x20 * i + 4) hi) t = .next u ∧
        (∀ n, n < x.2.2 → let a := x.2.1 + n * 0x10000 + 0x20 * i
          u.reg a = (s.commitPair world a lo hi).reg a ∧ u.reg (a + 4) = (s.commitPair world a lo hi).reg (a + 4)) ∧
        u.cores = s.cores ∧ u.mem = s.mem) ∧
      (k < 22 →
        (∃ t, exec (.trainFull k results true) s = .next t ∧ t.rb stat 0 = true ∧ t.rb stat 1 = true ∧ t.rb train 31 = false ∧ t.rf train 1 0 = 0 ∧
          (∀ i, i < 256 → t.reg (ctrlBase k + 0x400 + 4 * i) = results.getD i 0) ∧ t.cores = s.cores ∧ t.mem = s.mem) ∧
        (∃ t, exec (.trainLoad k true) s = .next t ∧ t.rb stat 0 = true ∧ t.rb stat 1 = true ∧ t.rb train 31 = false ∧ t.rf train 1 0 = 1 ∧
          (6 ≤ k → t.rb stat 2 = false) ∧ t.cores = s.cores ∧ t.mem = s.mem) ∧
        (∀ i ∈ [Instr.trainFull k results false, .trainLoad k false], ∃ t, exec i s = .next t ∧ t.rb train 29 = true ∧ t.rb train 31 = false ∧
          t.fatalDue = (s.fatalDue || s.memc.applied) ∧ (s.memc.applied = false → t.rb stat 0 = false) ∧ t.cores = s.cores ∧ t.mem = s.mem) ∧
        (∃ t, exec (.trainInvalidMode k) s = .next t ∧ t.rb train 29 = true ∧ t.rb train 31 = false ∧ ∀ a, a ≠ train → t.reg a = s.reg a)) ∧
      (k < 16 →
        (∃ t, exec (.periodicRetraining k true) s = .next t ∧ Sparse.get false t.memc.powerDown k = false ∧ t.regs = s.regs ∧ t.cores = s.cores) ∧
        exec (.periodicRetraining k false) s = .next (s.record { bank := 16 + k, unit := 0x03, code := 0x07, sev := .fatal }) ∧
        (s.rb d (8 + k) = true → ∃ t, exec (.powerDown k) s = .next t ∧ Sparse.get false t.memc.powerDown k = true ∧ t.regs = s.regs ∧ t.cores = s.cores) ∧
        (s.rb d (8 + k) = false → exec (.powerDown k) s = .next s)) ∧
      (∀ off, s.decode addr = .tier k off → exec (.responseTimeout k tag addr) s =
        .next ((s.record { bank := ctrlBank k, unit := 0x07, code := 0x06, sev := .fatal, addr := some addr, tag := some tag, misc0 := s.localAddr k off }).cssTimeout
          tag addr))) ∧
  (∀ (s : State) (r n line k off way set : Nat), r < numCores → n < 8 → way < 16 →
      s.canonical = true → s.memc.marks = [] → (∀ i, i < 4 → s.rb (Reg.DEBUG_BINJ_CTL.at i) 31 = false) →
      let l := s.mem.line line
      let held := (s.mem.copyAt line (.l2 n)).isSome = true
      let found (unit code : Nat) : ErrRec := { bank := 1 + n, unit := unit, code := code, sev := .corrected, addr := some (line * 64) }
      let bare (x : Core) : Core := { x with resv := none, hold := none, overlaid := [] }
      let dirtyHere := l.dirty.isSome = true ∧ l.owner = some n
      (∃ t, exec (.l2opClean (.core r) n) s = .next t ∧ (∀ a, t.byte a = s.byte a) ∧ t.regs = s.regs ∧ t.cores = s.cores ∧
        ∀ m, (t.mem.copyAt m (.l2 n)).isSome = true → (t.mem.line m).isDirty = false) ∧
      (∃ t, exec (.l2opClinv (.core r) n) s = .next t ∧ (∀ a, t.byte a = s.byte a) ∧ t.regs = s.regs ∧ (∀ d, bare (t.core d) = bare (s.core d)) ∧
        ∀ m, t.mem.copyAt m (.l2 n) = none) ∧
      (held → exec (.cacheScrub (.l2 n) .data line .corrected) s = .next (s.record (found 0x10 0x01)) ∧
        exec (.cacheScrub (.l2 n) .tags line .corrected) s = .next (s.record (found 0x11 0x01)) ∧
        exec (.cacheScrub (.l2 n) .copyTags line .corrected) s = .next (s.record (found 0x12 0x01))) ∧
      (held → ¬ dirtyHere → exec (.cacheScrub (.l2 n) .data line .uncorrectable) s = .next (s.record (found 0x10 0x02))) ∧
      (held → dirtyHere → l.l1 = none → ∃ t, exec (.cacheScrub (.l2 n) .data line .uncorrectable) s = .next t ∧ t.mem.poisonAt (line * 64) = true ∧
        (∀ a, t.byte a = s.byte a) ∧ t.cores = s.cores) ∧
      (held → ∀ p ∈ [(ArrayPart.tags, 0x11), (.copyTags, 0x12)], exec (.cacheScrub (.l2 n) p.1 line .uncorrectable) s =
        .next (s.fenceCluster n { found p.2 0x02 with sev := .contained, fence := true })) ∧
      (¬ held → ∀ part ecc, exec (.cacheScrub (.l2 n) part line ecc) s = .next s) ∧
      (s.wayFenced (.l2 n) way = false → ∃ t, exec (.wayFence (.l2 n) way set) s = .next t ∧ t.wayFenced (.l2 n) way = true ∧
        (∀ a, t.byte a = s.byte a) ∧ (∀ m x, x ∈ (t.mem.line m).copies → x.place = .l2 n → x.way ≠ way) ∧ ∀ d, bare (t.core d) = bare (s.core d)) ∧
      (s.wayFenced (.l2 n) way = true → exec (.wayFence (.l2 n) way set) s =
        .next (s.record { bank := 1 + n, unit := 0x13, code := 0x0C, sev := .contained, fence := true })) ∧
      (k < 22 → s.rf (ctrlBase k) 15 8 = 0 → ∀ ecc, exec (.patrolScrub k line ecc) s = .next s) ∧
      (k < 22 → s.rf (ctrlBase k) 15 8 ≠ 0 → s.decode (line * 64) = .tier k off →
        (∃ t, exec (.patrolScrub k line .corrected) s = .next t ∧ t.mem = s.mem ∧ t.cores = s.cores ∧
          t.rf (ctrlBase k + 0xC) 31 0 = min (2 ^ 32 - 1) (s.rf (ctrlBase k + 0xC) 31 0 + 1)) ∧
        (∃ t, exec (.patrolScrub k line .uncorrectable) s = .next t ∧ t.mem.tierPoison line = true ∧ (∀ a, t.byte a = s.byte a) ∧ t.cores = s.cores)) ∧
      (∀ cask, s.decode (line * 64) = .tier (if cask then 23 else 22) off →
        (∃ t, exec (.sramScrub cask line .corrected) s = .next t ∧ t.mem = s.mem ∧ t.cores = s.cores ∧
          t.rf (ctrlBase (if cask then 23 else 22) + 0xC) 31 0 = min (2 ^ 32 - 1) (s.rf (ctrlBase (if cask then 23 else 22) + 0xC) 31 0 + 1)) ∧
        (∃ t, exec (.sramScrub cask line .uncorrectable) s = .next t ∧ t.mem.tierPoison line = true ∧ (∀ a, t.byte a = s.byte a) ∧ t.cores = s.cores))) ∧
  (∀ (s : State) (r n c unit code bank column line cause : Nat) (inj : Option Nat) (cask : Bool), r < numCores → n < 8 → c < numCores →
      let caskZero (t : State) : Prop := ∀ a, 0x1000000 ≤ a → a < 0x1200000 → t.mem.cell a = 0 ∧ t.mem.tierPoison (a / 64) = false
      let wipe := Reg.MEMC_CASK_WIPE.at
      let stat := bankStat cask bank
      let base := (if cask then 0x1000000 else 0x2000000) + bank * 2 ^ 19
      let banks := if cask then 4 else 32
      let e : ErrRec := { bank := 1 + n, unit := unit % 256, code := code, sev := .contained, fence := true }
      (1 ≤ code → code ≤ 0x0E → nfld s.memc.fencedClusters n n = 1 → exec (.clusterFence n unit code inj) s =
        .next (s.record (match inj with | some i => e.injected i | none => e))) ∧
      (c / 6 = n → 1 ≤ code → code ≤ 0x0E → nfld s.memc.fencedClusters n n = 0 → (∀ x, x < numCores → s.lossAddr x = none ∧ s.sealedLossAddr x = none) → ∃ t, exec (.clusterFence n unit code inj) s = .next t ∧
        t.online c = false ∧ t.memc.fencedClusters = s.memc.fencedClusters ||| 2 ^ n ∧
        t.rf (Reg.CLUSTER_SLOTMAP.at n) 30 24 = s.rf (Reg.CLUSTER_SLOTMAP.at n) 30 24 ∧ Sparse.get [] t.spare n = [] ∧
        ((s.mem.line line).mergeL1.dirty.isSome = true → (s.mem.line line).mergeL1.owner = some n → t.mem.poisonAt (line * 64) = true) ∧ ∀ m, t.mem.copyAt m (.l2 n) = none) ∧
      (bank < banks → s.rb stat 31 = false →
        (∃ t, exec (.sramBankFence cask bank) s = .next t ∧ t.rb stat 31 = true ∧ (∀ a, base ≤ a → a < base + 2 ^ 19 → t.decode a = .unmapped) ∧
          t.cores = s.cores) ∧
        (s.rf stat 11 8 + s.rf stat 3 0 < s.rf stat 15 12 → ∃ t, exec (.softRepair cask bank column [line]) s = .next t ∧
          t.rf stat 11 8 = s.rf stat 11 8 + 1 ∧ (base / 64 ≤ line → line < base / 64 + 8192 → t.mem.tierPoison line = true) ∧
          (∀ a, t.byte a = s.byte a) ∧ t.cores = s.cores) ∧
        (s.rf stat 15 12 ≤ s.rf stat 11 8 + s.rf stat 3 0 → exec (.softRepair cask bank column [line]) s = exec (.sramBankFence cask bank) s)) ∧
      ((s.core r).lvl = 3 → ∃ t, exec (.wipe (.core r)) s = .next t ∧ caskZero t ∧ t.rb wipe 1 = true ∧ t.rf wipe 7 4 = 5 ∧ t.cores = s.cores ∧
        ∀ a, (a < 0x1000000 ∨ 0x1200000 ≤ a) → t.mem.cell a = s.mem.cell a) ∧
      ((s.core r).lvl ≠ 3 → ∃ t, exec (.wipe (.core r)) s = .next t ∧ t.mem = s.mem) ∧
      (1 ≤ cause → cause ≤ 3 → s.clk.power = .run → s.tamperArmed = true → ∃ t, exec (.tamperEvent cause) s = .next t ∧ caskZero t ∧ t.rf wipe 7 4 = cause ∧
        (∀ x, x < 64 → t.keyValid x = false ∧ t.keyValue x = []) ∧ t.cores = s.cores) ∧
      (s.tamperArmed = false → exec (.tamperEvent cause) s = .next s))

/-! ## Channel subsystem and ledger -/

/-- The subchannel operations of CSS.CMD (R261-R263, R286, R287, R290), with no operation in flight but the one named: their RESULT, with GO 0 again where they
have completed. SC_ENABLE takes the record with GEN moved on; a migration takes another ONLINE path with a new GEN, or waits for the report of
a step handed off; SC_ABORT ends what is not handed off and asks for the withdrawal of what is; an unassigned OP answers 7.

Channel programs (R273, R275, R283, R286, R289): the step of an ACTIVE subchannel's one operation. NOP, a WAIT whose time has come and a BRANCH not taken go on
or end the program with status 0x00; a BRANCH taken reads the CCD that it names; a device step is handed to the ONLINE path with its data; a step handed off
times out with a new GEN and, where it may not be repeated, status 0x40; a NOPATH timeout ends what is held with 0x1E. Where the manual is silent its clauses state the model's choices of log entries 7, 21, 22. -/
def Obligations.SubchannelsAndChannelPrograms : Prop :=
  (∀ (s : State) (r n : Nat) (t : BitVec 12) (i : BitVec 2) (op : BitVec 4) (o : Op), r < numCores → s.rb Reg.CSS_CMD.at 31 = false →
      (∀ e ∈ s.css.subs, e.2.lost = false) → s.admits cssTag true (s.subRecord t.toNat + 0x20) = (s, none) → s.subRecord t.toNat < 2 ^ 40 →
      let c := s.sub t.toNat
      let world := decide ((s.core r).lvl = 3)
      let mine := c.world = false ∨ world = true
      let a := s.subRecord t.toNat
      let word (ofs len : Nat) := leNat (((s.bytes a 64).drop ofs).take len)
      let done (u : State) (res : Nat) : Prop := u.rb Reg.CSS_CMD.at 31 = false ∧ u.rf Reg.CSS_CMD.at 30 28 = res
      let waits (u : State) : Prop := u.rb Reg.CSS_CMD.at 31 = true
      let fresh : SubCh :=
        { st := .idle, cfg := word 0 4, paths := word 4 4, auth := word 8 8, devaddr := word 0x10 8, timeout := word 0x18 4, idx := 0,
          gen := (word 0x24 2 + 1) % 65536, done := word 0x28 4, ended := word 0x2C 4, queue := [], drain := none, lost := false }
      let quiet := s.css.ops = [] ∧ s.css.faults = []
      let one := s.css.ops = [(n, some o)] ∧ s.css.log = [] ∧ c.queue = [n] ∧ (s.slot n).subch = t.toNat ∧ o.ocause = 0
      (quiet → c.st = .disabled → s.admits cssTag false a = (s, none) → s.mem.poisonAt a = false →
        (word 0 4 / 2 % 2 = 0 ∨ world = true → subRecordBad (s.bytes a 64) = false → ∃ u, exec (.scEnable (.core r) t) s = .next u ∧ done u 0 ∧
          u.sub t.toNat = fresh) ∧
        (word 0 4 / 2 % 2 = 1 → world = false → ∃ u, exec (.scEnable (.core r) t) s = .next u ∧ done u 5 ∧ u.sub t.toNat = c) ∧
        (word 0 4 / 2 % 2 = 0 → subRecordBad (s.bytes a 64) = true → ∃ u, exec (.scEnable (.core r) t) s = .next u ∧ done u 2 ∧ u.sub t.toNat = c)) ∧
      (quiet → c.st ≠ .disabled → mine → ∃ u, exec (.scEnable (.core r) t) s = .next u ∧ done u 1 ∧ u.sub t.toNat = c) ∧
      (quiet → c.st ≠ .disabled → ¬ mine → ∀ x ∈ [Instr.scEnable (.core r) t, .scDisable (.core r) t, .scMigrateDrain (.core r) t i, .scMigrateForce (.core r) t i,
        .scAbort (.core r) t], ∃ u, exec x s = .next u ∧ done u 5 ∧ u.sub t.toNat = c) ∧
      (quiet → c.st = .idle → mine → ∃ u, exec (.scDisable (.core r) t) s = .next u ∧ done u 0 ∧ u.sub t.toNat = { c with st := .disabled }) ∧
      (quiet → c.st = .active ∨ c.st = .migrating ∨ c.st = .aborting → mine → ∃ u, exec (.scDisable (.core r) t) s = .next u ∧ done u 1 ∧ u.sub t.toNat = c) ∧
      (quiet → c.st = .idle → c.queue = [] → mine → ∀ x ∈ [Instr.scMigrateDrain (.core r) t i, .scMigrateForce (.core r) t i],
        (s.pathUp (c.pathAt i.toNat) = true → ∃ u, exec x s = .next u ∧ done u 0 ∧
          u.sub t.toNat = { c with idx := i.toNat, gen := (c.gen + 1) % 65536, drain := none }) ∧
        (s.pathUp (c.pathAt i.toNat) = false → ∃ u, exec x s = .next u ∧ done u 2 ∧ u.sub t.toNat = c)) ∧
      (one → c.st = .active → o.phase = .handed → mine → s.pathUp (c.pathAt i.toNat) = true → ∃ u, exec (.scMigrateDrain (.core r) t i) s = .next u ∧ waits u ∧
        u.sub t.toNat = { c with st := .migrating, drain := some (i.toNat, true) } ∧ u.op? n = some o) ∧
      (one → c.st = .active → o.phase = .handed → mine → ∃ u, exec (.scAbort (.core r) t) s = .next u ∧ waits u ∧
        u.sub t.toNat = { c with st := .aborting } ∧ u.op? n = some { o with abort := true }) ∧
      (one → c.st = .active → o.phase = .ready → mine → ∃ u, exec (.scAbort (.core r) t) s = .next u ∧ done u 0 ∧ u.ended n 0x1D ∧
        (u.sub t.toNat).queue = [] ∧ (u.sub t.toNat).st = if s.anyPath c then .idle else .nopath) ∧
      (quiet → op.toNat ∉ [1, 2, 3, 4, 5, 8, 9, 10] → ∃ u, exec (.badop (.core r) op t) s = .next u ∧ done u 7 ∧ u.css = s.css)) ∧
  (∀ (s : State) (sc n : Nat) (o : Op) (c : Ccd), s.css.ops = [(n, some o)] → s.css.log = [] → s.css.faults = [] →
      (∀ e ∈ s.css.subs, e.2.lost = false) → (s.sub sc).queue = [n] → (s.slot n).subch = sc → (s.slot n).mirrored = false → s.cssStopped = false → o.chain = [c] → c.join = false → c.mark = false →
      o.ocause = 0 → o.got = [] → o.abort = false → s.admits cssTag true (s.subRecord sc + 0x20) = (s, none) → s.subRecord sc < 2 ^ 40 →
      let d := s.sub sc
      let p := d.path
      let etc := s.clk.etc.toNat
      let readable (a len : Nat) : Prop := a < 2 ^ 40 ∧ a % 4096 + len ≤ 4096 ∧ s.admits (s.opTag n) false a = (s, none) ∧
        (∀ x, a / 64 ≤ x → x * 64 < a + len → s.mem.poisonAt (x * 64) = false) ∧ s.isHost a = false
      let goesTo (u : State) (a : Nat) : Prop := ∃ o', u.op? n = some o' ∧ o'.at_ = a ∧ o'.chain = [Ccd.ofBytes (s.bytes a 32)] ∧ o'.phase = .ready ∧
        o'.nread = o.nread + 1
      let ccdOk (a : Nat) : Prop := readable a 32 ∧ ccdBad a (Ccd.ofBytes (s.bytes a 32)) [] o.last o.nread false = false ∧
        nfld d.cfg (8 + (Ccd.ofBytes (s.bytes a 32)).cmd) (8 + (Ccd.ofBytes (s.bytes a 32)).cmd) = 1
      let passes (x : Instr) : Prop := (c.next = false → ∃ u, exec x s = .next u ∧ u.ended n 0x00) ∧
        (c.next = true → ccdOk (o.at_ + 32) → ∃ u, exec x s = .next u ∧ goesTo u (o.at_ + 32))
      let handed (x : Instr) (data : List Byte) : Prop := ∃ u, exec x s = .next u ∧ (∃ o', u.op? n = some o' ∧ o'.phase = .handed ∧ o'.path = p) ∧
        (u.slot n).st = 3 ∧ (u.slot n).handoff = true ∧
        (u.adapter p).steps = (s.adapter p).steps ++
          [{ slot := n, gen := d.gen, sub := sc, cmd := c.cmd, param := c.param, arg := c.arg, count := c.len o.last, data := data }] ∧
        u.rf (Reg.ADPT_PATHSTAT.at p) 31 16 = (s.rf (Reg.ADPT_PATHSTAT.at p) 31 16 + 1) % 65536
      let device (x : Instr) (cmd : Nat) (data : List Byte) : Prop := c.cmd = cmd → p < 0x4C → s.pathUp p = true → s.pathRoom p cmd = true →
        (s.pathAuth p (s.slot n) = true → handed x data) ∧ (s.pathAuth p (s.slot n) = false → ∃ u, exec x s = .next u ∧ u.ended n 0x10)
      (d.st = .active → o.phase = .ready →
        (c.cmd = 0 → passes (.ccdNop sc)) ∧
        (c.cmd = 1 → (c.param = 1 ∧ o.resid = 0) ∨ (c.param = 2 ∧ o.resid ≠ 0) → passes (.branch sc)) ∧
        (c.cmd = 1 → c.param = 0 ∨ (c.param = 1 ∧ o.resid ≠ 0) ∨ (c.param = 2 ∧ o.resid = 0) → ccdOk c.arg → ∃ u, exec (.branch sc) s = .next u ∧
          goesTo u c.arg) ∧
        (c.cmd = 2 → (if c.param = 0 then c.arg else etc + c.arg) ≤ etc → passes (.ccdWait sc)) ∧
        (c.cmd = 2 → etc < (if c.param = 0 then c.arg else etc + c.arg) → ∃ u, exec (.ccdWait sc) s = .next u ∧
          (∃ o', u.op? n = some o' ∧ o'.phase = .wait (if c.param = 0 then c.arg else etc + c.arg))) ∧
        device (.ccdRead sc) 8 [] ∧ device (.sense sc) 11 [] ∧
        (readable c.addr (c.len o.last) → device (.ccdWrite sc) 9 (s.bytes c.addr (c.len o.last)) ∧ device (.control sc) 10 (s.bytes c.addr (c.len o.last))) ∧
        (c.cmd = 8 → d.idx < 4 → s.anyPath d = false → ∃ u, exec (.ccdRead sc) s = .next u ∧ (u.sub sc).st = .nopath ∧ (∃ o', u.op? n = some o'))) ∧
      (∀ t, o.phase = .wait t → (t ≤ etc → passes (.waitExpiry sc)) ∧ (etc < t → exec (.waitExpiry sc) s = .next s)) ∧
      (o.phase = .handed → d.st = .active → c.idemp = false → ∃ u, exec (.stepTimeout sc) s = .next u ∧ u.ended n 0x40 ∧ (u.sub sc).gen = (d.gen + 1) % 65536) ∧
      (o.phase = .ready → exec (.stepTimeout sc) s = .next s) ∧
      (o.phase = .ready → d.st = .nopath → ∃ u, exec (.nopathTimeout sc) s = .next u ∧ u.ended n 0x1E) ∧
      (d.st ≠ .nopath → exec (.nopathTimeout sc) s = .next s))

/-- Ring pairs (R263-R271, R295): RP_ENABLE takes the context record with every counter zero; RP_DISABLE and RP_FLUSH close a pair without operations; SQ_TAIL
moves within the ring and anything else fences the pair (a host pair's only while its function's BARs are open, R401); CQ_HEAD moves up to CQ_TAIL and makes the slots whose records it passes REPORTED, and
FREE where nothing is outstanding; the coalescing timeout raises the pair's interrupt.

An SQ entry (R269, R280, R295): the ring pair whose turn it is gives one to a FREE slot, which is POSTED; one that passes the checks is ACCEPTED into the
queue of its subchannel, and one for a DISABLED subchannel ends with status 0x11.

Paths, the enable and the log (R258, R287, R300-R305, R312): a fence takes an ONLINE or RECOVERING path to FENCED with its CAUSE and its subchannel to
another path or to NOPATH, and a corrected fault only writes its record; EN takes a DISABLED path to RECOVERING, whose link makes it ONLINE and takes up a NOPATH subchannel; EN of the CSS formats the
ledger; software's log registers; a scrubbed slot is rewritten from the internal copy. Where the manual is silent its clauses state the model's choices of log entries 7, 20, 21. -/
def Obligations.RingPairsAndSqEntries : Prop :=
  (∀ (s : State) (r n : Nat) (t : BitVec 12) (v : W32) (l : Slot), r < numCores → t.toNat < 0x600 → s.css.ops = [] → s.css.faults = [] →
      (∀ e ∈ s.css.subs, e.2.lost = false) →
      let q := t.toNat
      let k := s.ring q
      let world := decide ((s.core r).lvl = 3)
      let a := s.ringRecord q
      let word (ofs len : Nat) := leNat (((s.bytes a 64).drop ofs).take len)
      let done (u : State) (res : Nat) : Prop := u.rb Reg.CSS_CMD.at 31 = false ∧ u.rf Reg.CSS_CMD.at 30 28 = res
      let fresh : RingPair :=
        { RingPair.empty with
          enabled := true, cfg := word 0 4, intr := word 4 4, sqBase := word 8 8, cqBase := word 0x10 8, markskip := word 0x18 4, reserved := k.reserved }
      let p := fld v 15 0
      let mayWrite := q < 0x400 → s.rb Reg.HOSTEP_LINKSTAT.at 0 = true ∧ s.barOpen (q / 4) = true
      (s.rb Reg.CSS_CMD.at 31 = false →
        (k.enabled = false → s.admits cssTag false a = (s, none) → a < 2 ^ 40 → s.mem.poisonAt a = false → word 0 4 / 2 % 2 = 0 ∨ world = true →
          (ringRecordBad (s.bytes a 64) = false → ∃ u, exec (.rpEnable (.core r) t) s = .next u ∧ done u 0 ∧
            u.ring q = fresh) ∧
          (ringRecordBad (s.bytes a 64) = true → ∃ u, exec (.rpEnable (.core r) t) s = .next u ∧ done u 2 ∧ u.ring q = k)) ∧
        (k.enabled = true → k.world = false ∨ world = true → k.closing = 0 → s.ringInFlight q = 0 → k.held = [] →
          ∀ x ∈ [Instr.rpDisable (.core r) t, .rpFlush (.core r) t], ∃ u, exec x s = .next u ∧ done u 0 ∧ u.ring q = { k with enabled := false }) ∧
        (k.enabled = false → ∀ x ∈ [Instr.rpDisable (.core r) t, .rpFlush (.core r) t], ∃ u, exec x s = .next u ∧ done u 1 ∧ u.ring q = k)) ∧
      (q < 0x500 → mayWrite → k.enabled = true →
        let used := (k.sqTail + 65536 - k.sqHead) % 65536
        let want := (p + 65536 - k.sqHead) % 65536
        (used ≤ want → want ≤ k.sqSize → ∃ u, exec (.sqTailWrite (.core r) q v) s = .next u ∧ u.ring q = { k with sqTail := p } ∧
          (∀ x, x ≠ q → u.ring x = s.ring x) ∧ u.regs = s.regs ∧ u.cores = s.cores ∧ u.mem = s.mem) ∧
        (want < used ∨ k.sqSize < want → k.fenced = false → ∃ u, exec (.sqTailWrite (.core r) q v) s = .next u ∧ (u.ring q).fenced = true ∧
          (u.ring q).sqTail = k.sqTail) ∧
        ((k.cqTail + 65536 - k.cqHead) % 65536 < (k.cqTail + 65536 - p) % 65536 → k.fenced = false → ∃ u, exec (.cqHeadWrite (.core r) q v) s = .next u ∧
          (u.ring q).fenced = true ∧ (u.ring q).cqHead = k.cqHead) ∧
        ((k.cqTail + 65536 - p) % 65536 ≤ (k.cqTail + 65536 - k.cqHead) % 65536 → s.css.slots = [(n, l)] → l.st = 4 → l.ring = q → l.orphan = false →
          l.mirrored = false → (∀ h ∈ k.held, h.slot ≠ n) → ∃ u, exec (.cqHeadWrite (.core r) q v) s = .next u ∧ (u.ring q).cqHead = p ∧
            (u.slot n).st = if (l.pos + 65536 - k.cqHead) % 65536 < (p + 65536 - k.cqHead) % 65536 then (if l.fwd then 5 else 0) else 4)) ∧
      (q < 0x500 → mayWrite → k.enabled = false → exec (.sqTailWrite (.core r) q v) s = .next s ∧ exec (.cqHeadWrite (.core r) q v) s = .next s) ∧
      (q < 0x400 → s.rb Reg.HOSTEP_LINKSTAT.at 0 = true → s.barOpen (q / 4) = false →
        (∃ u, exec (.sqTailWrite (.core r) q v) s = .next u ∧ u.css = s.css) ∧ ∃ u, exec (.cqHeadWrite (.core r) q v) s = .next u ∧ u.css = s.css) ∧
      (k.since = 0 → exec (.coalescingTimeout q) s = .next s) ∧
      (k.since ≠ 0 → 0x400 ≤ q → q < 0x500 → nfld k.intr 15 15 = 1 → ∃ u, exec (.coalescingTimeout q) s = .next u ∧ (u.ring q).since = 0 ∧
        u.rb (Reg.INTD_SSTAT.at (nfld k.intr 9 0)) 0 = true ∧ u.cores = s.cores ∧ u.mem = s.mem)) ∧
  (∀ (s : State) (q n : Nat), s.cssRuns = true → s.nextRing = some q → q < 0x500 → s.freeLedgerSlot = some n → s.css.ops = [] → s.css.log = [] →
      (∀ e ∈ s.css.subs, e.2.lost = false) →
      let k := s.ring q
      let a := k.sqBase + k.sqHead % k.sqSize * 8
      let sqe := s.number a 8
      let t := sqe % 4096
      let c := s.sub t
      let ccdAt := nfld sqe 62 24 * 32
      let ccd := Ccd.ofBytes (s.bytes ccdAt 32)
      k.got = none → a < 2 ^ 40 → s.admits k.tag false a = (s, none) → s.mem.poisonAt a = false → a % 64 ≤ 56 →
      (c.st = .disabled → s.fenced k.pid = false → ∃ u, exec .sqEntryRead s = .next u ∧ u.ended n 0x11 ∧ (u.ring q).sqHead = (k.sqHead + 1) % 65536) ∧
      (c.st = .idle ∨ c.st = .active → s.fenced k.pid = false → c.world = k.world → (c.world = true ∨ nfld c.auth k.pid k.pid = 1) →
        c.queue.length ≤ nfld c.cfg 6 4 → sqe < 2 ^ 63 → ccdAt < 2 ^ 40 → (ccdAt + 32 ≤ s.css.base ∨ s.css.base + 0x80000 ≤ ccdAt) →
        s.admits { world := k.world, pid := k.pid, cls := 1, src := c.path } false ccdAt = (s, none) → s.mem.poisonAt ccdAt = false →
        s.canonical = true → s.admits cssTag true (s.subRecord t + 0x20) = (s, none) → s.subRecord t < 2 ^ 40 →
        ccdBad ccdAt ccd [] none 0 false = false → nfld c.cfg (8 + ccd.cmd) (8 + ccd.cmd) = 1 →
        ∃ u, exec .sqEntryRead s = .next u ∧ (u.ring q).sqHead = (k.sqHead + 1) % 65536 ∧ (u.slot n).st = 2 ∧ (u.slot n).subch = t ∧ (u.slot n).ring = q ∧
          (u.slot n).pid = k.pid ∧ (u.slot n).sqe = sqe ∧ u.op? n = some { Op.start ccdAt with chain := [ccd], nread := 1, phase := .ready } ∧
          (u.sub t).queue = c.queue ++ [n] ∧ (u.sub t).st = .active)) ∧
  (∀ (s : State) (r p sc n : Nat) (c : SubCh) (why : PathFault) (v : W32), r < numCores → p < 0x60 → s.css.ops = [] → s.css.log = [] → s.css.faults = [] →
      s.css.subs = [(sc, c)] → c.lost = false → c.queue = [] → c.drain = none → c.idx < 4 → (∀ k, k < 4 → k ≠ c.idx → c.pathAt k ≠ p) →
      s.admits cssTag true (s.subRecord sc + 0x20) = (s, none) → s.subRecord sc < 2 ^ 40 →
      let stat := Reg.ADPT_PATHSTAT.at p
      let ctl := Reg.ADPT_PATHCTL.at p
      let state := s.rf stat 1 0
      let css := Reg.CSS_CTL.at
      let fenced (u : State) (cause : Nat) : Prop := u.rf stat 1 0 = 2 ∧ u.rf stat 15 8 = cause ∧ u.rb ctl 8 = true ∧
        (c.st = .idle → c.path = p → match s.nextPath c c.idx with
          | some k => u.sub sc = { c with idx := k, gen := (c.gen + 1) % 65536 }
          | none => u.sub sc = { c with st := .nopath }) ∧
        (c.path ≠ p → u.sub sc = c)
      (why = .corrected → p < 0x4C → exec (.pathFence p why) s = .next (s.record
        { bank := 34, unit := 0x41, code := 0x01, sev := .corrected, tag := some { world := false, pid := 0, cls := 1, src := p } })) ∧
      (state = 1 ∨ state = 3 → (why ≠ .corrected → ∃ u, exec (.pathFence p why) s = .next u ∧
          fenced u (match why with | .buffer | .logic => 2 | .link => 3 | .protocol => 4 | .corrected => 0)) ∧
        (state = 1 ∨ s.rb ctl 0 = true → ∃ u, exec (.pathctlFence (.core r) p) s = .next u ∧ fenced u 1)) ∧
      (state = 0 → ∃ u, exec (.pathctlEn (.core r) p true) s = .next u ∧ u.rf stat 1 0 = 3 ∧ u.rb ctl 0 = true) ∧
      (state ≠ 1 → s.rf stat 31 16 = 0 → ∃ u, exec (.pathctlEn (.core r) p false) s = .next u ∧ u.rf stat 1 0 = 0 ∧ u.rb ctl 0 = false ∧ u.rb ctl 8 = false) ∧
      (state = 1 → exec (.pathctlEn (.core r) p false) s = .next s) ∧
      (state = 3 → p < 0x4C → (isSd p = true → s.sdReady p = true) → ∃ u, exec (.pathOnline p) s = .next u ∧ u.rf stat 1 0 = 1 ∧
        (c.st = .nopath → c.path = p → u.sub sc = { c with st := .idle, gen := (c.gen + 1) % 65536 }) ∧ (c.st ≠ .nopath → u.sub sc = c)) ∧
      (state ≠ 3 → exec (.pathOnline p) s = .next s) ∧
      (s.css.fresh = true → s.rb css 0 = false → s.lbaseOk = true → s.rf Reg.CSS_LCTL.at 17 16 = 0 → ∃ u, exec (.cssEnable (.core r)) s = .next u ∧ u.rb css 0 = true ∧
        u.rb Reg.CSS_STAT.at 0 = !s.cssStopped ∧ u.css.base = s.lbase ∧ u.css.slots = [] ∧ u.rf (Reg.CSS_LCNT.at 0) 13 0 = 8192 ∧
        (∀ k, 1 ≤ k → k ≤ 5 → u.rf (Reg.CSS_LCNT.at k) 13 0 = 0) ∧ u.css.fresh = false) ∧
      (s.lbaseOk = false → ∃ u, exec (.cssEnable (.core r)) s = .next u ∧ u.rb css 0 = s.rb css 0 ∧ u.rb Reg.CSS_LSTAT.at 30 = true ∧ u.css = s.css) ∧
      (∃ u, exec (.cssDisable (.core r)) s = .next u ∧ u.rb css 0 = false ∧ u.rb Reg.CSS_STAT.at 0 = false ∧ u.css = s.css ∧ u.mem = s.mem) ∧
      (∃ u, exec (.rlogHeadWrite (.core r) v) s = .next u ∧ u.rf Reg.CSS_RLOG_HEAD.at 15 0 = fld v 15 0 ∧ u.css = s.css ∧ u.mem = s.mem) ∧
      (∃ u, exec (.rlogcfgWrite (.core r) v) s = .next u ∧ u.rf Reg.CSS_RLOGCFG.at 3 0 = fld v 3 0 ∧ u.rb Reg.CSS_RLOGCFG.at 15 = bit v 15 ∧
        u.rf Reg.CSS_RLOGCFG.at 25 16 = fld v 25 16 ∧ u.css.logStop = false ∧ u.mem = s.mem) ∧
      (n < 8192 → s.css.fresh = false → s.admits cssTag true (s.slotAddr n) = (s, none) → 0x40000 ≤ s.slotAddr n → s.slotAddr n < 2 ^ 40 → s.slotAddr n % 64 = 0 →
        s.canonical = true → (s.slot n).image.length = 0 ∨ (s.slot n).image.length = 32 →
        ∃ u, exec (.ledgerScrub n) s = .next u ∧ u.slot n = s.slot n ∧ u.bytes (s.slotAddr n) 64 = (s.slot n).bytes))

/-- The ledger's balance (R295, R299): a transition of a slot between the states that R295 joins, in a ledger whose four invariants hold and whose lines can be written,
leaves all four holding and raises no Fatal error. -/
def Obligations.LedgerBalanceIsKept : Prop :=
  ∀ (s : State) (n dest : Nat) (f : Slot → Slot),
    let old := s.slot n
    (old.st, dest) ∈ [(0, 1), (1, 2), (1, 4), (2, 3), (2, 4), (3, 4), (4, 5), (5, 0)] →
    Sparse.wf (fun _ => Slot.empty) s.css.slots = true → Sparse.wf (fun _ => RingPair.empty) s.css.rings = true →
    (old.st ≠ 0 → (f old).ring = old.ring) → s.balance = 0 → 1 ≤ s.rf (Reg.CSS_LCNT.at old.st) 13 0 →
    s.admits cssTag true (s.slotAddr n) = (s, none) → s.slotAddr n < 2 ^ 40 →
    let t := s.moveSlot n dest f
    t.balance = 0 ∧ t.slot n = { f old with st := dest } ∧ t.fatalDue = s.fatalDue ∧ t.css.ops = s.css.ops ∧ t.css.subs = s.css.subs ∧
      t.rf (Reg.CSS_LCNT.at dest) 13 0 = s.rf (Reg.CSS_LCNT.at dest) 13 0 + 1 ∧ t.rf (Reg.CSS_LCNT.at old.st) 13 0 + 1 = s.rf (Reg.CSS_LCNT.at old.st) 13 0

/-! ## Vehicle adapters -/

/-- Frames (R315-R325): a good CAN or T1S frame of an ONLINE path goes to the store of the enabled subchannel that it matches, with the image of R320 or
R322; a bad one counts in RXBAD, one that no subchannel claims in RXUNCL, one over its policed length in RXPOL, one without room in RXDROP; a
frame that is sent ends its step with status 0x00 and lowers TEC; the gate list starts and steps with its cycle.

What an adapter reports and its own events (R258, R286, R315, R317, R328-R333): a report of a path, slot and GEN that does not name the step in progress
only counts in STALECNT; a refused step ends with status 0x1A, a step withdrawn with 0x1D, SENSE with 0x00, and a READ whose wait ends without a
frame with a length status; a good response of a smart driver ends its step, and a bad one is asked for again. Where the manual is silent its clauses state the model's choices of log entries 7, 23. -/
def Obligations.Adapters : Prop :=
  (∀ (s : State) (p sc n t : Nat) (c : SubCh) (w0 w1 af : Nat) (data f : List Byte) (ts : W64) (bad : BitVec 3) (sfd : W32) (o : Op) (d : Ccd) (st : AdStep),
      s.pathState p = 1 → s.cssStopped = false → s.rb (Reg.ADPT_FINJ.at p) 31 = false →
      let a := s.adapter p
      let room := (a.store.filter (fun x => x.1 == sc)).length < max 1 (s.rf (Reg.ADPT_ACTL.at p) 15 8)
      let counts (u : State) (r : Nat) : Prop := u.rf r 31 0 = min (2 ^ 32 - 1) (s.rf r 31 0 + 1) ∧ (u.adapter p).store = a.store
      let stores (u : State) (image : List Byte) : Prop := (u.adapter p).store = a.store ++ [(sc, image)]
      let alone := s.css.subs = [(sc, c)] ∧ c.st ≠ .disabled ∧ c.path = p ∧ a.steps = []
      let can := Instr.frameReceive p (.can w0 w1 af data)
      let eth := Instr.frameReceive p (.eth f)
      let canstat := Reg.ADPT_CANSTAT.at p
      (p < 0x18 → s.canAccepts p w1 data.length = true → alone →
        (canMatches c.devaddr w0 = true → room → s.storeRoom p 0 = true → ∃ u, exec (can ts 0) s = .next u ∧ stores u (canImage w0 w1 af ts.toNat data)) ∧
        (canMatches c.devaddr w0 = true → ¬ room → ∃ u, exec (can ts 0) s = .next u ∧ counts u (Reg.ADPT_RXDROP.at p)) ∧
        (canMatches c.devaddr w0 = false → ∃ u, exec (can ts 0) s = .next u ∧ counts u (Reg.ADPT_RXUNCL.at p) ∧
          (s.rf canstat 23 16 ≤ 127 → u.rf canstat 23 16 = s.rf canstat 23 16 - 1))) ∧
      (p < 0x18 → bad ≠ 0 → ∃ u, exec (can ts bad) s = .next u ∧ counts u (Reg.ADPT_RXBAD.at p) ∧ u.rf canstat 6 4 = bad.toNat ∧
        u.rf canstat 23 16 = min 255 (s.rf canstat 23 16 + 1)) ∧
      (0x18 ≤ p → p < 0x28 →
        (bad ≠ 0 ∨ ethBad f = true → ∃ u, exec (eth ts bad) s = .next u ∧ counts u (Reg.ADPT_RXBAD.at p)) ∧
        (ethBad f = false → s.ethForUs p f = false → ∃ u, exec (eth ts 0) s = .next u ∧ counts u (Reg.ADPT_RXUNCL.at p)) ∧
        (ethBad f = false → s.ethForUs p f = true → (List.range 64).find? (fun t => s.tplMatches p t 0 f) = some t →
          s.reg (Reg.ADPT_TPL_POL.at (p - 0x18) t) = 0 → alone →
          (1518 < f.length + 4 → ∃ u, exec (eth ts 0) s = .next u ∧ counts u (Reg.ADPT_RXPOL.at p)) ∧
          (f.length + 4 ≤ 1518 → c.devaddr = t → room → s.storeRoom p (16 + f.length) = true → ∃ u, exec (eth ts 0) s = .next u ∧
            stores u (leBytes 4 (f.length + t * 2 ^ 24) ++ leBytes 4 0 ++ leBytes 8 ts.toNat ++ f)))) ∧
      (p < 0x28 → s.nextSend p = some st → (0x18 ≤ p → st.cmd = 9 ∧ st.param = 0) → s.css.ops = [(n, some o)] → s.css.log = [] → (∀ e ∈ s.css.subs, e.2.lost = false) →
        st.slot = n → st.count = o.count → o.phase = .handed → o.path = p → o.chain = [d] → d.next = false → o.ocause = 0 → (s.sub (s.slot n).subch).queue = [n] →
        (s.sub (s.slot n).subch).drain = none → s.admits cssTag true (s.subRecord (s.slot n).subch + 0x20) = (s, none) → s.subRecord (s.slot n).subch < 2 ^ 40 →
        ∃ u, exec (.frameSent p [] sfd) s = .next u ∧ u.ended n 0x00 ∧ (∃ x ∈ u.out, x.kind = .adapter ∧ x.port = p) ∧
          (p < 0x18 → u.rf canstat 15 8 = s.rf canstat 15 8 - 1) ∧ (u.adapter p).steps = a.steps.filter (fun x => x.slot != n)) ∧
      (0x28 ≤ p → p < 0x3C →
        let qbv := Reg.ADPT_QBVCTL.at (p - 0x28)
        let len := if s.rb qbv 28 then s.rf qbv 24 16 else s.rf qbv 8 0
        (∃ u, exec (.qbvCycleStart p) s = .next u ∧ (u.adapter p).entry = 0 ∧ u.rb qbv 30 = false ∧
          u.rb qbv 28 = (if s.rb qbv 30 then s.rb qbv 29 else s.rb qbv 28)) ∧
        (∃ u, exec (.gclEntryEnd p) s = .next u ∧ (u.adapter p).entry = (if a.entry + 1 < len then a.entry + 1 else a.entry) ∧ u.regs = s.regs))) ∧
  (∀ (s : State) (r p n gen : Nat) (o : Op) (d : Ccd) (st : AdStep) (x : SdExchange) (b : List Byte) (cs : BitVec 2), r < numCores → p < 0x4C →
      s.css.ops = [(n, some o)] → s.css.log = [] → (∀ e ∈ s.css.subs, e.2.lost = false) → (s.adapter p).steps = [st] → st.slot = n → st.sub = (s.slot n).subch →
      o.phase = .handed → o.path = p → o.chain = [d] → d.next = false → d.cmd = st.cmd → d.count = st.count → d.count ≠ countLast → o.ocause = 0 → o.out = 0 →
      let sc := s.sub (s.slot n).subch
      sc.queue = [n] → sc.drain = none → (s.slot n).mirrored = false → s.cssStopped = false → s.rb (Reg.ADPT_FINJ.at p) 31 = false →
      s.admits cssTag true (s.subRecord (s.slot n).subch + 0x20) = (s, none) → s.subRecord (s.slot n).subch < 2 ^ 40 →
      let a := s.adapter p
      let state := s.pathState p
      let stale : Prop := exec (.pathReport p n gen false) s = .next (s.setReg Reg.CSS_STALECNT.at (s.reg Reg.CSS_STALECNT.at + 1))
      let takes : Prop := s.admits (s.opTag n) true d.addr = (s, none) ∧ d.addr % 4096 + d.count ≤ 4096 ∧ d.addr < 2 ^ 40
      (state = 2 ∨ state = 3 → stale) ∧ (state = 1 → gen ≠ sc.gen → stale) ∧
      (state = 1 → gen = sc.gen →
        (∀ e, s.stepError p st = some e → ∃ u, exec (.pathReport p n gen false) s = .next u ∧ u.ended n 0x1A) ∧
        (o.abort = true → a.xchg = none → ∃ u, exec (.pathReport p n gen true) s = .next u ∧ u.ended n 0x1D) ∧
        (o.abort = false → exec (.pathReport p n gen true) s = .next s) ∧
        (p < 0x3C → s.stepError p st = none → st.cmd = 11 → d.count = 16 → takes → ∃ u, exec (.pathReport p n gen false) s = .next u ∧ u.ended n 0x00) ∧
        (p < 0x3C → s.stepError p st = none → st.cmd = 8 → takeFrame st.sub a.store = none → st.param = 0 → d.count ≠ 0 →
          ∃ u, exec (.pathReport p n gen false) s = .next u ∧ u.ended n (if d.shortOk then 0x01 else 0x19))) ∧
      (p < 0x3C → st.cmd = 8 → takeFrame st.sub a.store = none → d.count ≠ 0 →
        ∃ u, exec (.readWaitExpiry p n) s = .next u ∧ u.ended n (if d.shortOk then 0x01 else 0x19)) ∧
      (p < 0x3C → state = 1 ∨ state = 3 → ∃ u, exec (.linkLoss p) s = .next u ∧ u.pathState p = 2 ∧ u.rf (Reg.ADPT_PATHSTAT.at p) 15 8 = 3 ∧
        (p < 0x18 → u.rf (Reg.ADPT_CANSTAT.at p) 1 0 = 2) ∧ (0x18 ≤ p → u.rb (Reg.ADPT_AEVT.at p) 2 = true)) ∧
      (state = 0 ∨ state = 2 → ∃ u, exec (.adapterReset (.core r) p) s = .next u ∧ (u.adapter p).store = [] ∧ (u.adapter p).xchg = none ∧
        (p < 0x18 → u.rf (Reg.ADPT_CANSTAT.at p) 23 8 = 0 ∧ u.rf (Reg.ADPT_CANSTAT.at p) 1 0 = 0) ∧ u.css = s.css) ∧
      (state = 1 → ∃ u, exec (.adapterReset (.core r) p) s = .next u ∧ u.adpt = s.adpt) ∧
      (0x3C ≤ p →
        (∃ u, exec (.faultin p) s = .next u ∧ u.rb (Reg.ADPT_AEVT.at p) 4 = true ∧ u.adpt = s.adpt ∧ u.css = s.css) ∧
        (a.xchg = none → s.rf (Reg.ADPT_SDCFG.at (p - 0x3C)) 31 24 ≠ 0 → s.rb (Reg.ADPT_SDCFG.at (p - 0x3C)) (20 + cs.toNat) = true →
          ∃ u, exec (.keepAlive p cs) s = .next u ∧ (∃ y, (u.adapter p).xchg = some y ∧ y.opc = 4 ∧ y.cs = cs.toNat ∧ y.slot = none) ∧
            ∃ e ∈ u.out, e.kind = .adapter ∧ e.port = p) ∧
        (a.xchg = some x → x.slot = some n →
          (sdGood x b = true → (b.getD 2 0).toNat ≤ 1 → st.cmd = 9 ∨ st.cmd = 10 → ∃ u, exec (.sdResponse p b) s = .next u ∧ u.ended n 0x00) ∧
          (sdGood x b = true → (b.getD 2 0).toNat = 2 → ∃ u, exec (.sdResponse p b) s = .next u ∧ u.ended n 0x1A) ∧
          (sdGood x b = false → ∃ u, exec (.sdResponse p b) s = .next u ∧ (u.adapter p).xchg = some { x with bad := true } ∧ u.css = s.css) ∧
          (x.bad = true → ∃ u, exec (.sdRetransmit p) s = .next u ∧ (u.adapter p).xchg = some { x with bad := false } ∧
            u.out = s.out ++ [{ kind := .adapter, port := p, data := x.cs :: x.bytes.map BitVec.toNat }]))))

/-! ## Mash and Kiln -/

/-- Engine steps (R273, R337-R343, R355-R358): a direct job reads its CCD and runs, or ends with status 0x15; its step, or a channel program's, starts in an idle
engine with the source that its CCD names, an invalid PARAM refusing it; a step that ends writes what the engine computes at ARG and its job reports the
bytes in JOUT and the status in JSTAT; UNSEAL with a wrong tag writes zeros and ends with 0x1C.

Key slots, the ladder and the entropy source (R342, R344-R352), which the sealed world commands: clearing VALID zeroes key and counter; while VALID is 1 nothing
else of the slot can be written; DERIVE and IMPORT fill an empty slot of a TYPE with a length and count from 0, or answer why not in ERR; SEAL takes
a counter value once; a read of the entropy source takes a fresh word while READY is 1; a health-test failure clears READY and sets FAIL until a
restart. Where the manual is silent its clauses state the model's choices of log entries 7, 8, 24. -/
def Obligations.EnginesKeysAndEntropy : Prop :=
  (∀ (s : State) (r sc n a len : Nat) (ch : BitVec 3) (kiln : Bool) (v : W32) (j : Job) (c : Ccd) (o : Op) (e : EngStep) (out : List Byte) (why : Nat × Nat), r < numCores →
      let base := jobBase kiln ch.toNat
      let ccdAt := s.reg64 base
      let tag : AccessTag := { s.tagOf (.core r) with cls := 4, src := if kiln then 1 else 0 }
      let ccd := Ccd.ofBytes (s.bytes ccdAt 32)
      let readable (t : AccessTag) (a n : Nat) : Prop := a < 2 ^ 40 ∧ a % 4096 + n ≤ 4096 ∧ s.admits t false a = (s, none) ∧
        ∀ x, a / 64 ≤ x → x * 64 < a + n → s.mem.poisonAt (x * 64) = false
      let beyond (u : State) (status : Nat) : Prop := u.job kiln ch.toNat = none ∧ u.rf (base + 0xC) 31 24 = status ∧ u.rb (base + 0xC) 1 = true ∧
        u.rb (base + 0xC) 0 = false ∧ u.rb (base + 8) 31 = false
      let started (u : State) (kiln : Bool) (who : EngineFor) (last : Option Nat) (t : AccessTag) : Prop := ∃ x, (u.engine kiln).steps = [x] ∧ x.started = true ∧
        x.who = who ∧ x.ccd = c ∧ x.pieces = [(c.addr, c.len last)] ∧ x.count = c.len last ∧ x.tag = t ∧ (badParam c = true → x.err = some (0x1B, 0x20))
      let rows (who : StepOf) : List (Instr × Bool × Nat) := [(.check who, true, 3), (.mash who, false, 4), (.unmash who, false, 5), (.seal who, true, 6),
        (.unseal who, true, 7)]
      let sub := s.sub sc
      (s.rb (base + 0xC) 0 = false → kiln = false ∨ ch.toNat < 4 ∨ (s.core r).lvl = 3 → readable tag ccdAt 32 → ccdAt % 32 = 0 →
        (ccdBad ccdAt ccd [] none 0 true = false → jobAccepts kiln ccd.cmd = true → ∃ u, exec (.jobStart (.core r) kiln ch v) s = .next u ∧
          u.job kiln ch.toNat = some { at_ := ccdAt, chain := [ccd], nread := 1, last := none, tag := tag } ∧ u.rb (base + 0xC) 0 = true ∧ u.mem = s.mem) ∧
        (ccdBad ccdAt ccd [] none 0 true = true ∨ jobAccepts kiln ccd.cmd = false → ∃ u, exec (.jobStart (.core r) kiln ch v) s = .next u ∧ beyond u 0x15)) ∧
      (j.chain = [c] → c.join = false →
        (∀ x ∈ rows (.job ch.toNat) ++ [(Instr.verify ch.toNat, true, 0xC), (.cipher ch.toNat, true, 0xD)], c.cmd = x.2.2 → (s.engine x.2.1).steps = [] →
          s.job x.2.1 ch.toNat = some j → ∃ u, exec x.1 s = .next u ∧ started u x.2.1 (.job ch.toNat) j.last j.tag ∧ u.mem = s.mem ∧ u.cores = s.cores)) ∧
      (s.css.ops = [(n, some o)] → s.css.faults = [] → (∀ x ∈ s.css.subs, x.2.lost = false) → sub.queue = [n] → s.cssStopped = false → o.phase = .ready → o.chain = [c] → c.join = false →
        c.mark = false → o.ocause = 0 →
        ∀ x ∈ rows (.sub sc), c.cmd = x.2.2 → (s.engine x.2.1).steps = [] → ∃ u, exec x.1 s = .next u ∧ started u x.2.1 (.op n) o.last (s.opTag n) ∧
          (∃ o', u.op? n = some o' ∧ o'.phase = .engine) ∧ u.mem = s.mem ∧ u.cores = s.cores) ∧
      ((s.engine kiln).steps = [e] → e.started = true → e.who = .job ch.toNat → s.job kiln ch.toNat = some j → j.chain = [c] → c.next = false →
        (e.err = some why → why.1 < 256 → ∃ u, exec (.engineStepEnd kiln .ok) s = .next u ∧ beyond u why.1 ∧ (u.engine kiln).steps = [] ∧ u.mem = s.mem) ∧
        (s.canonical = true → e.err = none → e.lost = false → e.pieces = [(a, len)] → e.count = len → e.ccd.cmd ≠ 3 → e.ccd.cmd ≠ 0xC → e.ccd.cmd ≠ 5 → readable e.tag a len →
          s.admits e.tag true e.ccd.arg = (s, none) → e.ccd.arg < 2 ^ 40 →
          (s.engCompute e (s.bytes a len) [] = .ok out → e.ccd.arg % 4096 + out.length ≤ 4096 → ∃ u, exec (.engineStepEnd kiln .ok) s = .next u ∧ beyond u 0x00 ∧
            u.bytes e.ccd.arg out.length = out ∧ (u.reg (base + 0x10)).toNat = out.length ∧ (u.engine kiln).steps = []) ∧
          (e.ccd.cmd = 7 → gcmOpen (s.keyValue (e.key.getD 0)) ((s.bytes a len).take 12) [] ((s.bytes a len).drop 12) = none → e.ccd.arg % 4096 + (len - 28) ≤ 4096 →
            ∃ u, exec (.engineStepEnd kiln .ok) s = .next u ∧ beyond u 0x1C ∧ u.bytes e.ccd.arg (len - 28) = List.replicate (len - 28) 0)))) ∧
  (∀ (s : State) (r : Nat) (dst src : BitVec 6) (v : W32) (e : EngStep), r < numCores →
      let k := dst.toNat
      let cfg := Reg.KILN_KS_CFG.at k
      let scfg := Reg.KILN_KS_CFG.at src.toNat
      let ctr := Reg.KILN_KS_CTR_LO.at k
      let len := keyLen (s.rf cfg 3 1)
      let world := (s.core r).lvl = 3
      let stat := Reg.KILN_RNGSTAT.at
      let err (u : State) (n : Nat) : Prop := u.rf Reg.KILN_LDR_STAT.at 2 0 = n ∧ u.rb Reg.KILN_LDR_CTL.at 31 = false
      let fills (x : Instr) : Prop := ∃ u, exec x s = .next u ∧ err u 0 ∧ u.keyValid k = true ∧ (u.keyValue k).length = len ∧ u.reg64 ctr = 0 ∧
        u.cores = s.cores
      let refuses (x : Instr) (n : Nat) : Prop := ∃ u, exec x s = .next u ∧ err u n ∧ u.vault = s.vault ∧ u.keyValid k = s.keyValid k
      let wrapped := s.bytes (0x1000000 + s.rf Reg.KILN_LDR_SRC.at 20 4 * 16) (28 + len)
      let opened := gcmOpen (s.keyValue src.toNat) (wrapped.take 12) (leBytes 4 (s.reg cfg).toNat) (wrapped.drop 12)
      (world →
        (s.keyValid k = true → bit v 0 = false → ∃ u, exec (.slotClear (.core r) dst v) s = .next u ∧ u.keyValid k = false ∧ u.keyValue k = [] ∧ u.reg64 ctr = 0 ∧
          (∀ i, i < 64 → i ≠ k → u.keyValid i = s.keyValid i ∧ u.keyValue i = s.keyValue i) ∧ u.cores = s.cores ∧ u.mem = s.mem) ∧
        (s.keyValid k = true → bit v 0 = true → exec (.slotClear (.core r) dst v) s = .next s) ∧
        (s.keyValid k = false → ∃ u, exec (.slotClear (.core r) dst v) s = .next u ∧ u.keyValid k = false ∧ u.rf cfg 3 1 = fld v 3 1 ∧ u.rf cfg 14 8 = fld v 14 8 ∧
          u.vault = s.vault) ∧
        (s.scrapped = false → s.keyValid k = false → len ≠ 0 →
          fills (.derive (.core r) dst src true) ∧
          (s.keyValid src.toNat = true → s.rf scfg 3 1 = 3 → s.rb scfg 14 = true → fills (.derive (.core r) dst src false)) ∧
          (s.keyValid src.toNat = false ∨ s.rf scfg 3 1 ≠ 3 ∨ s.rb scfg 14 = false → refuses (.derive (.core r) dst src false) 2) ∧
          (s.keyValid src.toNat = true → s.rf scfg 3 1 < 2 → s.rb scfg 13 = true → s.rf Reg.KILN_LDR_SRC.at 20 4 * 16 % 4096 + 28 + len ≤ 4096 →
            s.admits { s.tagOf (.core r) with cls := 4, src := 1 } false (0x1000000 + s.rf Reg.KILN_LDR_SRC.at 20 4 * 16) = (s, none) →
            (∀ x, s.mem.poisonAt x = false) →
            (opened.isSome = true → fills (.importKey (.core r) dst src)) ∧ (opened = none → refuses (.importKey (.core r) dst src) 3))) ∧
        (s.scrapped = false → s.keyValid k = true → refuses (.derive (.core r) dst src true) 1 ∧ refuses (.importKey (.core r) dst src) 1) ∧
        (s.scrapped = true → refuses (.derive (.core r) dst src true) 5 ∧ refuses (.importKey (.core r) dst src) 5) ∧
        (s.scrapped = false → fld v 27 24 ≠ 1 → fld v 27 24 ≠ 2 → refuses (.ldrInvalidOp (.core r) v) 1) ∧
        (s.rb stat 0 = true → ∃ u, exec (.rngdataRead (.core r) true) s = .next u ∧ u.freeCtr = s.freeCtr + 1 ∧
          u.vault = { s.vault with readsS := if s.vault.readsS + 1 = 2 ^ 20 then 0 else s.vault.readsS + 1 } ∧ u.regs = s.regs) ∧
        (∃ u, exec (.rngRestart (.core r)) s = .next u ∧ u.rb stat 0 = true ∧ u.rb stat 1 = false ∧ u.cores = s.cores ∧ u.mem = s.mem)) ∧
      (¬ world → exec (.slotClear (.core r) dst v) s = .next s ∧ exec (.rngRestart (.core r)) s = .next s ∧ exec (.rngdataRead (.core r) true) s = .next s) ∧
      (s.rb stat 0 = false → exec (.rngdataRead (.core r) false) s = .next s) ∧
      (s.rb stat 0 = true → ∃ u, exec (.rngdataRead (.core r) false) s = .next u ∧ u.freeCtr = s.freeCtr + 1 ∧ u.regs = s.regs ∧ u.vault.readsS = s.vault.readsS) ∧
      (∃ u, exec .healthTestFailure s = .next u ∧ u.rb stat 0 = false ∧ u.rb stat 1 = true ∧ u.cores = s.cores ∧ u.mem = s.mem) ∧
      (e.ccd.cmd = 6 → e.lost = false → s.stepRefusal e = none → s.reg64 (Reg.KILN_KS_CTR_LO.at (e.ccd.param % 64)) ≠ 2 ^ 64 - 1 →
        (s.startStep e).2.iv = s.reg64 (Reg.KILN_KS_CTR_LO.at (e.ccd.param % 64)) ∧
        (s.startStep e).1.reg64 (Reg.KILN_KS_CTR_LO.at (e.ccd.param % 64)) = s.reg64 (Reg.KILN_KS_CTR_LO.at (e.ccd.param % 64)) + 1))

/-! ## Relay -/

/-- What arrives on VL0 for this device (R366, R378, R379, R382-R384): RD and WR are performed under the inbound map's tag and answered, or refused with status 1;
WR and BWR wait for their WRD; back-accesses are performed with the slot's tag while the slot allows them, else answered KEYFAIL; FWD enters its
ring pair's internal SQ or is refused. Where the manual is silent its clauses state the model's choices of log entries 25, 26. -/
def Obligations.RemoteAccesses : Prop :=
  ∀ (s : State) (p q : Nat) (f g : Flit) (rest : List Flit), p < 6 → (s.port p).rx = f :: rest → f.dst = 31 ∨ f.dst = s.devIndex → f.vl = 0 →
    s.routeTo f.src = some q → s.portOpen q 1 = true →
    let y := f.num 0 8
    let x := y % 2 ^ 36
    let len (h : Flit) := min (h.info % 256) (64 - h.num 0 8 % 64)
    let answer (h : Flit) (ty st : Nat) (data : List Byte) : Flit :=
      { vl := 1, ty := ty, dst := h.src, src := s.devIndex, tag := h.tag, info := st, payload := pad64 data }
    let reply (i : Instr) (h : Flit) (more : State → Prop) : Prop := ∃ u, exec i s = .next u ∧ s.sent u q h ∧ (u.port p).rx = rest ∧ more u
    let same (u : State) : Prop := u.mem = s.mem ∧ u.cores = s.cores ∧ u.css = s.css
    let readable (t : AccessTag) (a : Nat) : Prop := a < 2 ^ 40 ∧ s.admits t false a = (s, none) ∧ ∀ z, s.mem.poisonAt z = false
    let writable (t : AccessTag) (a : Nat) : Prop := a < 2 ^ 40 ∧ s.admits t true a = (s, none)
    let bs := (f.payload.drop (g.num 0 8 % 64)).take (len g)
    let r := 0x500 + nfld (f.num 0x20 4) 19 12
    (f.ty = 0 →
      (s.inbound p f.src x false = none → reply (.rd p) (answer f 0 1 []) same) ∧
      (∀ a t, s.inbound p f.src x false = some (a, t) → readable t a → reply (.rd p) (answer f 0 0 (s.bytes a (len f))) same)) ∧
    (f.ty = 1 → ∃ u, exec (.wr p) s = .next u ∧ Sparse.get none (u.port p).wr f.src = some f ∧ (u.port p).rx = rest ∧ u.out = s.out ∧ same u) ∧
    (f.ty = 5 → ∃ u, exec (.bwr p) s = .next u ∧ Sparse.get none (u.port p).wr f.src = some f ∧ (u.port p).rx = rest ∧ u.out = s.out ∧ same u) ∧
    (f.ty = 2 → Sparse.get none (s.port p).wr f.src = some g → g.src = f.src →
      (g.ty = 1 → s.inbound p g.src (g.num 0 8 % 2 ^ 36) true = none → reply (.wrd p) (answer g 1 1 []) same) ∧
      (g.ty = 1 → ∀ a t, s.inbound p g.src (g.num 0 8 % 2 ^ 36) true = some (a, t) → writable t a →
        reply (.wrd p) (answer g 1 0 []) (fun u => u.bytes a bs.length = bs ∧ Sparse.get none (u.port p).wr f.src = none)) ∧
      (g.ty = 5 → s.backTag g = none → reply (.wrd p) (answer g 1 4 []) same) ∧
      (g.ty = 5 → ∀ t, s.backTag g = some t → writable t (g.num 0 8) → reply (.wrd p) (answer g 1 0 []) (fun u => u.bytes (g.num 0 8) bs.length = bs))) ∧
    (f.ty = 4 →
      (s.backTag f = none → reply (.brd p) (answer f 0 4 []) same) ∧
      (∀ t, s.backTag f = some t → readable t y → reply (.brd p) (answer f 0 0 (s.bytes y (len f))) same)) ∧
    (f.ty = 3 →
      (s.fwdOk f = false → reply (.fwd p) (answer f 1 1 []) same) ∧
      (s.fwdOk f = true → reply (.fwd p) (answer f 1 0 []) (fun u => (u.ring r).sqTail = ((s.ring r).sqTail + 1) % 65536 ∧ u.mem = s.mem ∧
        ∃ e, (u.ring r).fwds = (s.ring r).fwds ++ [e] ∧ e.dev = f.src ∧ e.slot = f.num 0x24 4 % 8192 ∧ e.gen = f.num 0x26 2 ∧ e.pa = f.num 0x28 8 ∧
          e.ccd = Ccd.ofBytes (f.payload.take 32) ∧ e.sqe % 4096 = f.num 0x20 4 % 4096)))

/-- The crossbar and responses (R366, R368, R377, R378, R380): the oldest flit of a VL that is for another device leaves by the route table when its port grants a
baton, and without a route is dropped and, as a request, answered NOROUTE; a response frees its tag and completes its load, reports its store or releases an acknowledged Device store; a
timeout is recorded and answered as an error.

Ports (R362-R365, R368-R373): full training with PARAM both ways makes a DOWN port ACTIVE, and a miswired one DOWN; only the next frame with a correct CRC is
accepted, and others draw one NAK; NAK and the timeout replay, after the fourth replay of a SEQ a retrain, and a replay buffer beyond repair fences the port; BRET, ACK and RECON carry the counts, whose imbalance
fences the port; enable, disable and fence. Where the manual is silent its clauses state the model's choices of log entries 7, 25, 26. -/
def Obligations.RelayRoutesAndLinks : Prop :=
  (∀ (s : State) (p o q c b : Nat) (l : LoadWait) (t2 t3 : W64) (e : StoreError) (x : SbEntry) (xs : List SbEntry) (f : Flit) (rest : List Flit), p < 6 → (s.port p).rx = f :: rest →
      s.boot.run = none →
      let rows : List (Instr × Nat × Nat) := [(.rd p, 0, 0), (.wr p, 0, 1), (.wrd p, 0, 2), (.fwd p, 0, 3), (.brd p, 0, 4), (.bwr p, 0, 5), (.rdr p, 1, 0),
        (.relayCmp p, 1, 1), (.mirror p, 2, 0), (.mack p, 2, 1), (.mref p, 2, 2), (.cancel p, 2, 3), (.assign p, 3, 0), (.routeset p, 3, 1), (.ready p, 3, 2),
        (.sync p t2 t3, 3, 3), (.dreq p t2, 3, 4), (.dresp p, 3, 5), (.loss p, 3, 6), (.leave p, 3, 7)]
      let ours := f.dst = 31 ∨ f.dst = s.devIndex
      let refusal : Flit := { vl := 1, ty := if f.ty = 0 ∨ f.ty = 4 then 0 else 1, dst := f.src, src := s.devIndex, tag := f.tag, info := 3, payload := pad64 [] }
      let dropped (u : State) : Prop := (u.port p).rx = rest ∧
        u.rf (Reg.RELAY_DROPCNT.at p) 31 0 = min (2 ^ 32 - 1) (s.rf (Reg.RELAY_DROPCNT.at p) 31 0 + 1) ∧ u.mem = s.mem ∧ u.css = s.css
      let free (u : State) : Prop := Sparse.get none u.relay.reqs f.tag = none ∧ (u.port p).rx = rest ∧ u.mem = s.mem
      let report (i : Instr) (tag : Nat) (s0 : State) : Prop := ∃ u v, exec i s0 = .next u ∧ exec (.asyncBusError c (some e)) s = .next v ∧ u.cores = v.cores ∧
        Sparse.get none u.relay.reqs tag = none ∧ u.mem = s.mem
      let k := s.core c
      let w := s.setCore c { k with wait := .load l }
      let data := leNat (f.payload.take l.size)
      let value : W64 := if l.sext then (BitVec.ofNat (8 * l.size) data).signExtend 64 else BitVec.ofNat 64 data
      let write : ReqFor := .coreWr c e.device e.lvl e.va e.pa
      (∀ x ∈ rows, f.vl = x.2.1 →
        (f.ty ≠ x.2.2 → exec x.1 s = .next s) ∧
        (f.ty = x.2.2 → ¬ ours → (f.vl = 3 → f.ty = 7 → ∀ j, j < 6 → s.isNeighbour j f.src = false) →
          (s.routeTo f.dst = some o → s.portOpen o f.vl = true → ∃ u, exec x.1 s = .next u ∧ s.sent u o f ∧ (u.port p).rx = rest ∧ u.mem = s.mem) ∧
          (s.routeTo f.dst = some o → (s.port o).batons f.vl = 0 → exec x.1 s = .next s) ∧
          (s.routeTo f.dst = none → f.vl ≠ 0 ∨ f.ty = 2 → ∃ u, exec x.1 s = .next u ∧ dropped u ∧ u.out = s.out) ∧
          (s.routeTo f.dst = none → f.vl = 0 → f.ty ≠ 2 → f.src ≠ s.devIndex → s.routeTo f.src = some q → s.portOpen q 1 = true → ∃ u, exec x.1 s = .next u ∧
            dropped u ∧ s.sent u q refusal))) ∧
      (ours → f.vl = 1 → f.payload.length = 64 → s.relay.queue = [] →
        (f.ty = 0 → f.info = 0 → s.calm c = true → l.size = 1 ∨ l.size = 2 ∨ l.size = 4 ∨ l.size = 8 → l.known = [] → l.base = none → l.fp = false →
          s.relay.parts = [] → Sparse.get none s.relay.reqs f.tag = some { port := b, who := .coreRd c 0 l.size } →
          ∃ u, exec (.rdr p) w = .next u ∧ free u ∧ u.core c = { k.setG l.rt value with lastTag := some (k.tag c) }.fallThrough) ∧
        (f.ty = 1 → c < numCores → Sparse.get none s.relay.reqs f.tag = some { port := b, who := write } →
          (e.device = false → f.info = 0 → ∃ u, exec (.relayCmp p) s = .next u ∧ free u ∧ u.cores = s.cores) ∧
          (e.device = false → f.info ≠ 0 → report (.relayCmp p) f.tag s) ∧
          (e.device = true → f.info = 0 → s.relay.reqs = [(f.tag, some { port := b, who := write })] → k.sbuf = x :: xs → x.sent = true → k.wait ≠ .ack →
            ∃ u, exec (.relayCmp p) s = .next u ∧ free u ∧ u.cores = (s.setCore c { k with sbuf := xs }).cores))) ∧
      (s.relay.queue = [] → c < numCores → b < 6 → e.device = false → ∀ t : BitVec 8,
        (Sparse.get none s.relay.reqs t.toNat = none → exec (.requestTimeout t) s = .next s) ∧
        (Sparse.get none s.relay.reqs t.toNat = some { port := b, who := write } → report (.requestTimeout t) t.toNat s))) ∧
  (∀ (s : State) (r p : Nat) (lanes : BitVec 4) (m : ParamMsg) (seq : BitVec 9) (crc : Bool) (f : Flit) (a : Nat × Flit) (rest : List (Nat × Flit))
      (l1 l2 : List (BitVec 16)) (v : W32) (ack : Option (BitVec 9)), r < numCores → p < 6 →
      let q := s.port p
      let st := s.portState p
      let stat := Reg.RELAY_PORTSTAT.at p
      let ctl := Reg.RELAY_PORTCTL.at p
      let up := st = 3 ∨ st = 4
      let frame (code expect : Nat) (data : List Nat) : Out := { kind := .relay, port := p, data := (0x10000 + code) :: (expect + 511) % 512 :: data }
      let param (x : Nat) := frame 3 x [b2n s.manager, s.devIndex, p, s.incarn, x]
      let bytes (e : Nat × Flit) := (frameBytes e.1 ((q.expect + 511) % 512) e.2 false).map BitVec.toNat
      let again (l : List (Nat × Flit)) : List Out := l.map (fun e => { kind := .relay, port := p, data := bytes e })
      let counts (t : Sparse Nat) : List Nat := [Sparse.get 0 t 0, Sparse.get 0 t 1, Sparse.get 0 t 2, Sparse.get 0 t 3]
      let ours := frame 4 q.expect (counts q.accepted ++ counts q.freed)
      let goes (i : Instr) (state : Nat) (more : State → Prop) : Prop := ∃ u, exec i s = .next u ∧ u.portState p = state ∧ more u
      let cause (u : State) (c : Nat) : Prop := u.rf stat 31 28 = c
      let fenced (c : Nat) (u : State) : Prop := cause u c ∧ u.rb ctl 16 = true ∧ (u.port p).rx = [] ∧ (u.port p).replay = []
      let replays (i : Instr) (x : Nat) (l : List (Nat × Flit)) : Prop :=
        let n := if q.replaySeq = x then q.replays else 0
        (n < 4 → s.rb (Reg.RELAY_FINJ.at p) 31 = false → q.late = none →
          goes i 3 (fun u => u.out = s.out ++ again l ∧ (u.port p).replays = n + 1 ∧ (u.port p).replaySeq = x)) ∧
        (4 ≤ n → goes i 4 (fun u => u.out = s.out ++ [param q.expect]))
      let beyond (i : Nat) : Prop := ((Sparse.get 0 q.sent i + 65536 - Sparse.get 0 q.rcvRet i) % 65536 < ((l1.getD i 0).toNat + 65536 - Sparse.get 0 q.rcvRet i) % 65536)
      let balanced (i : Nat) : Prop := (l1.getD i 0).toNat = Sparse.get 0 q.sent i ∧
        (Sparse.get 0 q.accepted i + 65536 - Sparse.get 0 q.freed i) % 65536 = q.occupied i
      (st = 1 → lanes ≠ 0 → goes (.fullTraining p lanes) 2 (fun u => u.out = s.out ++ [param 0] ∧ (u.port p).width = widthOf lanes.toNat ∧ (u.port p).nextSeq = 0 ∧
        (u.port p).rx = [])) ∧
      (st ≠ 1 → exec (.fullTraining p lanes) s = .next s) ∧
      (st = 2 → m.index < 32 → m.port < 8 → m.incarn < 65536 →
        (s.miswired p m = true → goes (.param p m) 1 (fun u => cause u 4)) ∧
        (s.miswired p m = false → s.portQuiet p = true → s.manager = false → s.rb (Reg.RELAY_NBRINC.at p) 31 = false → q.width < 4 →
          goes (.param p m) 3 (fun u => u.rf stat 20 16 = m.index ∧ u.rf stat 23 21 = m.port ∧ u.rf stat 9 8 = q.width ∧
            (u.reg (Reg.RELAY_NBRINC.at p)).toNat = 2 ^ 31 + m.incarn ∧ u.out = s.out))) ∧
      (st = 4 → m.incarn = s.rf (Reg.RELAY_NBRINC.at p) 15 0 → m.index = s.rf stat 20 16 → m.port < 8 → q.replay = [] →
        goes (.param p m) 4 (fun u => (u.port p).recon = true ∧ u.out = s.out)) ∧
      (st = 4 → q.recon = true → q.reconSent = false → goes (.idle p none) 4 (fun u => u.out = s.out ++ [ours] ∧ (u.port p).reconSent = true)) ∧
      (up →
        (seq.toNat = q.expect → typeOk f = true → q.occupied f.vl < batonTotal f.vl → goes (.dataFrameReceive p seq true none f false) st (fun u =>
          (u.port p).rx = q.rx ++ [f] ∧ (u.port p).expect = (q.expect + 1) % 512 ∧ u.out = s.out)) ∧
        (crc = false ∨ seq.toNat ≠ q.expect → goes (.dataFrameReceive p seq crc none f false) st (fun u => (u.port p).rx = q.rx ∧
          (u.port p).expect = q.expect ∧ (u.port p).nak = true ∧ u.out = if q.nak then s.out else s.out ++ [frame 1 q.expect [q.expect]])) ∧
        (s.portQuiet p = true → seq.toNat = q.expect → typeOk f = true → batonTotal f.vl ≤ q.occupied f.vl → goes (.dataFrameReceive p seq true none f false) 5 (fenced 3)) ∧
        (s.portQuiet p = true → (∃ i, i < 4 ∧ beyond i) → goes (.bret p l1 none) 5 (fenced 3)) ∧
        (q.queue = [] → (∀ i, i < 4 → ¬ beyond i) → goes (.bret p l1 none) st (fun u => ∀ i, i < 4 → Sparse.get 0 (u.port p).rcvRet i = (l1.getD i 0).toNat))) ∧
      (st ≠ 4 ∨ q.recon = false ∨ q.reconSent = true → exec (.idle p none) s = .next s) ∧
      (∀ k, ack = some k → st = 3 ∨ (st = 4 ∧ q.recon = false) → q.queue = [] →
        (q.replay.any (fun e => e.1 == k.toNat) = true → goes (.idle p ack) st (fun u => u.out = s.out ∧ (u.port p).replays = 0 ∧
          (u.port p).replay = (q.replay.dropWhile (fun e => e.1 != k.toNat)).drop 1)) ∧
        (q.replay.any (fun e => e.1 == k.toNat) = false → exec (.idle p ack) s = .next s)) ∧
      (st = 3 →
        (q.replay.any (fun e => e.1 == seq.toNat) = true → replays (.nak p seq none) seq.toNat (q.replay.dropWhile (fun e => e.1 != seq.toNat))) ∧
        (q.replay = a :: rest → (∀ ecc, ecc ≠ .bad → replays (.replayTimeout p ecc) a.1 (a :: rest)) ∧
          (s.portQuiet p = true → goes (.replayTimeout p .bad) 5 (fenced 5))) ∧
        (∀ ecc, q.replay = [] → exec (.replayTimeout p ecc) s = .next s) ∧
        goes (.bretInterval p) 3 (fun u => u.out = s.out ++ [frame 2 q.expect (counts q.freed)]) ∧
        goes (.ackInterval p) 3 (fun u => u.out = s.out ++ [frame 0 q.expect []] ∧ (u.port p).since = 0) ∧
        goes (.fastRetrain p lanes) 4 (fun u => u.out = s.out ++ [param q.expect] ∧ (u.port p).lanes = lanes.toNat ∧ (u.port p).start = s.clk.etc)) ∧
      (st ≠ 3 → exec (.nak p seq none) s = .next s ∧ (∀ ecc, exec (.replayTimeout p ecc) s = .next s) ∧ exec (.bretInterval p) s = .next s ∧ exec (.ackInterval p) s = .next s ∧
        exec (.fastRetrain p lanes) s = .next s) ∧
      (st = 4 → q.recon = true → s.retrainWidth p ≠ 0 → s.portQuiet p = true →
        ((∀ i, i < 4 → balanced i) → goes (.recon p l1 l2) 3 (fun u => u.rf stat 9 8 = s.retrainWidth p ∧
          u.rf (Reg.RELAY_RETRAINCNT.at p) 31 0 = min (2 ^ 32 - 1) (s.rf (Reg.RELAY_RETRAINCNT.at p) 31 0 + 1) ∧
          (∀ i, i < 4 → Sparse.get 0 (u.port p).rcvRet i = (l2.getD i 0).toNat) ∧ u.out = if q.reconSent then s.out else s.out ++ [ours])) ∧
        ((∃ i, i < 4 ∧ ¬ balanced i) → goes (.recon p l1 l2) 5 (fenced 3))) ∧
      (st = 4 → s.portQuiet p = true → goes (.retrainLimit p) 5 (fenced 2)) ∧
      (st ≠ 4 → exec (.retrainLimit p) s = .next s ∧ exec (.recon p l1 l2) s = .next s) ∧
      (s.rb ctl 0 = false → bit v 0 = true → bit v 16 = false → goes (.portEnable (.core r) p v) 1 (fun u => u.rb ctl 0 = true ∧ u.reg (Reg.RELAY_NBRINC.at p) = 0)) ∧
      (s.rb ctl 0 = true → bit v 0 = false → s.portQuiet p = true → goes (.portEnable (.core r) p v) 0 (fun u => cause u 1 ∧ u.rb ctl 0 = false ∧ u.rb ctl 16 = false)) ∧
      (s.rb ctl 0 = true → st ≠ 5 → s.portQuiet p = true → goes (.portFence (.core r) p) 5 (fenced 1)) ∧
      (s.rb ctl 0 = false → goes (.portFence (.core r) p) st (fun u => u.rb ctl 0 = false)))

/-- The ledger's messages (R307-R312, R385-R387): an update that its slot expects raises PEERSTATE and is acknowledged, a repeated one is acknowledged again, one
that asks for a dispatch no longer wanted is refused, and any other is discarded with a record; MACK ends the repeats and reports the slot; MREF and CANCEL
end an undispatched slot FLUSHED; a CANCEL of no slot holds its key; resends, and the expiry of keys and of PEERWAIT.

The hierarchy and elapsed time (R374-R376, R388-R390, R392): a worker takes its index from the manager's ASSIGN and its routes from ROUTESET, and answers
READY, which makes it present; what is not the manager's is recorded; losses are noted, acknowledged and repeated; LEAVE takes the port down; the
exchange of SYNC, DREQ and DRESP steps the ETC at an adoption or beyond 1 µs. Where the manual is silent its clauses state the model's choices of log entries 7, 25, 27. -/
def Obligations.LedgerMessagesAndHierarchy : Prop :=
  (∀ (s : State) (p q n dev slot gen sc : Nat) (f g : Flit) (o : Op) (rest : List Flit), p < 6 → (s.port p).rx = f :: rest → f.dst = 31 ∨ f.dst = s.devIndex →
      f.vl = 2 → s.routeTo f.src = some q → s.portOpen q 2 = true →
      let sub := f.num 0 2 % 8192
      let l := s.slot sub
      let m := f.num 2 2 % 8192
      let st := f.num 4 1
      let key := f.num 6 2
      let answer (ty st' : Nat) : Flit := { ledgerFlit ty f.src (f.num 0 2) (f.num 2 2) st' key s.clk.etc [] with src := s.devIndex }
      let reply (i : Instr) (h : Flit) (more : State → Prop) : Prop := ∃ u, exec i s = .next u ∧ s.sent u q h ∧ (u.port p).rx = rest ∧ more u
      let only (i : Instr) (more : State → Prop) : Prop := ∃ u, exec i s = .next u ∧ (u.port p).rx = rest ∧ u.out = s.out ∧ more u
      let discarded (i : Instr) (k : Nat) : Prop := only i (fun u => u.css = s.css ∧ ∀ b j, b < 48 → j < 16 → u.reg (Reg.ERRREC_REC_STATUS.at b j) =
        (s.record { bank := 34, unit := 0x15, code := 0x07, sev := .deferred, tag := some cssTag, misc0 := k % 8192 }).reg (Reg.ERRREC_REC_STATUS.at b j))
      let expected := l.peer = f.src ∧ (l.peerSt = 0 ∨ l.peerSlot = m) ∧ l.gen = key ∧ l.mirrored = false
      let running := (s.sub l.subch).queue.head? = some sub ∧ s.op? sub = some o ∧ o.phase = .handed ∧ l.fwd = true ∧ (s.sub l.subch).gen = key
      let raised (u : State) : Prop := u.slot sub = { l with peerSt := st, peerSlot := m } ∧ u.css.ops = s.css.ops
      let mine (h : Flit) : Prop := h.ty = 0 ∧ h.dst = f.src ∧ h.num 0 2 = f.num 0 2 ∧ h.num 2 2 = f.num 2 2
      let alone (k : Nat) : Prop := s.css.ops = [(k, some o)] ∧ s.css.log = [] ∧ (∀ e ∈ s.css.subs, e.2.lost = false) ∧ (s.slot k).subch = sc ∧
        s.admits cssTag true (s.subRecord sc + 0x20) = (s, none) ∧ s.subRecord sc < 2 ^ 40
      (f.ty = 0 →
        (¬ expected → discarded (.mirror p) sub) ∧
        (expected → st ≤ l.peerSt → reply (.mirror p) (answer 1 l.peerSt) (fun u => u.css = s.css)) ∧
        (expected → l.peerSt < st → running → st ≠ 4 → reply (.mirror p) (answer 1 st) raised) ∧
        (expected → l.peerSt < st → (s.sub l.subch).queue.head? ≠ some sub → st < 3 → reply (.mirror p) (answer 1 st) raised) ∧
        (expected → l.peerSt < 3 → (s.sub l.subch).queue.head? ≠ some sub → st = 3 → reply (.mirror p) (answer 2 3) (fun u => u.css = s.css)) ∧
        (expected → l.peerSt < 4 → running → st = 4 → alone sub → 1 < leNat ((f.payload.drop 32).take 4) / 2 ^ 24 →
          ∃ u, exec (.mirror p) s = .next u ∧ u.ended sub (leNat ((f.payload.drop 32).take 4) / 2 ^ 24) ∧ (u.slot sub).peerSt = 4 ∧ (u.slot sub).fwd = false)) ∧
      (f.ty = 1 →
        (s.relay.mirrors = [g] → mine g → g.num 4 1 ≤ st → (s.slot m).mirrored = true →
          (g.num 4 1 < 3 → only (.mack p) (fun u => u.relay.mirrors = [] ∧ u.css = s.css)) ∧
          (g.num 4 1 = 4 → (s.slot m).st = 4 → ∃ u, exec (.mack p) s = .next u ∧ u.relay.mirrors = [] ∧ (u.slot m).st = (if (s.slot m).fwd then 5 else 0) ∧
            (u.ring (s.slot m).ring).cqHead = ((s.ring (s.slot m).ring).cqHead + 1) % 65536)) ∧
        (s.relay.mirrors = [] → only (.mack p) (fun u => u.css = s.css))) ∧
      (f.ty = 2 →
        ((s.slot m).mirrored = false ∨ (s.slot m).peer ≠ f.src ∨ (s.slot m).peerSlot ≠ sub → discarded (.mref p) m) ∧
        ((s.slot m).mirrored = true → (s.slot m).peer = f.src → (s.slot m).peerSlot = sub → (s.slot m).st ≤ 2 → alone m →
          ∃ u, exec (.mref p) s = .next u ∧ u.ended m 0x1F)) ∧
      (f.ty = 3 →
        (s.mirrorSlot f.src sub key = none → s.css.rings = [] → reply (.cancel p) (answer 1 7) (fun u => (f.src, sub, key) ∈ u.relay.noslot ∧ u.css = s.css)) ∧
        (s.mirrorSlot f.src sub key = some n → 3 ≤ (s.slot n).st → reply (.cancel p) (answer 1 (s.slot n).st) (fun u => u.css = s.css)) ∧
        (s.mirrorSlot f.src sub key = some n → (s.slot n).st ≤ 2 → alone n → ∃ u, exec (.cancel p) s = .next u ∧ u.ended n 0x1F)) ∧
      (s.relay.mirrors = [] → exec .mirrorResend s = .next s) ∧
      (s.relay.mirrors = [g] → g.dst = f.src → g.vl = 2 → ∃ u, exec .mirrorResend s = .next u ∧ s.sent u q g ∧ u.css = s.css ∧ u.relay.mirrors = [g]) ∧
      (exec (.noslotKeyExpiry dev slot gen) s = .next { s with relay := { s.relay with noslot := s.relay.noslot.filter (fun k => k != (dev, slot, gen)) } }) ∧
      (dev ∉ s.relay.waiting → exec (.peerwaitExpiry dev) s = .next s) ∧
      (dev ∈ s.relay.waiting → dev ∉ s.relay.lost → s.css.slots = [] → exec (.peerwaitExpiry dev) s =
        .next { s with relay := { s.relay with waiting := s.relay.waiting.filter (fun x => x != dev) } }) ∧
      (dev ∈ s.relay.waiting → s.css.slots = [(n, s.slot n)] → (s.slot n).peer = dev → (s.slot n).fwd = true → (s.slot n).st = 5 ∨ (s.slot n).st = 4 → s.css.log = [] →
        s.logRoom = false → ∃ u, exec (.peerwaitExpiry dev) s = .next u ∧ u.css.log = [LogEntry.resolution n (s.slot n).peerSt []] ∧ u.css.slots = s.css.slots) ∧
      (dev ∈ s.relay.waiting → dev ∈ s.relay.lost → s.relay.mirrors = [] → s.css.log = [] → (∀ e ∈ s.css.slots, e.1 = n) → (s.slot n).peer = dev → (s.slot n).mirrored = true → (s.slot n).st = 4 →
        (s.slot n).orphan = false → (s.slot n).fwd = false → ∃ u, exec (.peerwaitExpiry dev) s = .next u ∧ (u.slot n).orphan = true ∧ (u.slot n).ocause = 5)) ∧
  (∀ (s : State) (p q o dev t d : Nat) (t2 t3 : W64) (f : Flit) (rest : List Flit), p < 6 → (s.port p).rx = f :: rest → f.dst = 31 ∨ f.dst = s.devIndex →
      f.vl = 3 → s.boot.run = none →
      let hid := Reg.RELAY_HID.at
      let route (i : Nat) := Reg.RELAY_HROUTE.at i
      let mgr := f.src = 0 ∧ s.manager = false ∧ (nfld (s.rf (route 0) 5 0) p p = 1 ∨ s.rb hid 5 = false)
      let has := s.rb hid 5
      let ready : Flit := { vl := 3, ty := 2, dst := 0, src := s.devIndex, tag := 0, info := 0, payload := pad64 (leBytes 1 s.devIndex) }
      let took (u : State) : Prop := (u.port p).rx = rest ∧ u.mem = s.mem ∧ u.css = s.css
      let recorded (i : Instr) : Prop := ∃ u, exec i s = .next u ∧ took u ∧ u.out = s.out ∧ u.reg hid = s.reg hid ∧ (∀ x, x < 31 → u.reg (route x) = s.reg (route x)) ∧
        u.reg Reg.RELAY_HPRESENT.at = s.reg Reg.RELAY_HPRESENT.at ∧ ∀ b j, b < 48 → j < 16 → u.reg (Reg.ERRREC_REC_STATUS.at b j) =
          (s.record { bank := 37 + p, unit := 0x08, code := 0x07, sev := .deferred, misc0 := 0, misc1 := 0 }).reg (Reg.ERRREC_REC_STATUS.at b j)
      let idx := f.num 0 1 % 32
      let e := s.reg (Reg.RELAY_HTOPO.at dev)
      let off : Int := (signed64 (s.relay.t2 - s.relay.t1) - signed64 ((f.num 0 8 : Nat) - s.relay.t3)) / 2
      let stepped := s.clk.etc - BitVec.ofInt 64 off
      (f.ty = 0 →
        (¬ mgr → recorded (.assign p)) ∧
        (mgr → f.dst = 31 → f.num 1 1 = p → has = false → ∃ u, exec (.assign p) s = .next u ∧ took u ∧ u.out = s.out ∧ u.rf hid 4 0 = idx ∧ u.rb hid 5 = true ∧
          u.rf hid 9 8 = f.num 3 1 % 4 ∧ u.rf (route 0) 5 0 = s.rf (route 0) 5 0 ||| 2 ^ p ∧ u.relay.imgOfs = f.num 4 4 % 2 ^ 24 ∧
          u.relay.imgLen = f.num 8 4 % 2 ^ 24) ∧
        (mgr → f.dst = 31 → f.num 1 1 = p → has = true → idx = s.devIndex → s.routeTo 0 = some q → s.portOpen q 3 = true → ∃ u, exec (.assign p) s = .next u ∧
          took u ∧ s.sent u q ready) ∧
        (mgr → f.dst = 31 → f.num 1 1 ≠ p ∨ has = true ∧ idx ≠ s.devIndex → s.portQuiet p = true → ∃ u, exec (.assign p) s = .next u ∧ u.portState p = 1 ∧
          u.rf (Reg.RELAY_PORTSTAT.at p) 31 28 = 4)) ∧
      (f.ty = 1 →
        (¬ (mgr ∧ has = true) → recorded (.routeset p)) ∧
        (mgr → has = true → s.devIndex ≠ 0 → f.num 0 1 % 64 = 2 ^ q → s.portOpen q 3 = true → ∃ u, exec (.routeset p) s = .next u ∧ took u ∧ s.sent u q ready ∧
          ∀ x, x < 31 → u.rf (route x) 5 0 = if x = s.devIndex then s.rf (route x) 5 0 else f.num x 1 % 64)) ∧
      (f.ty = 2 →
        (s.manager = false ∨ idx ≠ f.src ∨ idx = 0 ∨ 30 < idx → recorded (.ready p)) ∧
        (s.manager = true → idx = f.src → 1 ≤ idx → idx ≤ 30 →
          (∀ j, 1 ≤ j → j ≤ 30 → ¬ (s.rb (Reg.RELAY_HTOPO.at j) 31 = true ∧ s.rf (Reg.RELAY_HTOPO.at j) 4 0 = idx)) →
          ∃ u, exec (.ready p) s = .next u ∧ took u ∧ u.out = s.out ∧ u.rb Reg.RELAY_HPRESENT.at idx = true ∧ idx ∉ u.relay.lost ∧ idx ∉ u.relay.assign)) ∧
      (dev ∉ s.relay.assign → exec (.assignRepeat dev) s = .next s) ∧
      (dev ∈ s.relay.assign → fld e 4 0 = 0 → fld e 10 8 = o → s.portOpen o 3 = true → s.routeTo dev = none → ∃ u, exec (.assignRepeat dev) s = .next u ∧
        s.sent u o { vl := 3, ty := 0, dst := 31, src := 0, tag := 0, info := 0, payload := pad64 (leBytes 1 dev ++ leBytes 1 (fld e 14 12) ++ leBytes 1 o ++
          leBytes 1 1 ++ leBytes 4 (s.rf Reg.RELAY_IMGOFS.at 23 0) ++ leBytes 4 (s.rf Reg.RELAY_IMGLEN.at 23 0)) } ∧ dev ∈ u.relay.assign) ∧
      (f.ty = 6 → f.info = 1 → ∃ u, exec (.loss p) s = .next u ∧ took u ∧ u.out = s.out ∧ u.relay.losses = s.relay.losses.filter (fun x => x != (f.src, idx))) ∧
      (f.ty = 6 → f.info ≠ 1 → s.routeTo f.src = some q → s.portOpen q 3 = true → idx ∈ s.relay.lost → ∃ u, exec (.loss p) s = .next u ∧ took u ∧
        s.sent u q { f with dst := f.src, src := s.devIndex, info := 1 }) ∧
      (f.ty = 6 → f.info ≠ 1 → idx ∉ s.relay.lost → idx ≤ 30 → idx ≠ s.devIndex → s.manager = false → ∃ u, exec (.loss p) s = .next u ∧ idx ∈ u.relay.lost ∧
        u.rb Reg.RELAY_HPRESENT.at idx = false) ∧
      (s.relay.losses = [] → exec .lossRepeat s = .next s) ∧
      (s.relay.losses = [(t, d)] → s.routeTo t = some q → s.portOpen q 3 = true → ∃ u, exec .lossRepeat s = .next u ∧ u.relay.losses = [(t, d)] ∧
        s.sent u q { vl := 3, ty := 6, dst := t, src := s.devIndex, tag := 0, info := 0, payload := pad64 (leBytes 1 d) }) ∧
      (f.ty = 7 → f.src ∉ s.relay.lost → f.src ≤ 30 → f.src ≠ s.devIndex → s.portQuiet p = true → ∃ u, exec (.leave p) s = .next u ∧ f.src ∈ u.relay.lost ∧
        u.rb Reg.RELAY_HPRESENT.at f.src = false ∧ ((∀ x, x < 6 → x ≠ p → s.isNeighbour x f.src = false) →
          (s.isNeighbour p f.src = true → u.portState p = 1 ∧ u.rf (Reg.RELAY_PORTSTAT.at p) 31 28 = 7) ∧
          (s.isNeighbour p f.src = false → u.portState p = s.portState p))) ∧
      ((∀ x, x < 6 → s.portState x ≠ 3) → exec .syncPeriod s = .next s) ∧
      (s.manager = true → s.portOpen q 3 = true → (∀ x, x < 6 → x ≠ q → s.portState x ≠ 3) → ∃ u, exec .syncPeriod s = .next u ∧
        s.sent u q (timeFlit 3 s.devIndex s.clk.etc) ∧ u.clk = s.clk) ∧
      (f.ty = 3 → s.upstream = some p → s.portOpen p 3 = true → ∃ u, exec (.sync p t2 t3) s = .next u ∧ took u ∧ s.sent u p (timeFlit 4 s.devIndex t3) ∧
        u.relay.t1 = f.num 0 8 ∧ u.relay.t2 = t2.toNat ∧ u.relay.t3 = t3.toNat) ∧
      (f.ty = 4 → s.portOpen p 3 = true → ∃ u, exec (.dreq p t2) s = .next u ∧ took u ∧ s.sent u p (timeFlit 5 s.devIndex t2)) ∧
      (f.ty = 5 → s.upstream = some p →
        ∃ u, exec (.dresp p) s = .next u ∧ (u.port p).rx = rest ∧ u.mem = s.mem ∧
          u.rf Reg.RELAY_TSTAT.at 15 0 = (BitVec.ofInt 16 (max (-32767) (min 32767 off))).toNat ∧
          (s.relay.fresh = true → u.clk.etc = stepped ∧ u.clk.copy = stepped ∧ u.rb Reg.RELAY_TSTAT.at 31 = true ∧ u.relay.fresh = false) ∧
          (s.relay.fresh = false → -1000 ≤ off → off ≤ 1000 → u.clk = s.clk ∧ u.cores = s.cores) ∧
          (s.relay.fresh = false → off < -1000 ∨ 1000 < off → u.clk.etc = stepped ∧
            u.rf Reg.RELAY_TSTAT.at 23 16 = min 255 (s.rf Reg.RELAY_TSTAT.at 23 16 + 1))) ∧
      ((f.ty = 3 → s.upstream ≠ some p → ∃ u, exec (.sync p t2 t3) s = .next u ∧ took u ∧ u.out = s.out ∧ u.relay.t1 = s.relay.t1) ∧
        (f.ty = 5 → s.upstream ≠ some p → ∃ u, exec (.dresp p) s = .next u ∧ took u ∧ u.clk = s.clk)))

/-! ## Host endpoint -/

/-- Requests of the host (R395-R397, R399-R402, R404, R405, R409, R416): a configuration request answers CRS before the image is applied, Unsupported Request for an
absent function, and else its dword; BAR requests answer Unsupported Request while closed; BAR0 takes aligned dwords only, of which the ring page and
FSTAT are stated; BAR2 reads and writes memory through the window that applies, with the function's tag, and is refused without one; a poisoned write is
recorded and reaches no register, and leaves the lines of a window poisoned.

Outbound reads (R408, R409, R412): a completion's data reaches the load or ring pair that waits for it, errors, malformed completions, poison and data that the endpoint's buffers lost end it so, a squashed read's
completion is counted in SQUASHCNT; a completion timeout is counted, recorded and an error; each frees the tag. Where the manual is silent its clauses state the model's choices of log entries 7, 28. -/
def Obligations.HostTransactions : Prop :=
  (∀ (s : State) (fn : BitVec 8) (off : BitVec 12) (x n i r : Nat) (w : Option (W32 × BitVec 4)) (wr : Option W32) (bw : Option (List Byte)) (ep : Bool) (chk : EpCheck)
      (v : W32) (bs : List Byte),
      let f := fn.toNat
      let o := off.toNat / 4 * 4
      let up := s.rb Reg.HOSTEP_LINKSTAT.at 0 = true
      let fun_ := s.hostFn f
      let cpl (st ep : Nat) (data : List Nat) : Out := { kind := .hostCpl, port := f, data := st :: ep :: data }
      let tells (ins : Instr) (out : List Out) : Prop := exec ins s = .next { s with out := s.out ++ out }
      let t : AccessTag := { world := false, pid := s.fnPid f, cls := 2, src := f }
      let recorded (u : State) (unit code m aer : Nat) : Prop := (u.hostFn f).aer = fun_.aer ||| 2 ^ aer ∧ u.css = s.css ∧ u.host.pages = s.host.pages ∧
        u.host.msix = s.host.msix ∧ ∀ b j, b < 48 → j < 16 → u.reg (Reg.ERRREC_REC_STATUS.at b j) =
          (s.record { bank := 43, unit := unit, code := code, sev := .deferred, tag := some t, misc0 := m }).reg (Reg.ERRREC_REC_STATUS.at b j)
      let open_ := s.fnPresent f = true ∧ fun_.mse = true ∧ fun_.d3 = false
      let size0 := if f = 0 then 2 ^ 20 else 2 ^ 16
      let size2 := if f = 0 then 2 ^ 28 else 2 ^ 21
      let bar0 := up ∧ x + n ≤ size0
      let bar2 (m : Nat) := up ∧ x + m ≤ size2 ∧ x / 4096 = (x + m - 1) / 4096
      let q := 4 * f + r
      let page := (if f = 0 then 0x10000 else 0x1000) + r * 0x1000
      let dword (a : Nat) (z : W32) : Prop := x = a → tells (.bar0Request fn x 4 none false) [cpl 0 0 [z.toNat]]
      let num (z : Nat) : W32 := BitVec.ofNat 32 z
      let pfWin (j : Nat) (write : Bool) : Prop := s.rb (Reg.HOSTEP_WIN_OFS.at j) 31 = true ∧ s.rb (Reg.HOSTEP_WIN_OFS.at j) (if write then 30 else 29) = true ∧
        s.rf (Reg.HOSTEP_WIN_OFS.at j) 15 0 ≤ x / 4096 ∧ x / 4096 ≤ s.rf (Reg.HOSTEP_WIN_LIM.at j) 15 0
      let vfWin (write : Bool) : Prop := s.rb (Reg.HOSTEP_VWIN_LO.at f) 0 = true ∧ s.rb (Reg.HOSTEP_VWIN_LO.at f) (if write then 2 else 1) = true
      let applies (write : Bool) : Prop := (f = 0 ∧ i < 16 ∧ pfWin i write ∧ ∀ j, j < i → ¬ pfWin j write) ∨ (f ≠ 0 ∧ vfWin write)
      let none_ (write : Bool) : Prop := (f = 0 ∧ ∀ j, j < 16 → ¬ pfWin j write) ∨ (f ≠ 0 ∧ ¬ vfWin write)
      let a := if f = 0 then s.rf (Reg.HOSTEP_WIN_PA_LO.at i) 31 12 * 2 ^ 12 + s.rf (Reg.HOSTEP_WIN_PA_HI.at i) 11 0 * 2 ^ 32 + x - s.rf (Reg.HOSTEP_WIN_OFS.at i) 15 0 * 4096
        else s.rf (Reg.HOSTEP_VWIN_LO.at f) 31 21 * 2 ^ 21 + s.rf (Reg.HOSTEP_VWIN_HI.at f) 11 0 * 2 ^ 32 + x
      (¬ up → exec (.configurationRequest fn off w) s = .next s ∧ exec (.bar0Request fn x n wr ep) s = .next s ∧ exec (.bar2Request fn x n bw ep chk) s = .next s) ∧
      (up → s.memc.applied = false → s.bootProfile = false → tells (.configurationRequest fn off w) [cpl 2 0 []]) ∧
      (up → s.memc.applied = true → s.fnPresent f = false → tells (.configurationRequest fn off w) [cpl 1 0 []]) ∧
      (up → s.memc.applied = true → s.fnPresent f = true →
        (∀ z, s.cfgRead f o = (z, 0) → tells (.configurationRequest fn off none) [cpl 0 0 [z.toNat]]) ∧
        (∀ z m : W32, s.cfgRead f o = (z, m) → m ≠ 0 → ∃ y : W32, y &&& ~~~ m = z &&& ~~~ m ∧ exec (.configurationRequest fn off none) s =
          .next { s.took with out := s.out ++ [cpl 0 0 [y.toNat]] }) ∧
        (o = 0 → tells (.configurationRequest fn off none) [cpl 0 0 [if f = 0 then (Config.vendor ||| 0xA0080000#32).toNat else 0xFFFFFFFF]]) ∧
        (o = 8 → tells (.configurationRequest fn off none) [cpl 0 0 [0x08800011]]) ∧
        (o = 4 → f ≠ 0 → bit v 2 = fun_.bme → ∃ u, exec (.configurationRequest fn off (some (v, 15))) s = .next u ∧ u.out = s.out ++ [cpl 0 0 []] ∧
          u.hostFn f = { fun_ with mse := bit v 1, intxOff := bit v 10 } ∧ u.rb (Reg.HOSTEP_FSTATD.at f) 1 = bit v 1) ∧
        (o = 0x160 → f = 0 → bit (Sparse.get (0 : W32) fun_.cfg 0x158) 0 = true →
          tells (.configurationRequest fn off (some (v, 15))) [cpl 0 0 []])) ∧
      (bar0 → ¬ open_ →
        (∃ u, exec (.bar0Request fn x n none ep) s = .next u ∧ recorded u 5 7 0 20 ∧ u.out = s.out ++ [cpl 1 0 []]) ∧
        (∃ u, exec (.bar0Request fn x n (some v) ep) s = .next u ∧ recorded u 5 7 0 20 ∧ u.out = s.out)) ∧
      (bar0 → open_ → n ≠ 4 ∨ x % 4 ≠ 0 →
        (∃ u, exec (.bar0Request fn x n none ep) s = .next u ∧ recorded u 5 7 0 15 ∧ u.out = s.out ++ [cpl 4 0 []]) ∧
        (∃ u, exec (.bar0Request fn x n (some v) ep) s = .next u ∧ recorded u 5 7 0 15 ∧ u.out = s.out)) ∧
      (bar0 → n = 4 → x % 4 = 0 → open_ → r < 4 →
        dword 0 (num (b2n fun_.fenced * 8 + b2n (s.rb Reg.CSS_STAT.at 0) * 4 + b2n (s.fnBound f) * 2 +
          b2n (s.fnBound f && s.rb Reg.CSS_STAT.at 0 && !fun_.fenced))) ∧
        dword page (s.page q).sqL ∧ dword (page + 0x14) (s.page q).intr ∧
        dword (page + 0x1C) (num (b2n (!(s.ring q).held.isEmpty) * 2 ^ 8 + b2n (s.page q).busy * 2 ^ 7 + (s.page q).result % 8 * 2 ^ 4 + b2n (s.ring q).fenced * 2 +
          b2n (s.ring q).enabled)) ∧
        dword (page + 0x20) (num (s.ring q).sqTail) ∧ dword (page + 0x28) (num (s.ring q).sqHead) ∧ dword (page + 0x2C) (num (s.ring q).cqTail) ∧
        (∃ u, exec (.bar0Request fn x 4 (some v) true) s = .next u ∧ recorded u 3 0x0B 0 12 ∧ u.out = s.out) ∧
        (x = page → ∃ u, exec (.bar0Request fn x 4 (some v) false) s = .next u ∧ u.page q = { s.page q with sqL := v } ∧ u.css = s.css ∧ u.regs = s.regs) ∧
        (x = page + 0x20 ∨ x = page + 0x24 → (s.ring q).enabled = false → exec (.bar0Request fn x 4 (some v) false) s = .next s)) ∧
      (bar2 n → ¬ open_ → ∃ u, exec (.bar2Request fn x n none ep chk) s = .next u ∧ recorded u 5 7 0 20 ∧ u.out = s.out ++ [cpl 1 0 []] ∧ u.mem = s.mem) ∧
      (bar2 n → open_ → none_ false → ∃ u, exec (.bar2Request fn x n none ep chk) s = .next u ∧ recorded u 4 9 x 15 ∧ u.out = s.out ++ [cpl 4 0 []] ∧ u.mem = s.mem) ∧
      (bar2 bs.length → open_ → none_ true → ∃ u, exec (.bar2Request fn x 0 (some bs) ep chk) s = .next u ∧ recorded u 4 9 x 15 ∧ u.out = s.out ∧ u.mem = s.mem) ∧
      (bar2 n → open_ → applies false → s.admits t false a = (s, none) → a < 2 ^ 40 → (∀ z, s.mem.poisonAt z = false) →
        tells (.bar2Request fn x n none ep .ok) [cpl 0 0 ((s.bytes a n).map BitVec.toNat)] ∧
        (∃ u, exec (.bar2Request fn x n none ep .bad) s = .next u ∧ recorded u 7 2 0 22 ∧ u.out = s.out ++ [cpl 0 1 ((s.bytes a n).map BitVec.toNat)])) ∧
      (bar2 bs.length → open_ → applies true → s.canonical = true → s.admits t true a = (s, none) → a < 2 ^ 40 →
        (∃ u, exec (.bar2Request fn x 0 (some bs) false .ok) s = .next u ∧ u.bytes a bs.length = bs ∧ u.out = s.out ∧
          ((∀ j, j < 4 → s.rb (Reg.DEBUG_BINJ_CTL.at j) 31 = false) → u.regs = s.regs)) ∧
        (∃ u, exec (.bar2Request fn x 0 (some bs) true .ok) s = .next u ∧ recorded u 3 0x0B 0 12 ∧ u.out = s.out ∧
          ∀ z, a ≤ z → z < a + bs.length → u.mem.poisonAt z = true))) ∧
  (∀ (s : State) (tag c q : Nat) (l : LoadWait) (bs : List Byte) (res : HostCpl) (chk : EpCheck) (r : HostRead), s.host.queue = [] →
      let k := s.core c
      let w := s.setCore c { k with wait := .load l }
      let value : W64 := if l.sext then (BitVec.ofNat (8 * bs.length) (leNat bs)).signExtend 64 else BitVec.ofNat 64 (leNat bs)
      let waits (x : HostRead) : Prop := Sparse.get none s.host.reads tag = some x
      let freed (u : State) : Prop := Sparse.get none u.host.reads tag = none ∧ u.css.ops = s.css.ops ∧ u.mem = s.mem ∧ u.out = s.out
      let counted (u : State) (a : Nat) : Prop := u.rf a 31 0 = min (2 ^ 32 - 1) (s.rf a 31 0 + 1)
      let t : AccessTag := { world := false, pid := s.fnPid r.fn, cls := 2, src := r.fn }
      let recorded (u : State) (unit code : Nat) : Prop := ∀ b j, b < 48 → j < 16 → u.reg (Reg.ERRREC_REC_STATUS.at b j) =
        (s.record { bank := 43, unit := unit, code := code, sev := .deferred, tag := some t }).reg (Reg.ERRREC_REC_STATUS.at b j)
      let ends (i : Instr) (g : ExtRes) (more : State → Prop) : Prop := ∃ u, exec i s = .next u ∧ freed u ∧ (u.ring q).got = some g ∧ more u
      (Sparse.get none s.host.reads tag = none → exec (.hostCompletion tag res chk) s = .next s ∧ exec (.completionTimeout tag) s = .next s) ∧
      (s.calm c = true → bs.length = 1 ∨ bs.length = 2 ∨ bs.length = 4 ∨ bs.length = 8 → l.size = bs.length → l.known = [] → l.base = none → l.fp = false →
        s.relay.parts = [] → waits { r with who := .core c 0, squashed := false } → ∃ u, exec (.hostCompletion tag (.data bs) .ok) w = .next u ∧ Sparse.get none u.host.reads tag = none ∧ u.mem = s.mem ∧
          u.core c = { k.setG l.rt value with lastTag := some (k.tag c) }.fallThrough) ∧
      (waits { r with who := .ring q, squashed := false } →
        ends (.hostCompletion tag (.data bs) .ok) (.bytes bs) (fun u => u.regs = s.regs) ∧
        ends (.hostCompletion tag .error .ok) (.fail 0x17) (fun u => u.regs = s.regs) ∧
        ends (.hostCompletion tag .poisoned .ok) (.fail 0x18) (fun u => recorded u 3 0x0B) ∧
        ends (.hostCompletion tag .malformed .ok) (.fail 0x17) (fun u => recorded u 5 7) ∧
        ends (.hostCompletion tag (.data bs) .bad) (.fail 0x18) (fun u => recorded u 7 2) ∧
        ends (.completionTimeout tag) (.fail 0x17) (fun u => counted u Reg.HOSTEP_CPLTOCNT.at ∧ (u.hostFn r.fn).aer = (s.hostFn r.fn).aer ||| 2 ^ 14)) ∧
      (waits { r with squashed := true } →
        (∃ u, exec (.hostCompletion tag res .ok) s = .next u ∧ freed u ∧ counted u Reg.HOSTEP_SQUASHCNT.at ∧ u.cores = s.cores ∧ u.css = s.css) ∧
        (∃ u, exec (.completionTimeout tag) s = .next u ∧ freed u ∧ u.regs = s.regs ∧ u.cores = s.cores ∧ u.css = s.css)))

/-- Ring pages (R263, R404): RPCMD is discarded while the function's BARs are closed (R401) and ignored while BUSY, ends DENIED for an unbound or fenced function and BADRECORD beyond the MSI-X table; ENABLE writes the
context record from the page's registers and enables the pair with it; DISABLE and FLUSH close an enabled pair without operations, and answer
BADSTATE for one that is not enabled (the last is the model's reading, log entry 20).

Interrupts, the mailbox and changes of a function (R406, R407, R411-R415, R417): INTPEND and Deassert_INTA; a message each way; a change of Bus Master Enable
with EVT.BME, and the messages it releases; a Function Level Reset, the clearing of VF Enable, D3hot to D0 and a link reset, which squash reads, empty
ring pairs, mask entries and reset registers but keep FBIND; a link that trains. Where the manual is silent its clauses state the model's choices of log entries 7, 8, 20, 28. -/
def Obligations.HostPagesAndFunctions : Prop :=
  (∀ (s : State) (q : BitVec 10), s.css.ops = [] → s.css.faults = [] → (∀ e ∈ s.css.subs, e.2.lost = false) → s.rb Reg.HOSTEP_LINKSTAT.at 0 = true →
      let k := q.toNat
      let f := k / 4
      let p := s.page k
      let g := s.ring k
      let ends (i : Instr) (res : Nat) (ring : RingPair) : Prop := ∃ u, exec i s = .next u ∧ u.page k = { p with busy := false, result := res } ∧ u.ring k = ring ∧
        u.out = s.out ∧ u.css.slots = s.css.slots
      let every (P : Instr → Prop) : Prop := P (.rpcmdEnable q) ∧ P (.rpcmdDisable q) ∧ P (.rpcmdFlush q)
      let opened := s.barOpen f = true
      let may := opened ∧ p.busy = false ∧ s.fnBound f = true ∧ (s.hostFn f).fenced = false
      let sl := fld p.cfg 3 0
      let cl := fld p.cfg 7 4
      let sq := p.sqL.toNat + p.sqH.toNat * 2 ^ 32
      let cq := p.cqL.toNat + p.cqH.toNat * 2 ^ 32
      let a := s.ringRecord k
      let image := leBytes 4 (1 + s.fnPid f * 2 ^ 8 + sl * 2 ^ 16 + cl * 2 ^ 20) ++ leBytes 4 p.intr.toNat ++ leBytes 8 sq ++ leBytes 8 cq ++ List.replicate 40 0
      (s.barOpen f = false → every (fun i => ∃ u, exec i s = .next u ∧ u.css = s.css ∧ u.host.pages = s.host.pages ∧ (u.hostFn f).aer = (s.hostFn f).aer ||| 2 ^ 20)) ∧
      (opened → p.busy = true → every (fun i => exec i s = .next s)) ∧
      (opened → p.busy = false → s.fnBound f = false ∨ (s.hostFn f).fenced = true → every (fun i => ends i 6 g)) ∧
      (may → msixSize f ≤ fld p.intr 9 0 → ends (.rpcmdEnable q) 2 g) ∧
      (may → fld p.intr 9 0 < msixSize f → g.enabled = true → g.fenced = false → ends (.rpcmdEnable q) 1 g) ∧
      (may → fld p.intr 9 0 < msixSize f → g.enabled = false → 4 ≤ sl → sl ≤ cl → cl ≤ 12 → sq % (8 * 2 ^ sl) = 0 → cq % (32 * 2 ^ cl) = 0 → a < 2 ^ 40 →
        s.admits cssTag true a = (s, none) → s.admits cssTag false a = (s, none) → s.mem.poisonAt a = false →
        ∃ u, exec (.rpcmdEnable q) s = .next u ∧ u.page k = { p with busy := false, result := 0 } ∧ u.bytes a 64 = image ∧
          u.ring k = { RingPair.empty with
            enabled := true, cfg := 1 + s.fnPid f * 2 ^ 8 + sl * 2 ^ 16 + cl * 2 ^ 20, intr := p.intr.toNat, sqBase := sq, cqBase := cq, reserved := g.reserved }) ∧
      (may → g.enabled = true → g.world = false → g.closing = 0 → g.held = [] → s.ringInFlight k = 0 →
        ends (.rpcmdDisable q) 0 { g with enabled := false, closing := 0 } ∧ ends (.rpcmdFlush q) 0 { g with enabled := false, closing := 0 }) ∧
      (may → g.enabled = false → ends (.rpcmdDisable q) 1 g ∧ ends (.rpcmdFlush q) 1 g)) ∧
  (∀ (s : State) (fn : BitVec 8) (r t m : Nat) (en perst : Bool) (v : W32) (speed : BitVec 4) (width : BitVec 5) (rd : HostRead), r < numCores →
      let f := fn.toNat
      let fun_ := s.hostFn f
      let stat := Reg.HOSTEP_FSTATD.at f
      let msg (f : Nat) (data : List Nat) : Out := { kind := .msi, port := f, data := data }
      let word (i : Nat) := Sparse.get (0 : W32) s.host.mb i
      let entry (v : Nat) := s.msix f v
      let link := Reg.HOSTEP_LINKSTAT.at
      let event (u : State) (b : Nat) : Prop := u.rb Reg.HOSTEP_EVT.at b = true
      let idle := s.css.ops = [] ∧ s.css.slots = [] ∧ s.css.faults = [] ∧ s.host.queue = [] ∧ (∀ e ∈ s.css.subs, e.2.lost = false) ∧ (∀ e ∈ s.host.reads, ∀ x, e.2 = some x → ∃ q, x.who = .ring q)
      let emptied (u : State) (g : Nat) : Prop := u.hostFn g = { HostFn.reset with aer := (s.hostFn g).aer } ∧ u.rf (Reg.HOSTEP_FSTATD.at g) 2 0 = 0 ∧
        u.rf (Reg.HOSTEP_FSTATD.at g) 6 5 = 0 ∧ (∀ j, j < 4 → u.ring (4 * g + j) = RingPair.empty ∧ u.page (4 * g + j) = RingPage.reset) ∧
        ∀ j, j < msixSize g → (u.msix g j).ctl = (s.msix g j).ctl ||| 1 ∧ Sparse.get false u.host.pba (64 * g + j) = false
      let kept (u : State) : Prop := ∀ g, g < 256 → u.reg (Reg.HOSTEP_FBIND.at g) = s.reg (Reg.HOSTEP_FBIND.at g) ∧ u.reg (Reg.HOSTEP_VWIN_LO.at g) = s.reg (Reg.HOSTEP_VWIN_LO.at g)
      let alone (u : State) : Prop := kept u ∧ u.mem = s.mem ∧ ∀ g, g ≠ f → u.hostFn g = s.hostFn g ∧ ∀ j, j < 4 → u.ring (4 * g + j) = s.ring (4 * g + j)
      (s.rb link 0 = true → s.barOpen 0 = true → ∃ u, exec (.intpendClear v) s = .next u ∧ u.host.intpend = s.host.intpend &&& ~~~ (BitVec.truncate 16 v) ∧ u.regs = s.regs ∧
        (s.host.inta = true → (s.hostFn 0).intxOff = false → u.out = if u.host.intpend = 0 then s.out ++ [msg 0 [0xA1]] else s.out)) ∧
      (s.rb link 0 = true → s.barOpen 0 = false → ∀ i ∈ [Instr.intpendClear v, .mbdbSend], ∃ u, exec i s = .next u ∧ u.host.intpend = s.host.intpend ∧ u.css = s.css ∧
        (u.hostFn 0).aer = (s.hostFn 0).aer ||| 2 ^ 20) ∧
      (s.rb link 0 = true → s.barOpen 0 = true → s.boot.run = none → ∃ u, exec .mbdbSend s = .next u ∧ event u 4 ∧ u.host = s.host ∧ ∀ i, i < 4 → u.reg (Reg.HOSTEP_MB_H2G.at i) = word (4 + i)) ∧
      (∃ u, exec (.mbsend (.core r)) s = .next u ∧ (∀ i, i < 4 → Sparse.get 0 u.host.mb i = s.reg (Reg.HOSTEP_MB_G2H.at i)) ∧
        Sparse.get 0 u.host.mb 8 = word 8 ||| 0x10000 ∧ u.regs = s.regs ∧ (bit (word 8) 15 = false → u.out = s.out) ∧
        (bit (word 8) 15 = true → s.msixOpen 0 (fld (word 8) 5 0) = true →
          u.out = s.out ++ [msg 0 [(s.msix 0 (fld (word 8) 5 0)).addrL.toNat + (s.msix 0 (fld (word 8) 5 0)).addrH.toNat * 2 ^ 32, (s.msix 0 (fld (word 8) 5 0)).data.toNat]])) ∧
      (s.fnPresent f = false ∨ fun_.bme = en → exec (.bmeChange fn en) s = .next s) ∧
      (s.fnPresent f = true → fun_.bme = true → ∃ u, exec (.bmeChange fn false) s = .next u ∧ u.hostFn f = { fun_ with bme := false } ∧ event u 2 ∧
        u.rb stat 0 = false ∧ u.out = s.out) ∧
      (s.fnPresent f = true → fun_.bme = false → (∀ j, j < 4 → (s.ring (4 * f + j)).held = []) → m < msixSize f → fun_.msixEn = true → fun_.fnMask = false → fun_.d3 = false →
        bit (entry m).ctl 0 = false → (∀ j, j < msixSize f → (Sparse.get false s.host.pba (64 * f + j) = true ↔ j = m)) →
        ∃ u, exec (.bmeChange fn true) s = .next u ∧ u.hostFn f = { fun_ with bme := true } ∧ event u 2 ∧ u.rb stat 0 = true ∧
          Sparse.get false u.host.pba (64 * f + m) = false ∧ u.out = s.out ++ [msg f [(entry m).addrL.toNat + (entry m).addrH.toNat * 2 ^ 32, (entry m).data.toNat]]) ∧
      (s.fnPresent f = false → exec (.flr fn) s = .next s) ∧
      (s.fnPresent f = true → f ≠ 0 → idle → ∃ u, exec (.flr fn) s = .next u ∧ emptied u f ∧ alone u ∧ event u 1 ∧
        (Sparse.get none s.host.reads t = some rd → Sparse.get none u.host.reads t = some { rd with squashed := rd.squashed || decide (rd.fn = f) })) ∧
      (s.fnPresent f = true → f ≠ 0 → s.css.ops = [] → s.css.log = [] → (∀ e ∈ s.css.subs, e.2.lost = false) → s.host.reads = [] → s.host.queue = [] →
        (∀ e ∈ s.css.slots, e.1 = m) →
        (s.slot m).ring / 4 = f → (s.slot m).st = 4 → (s.slot m).orphan = false → (s.slot m).mirrored = false →
        ∃ u, exec (.flr fn) s = .next u ∧ (u.slot m).orphan = true ∧ (u.slot m).ocause = 3 ∧ event u 1) ∧
      (idle → ∃ u, exec (.flr 0) s = .next u ∧ event u 1 ∧ kept u ∧ u.host.intpend = 0 ∧ ∀ g, g < 256 → emptied u g ∧ (g ≠ 0 → u.fnPresent g = false)) ∧
      (bit (Sparse.get (0 : W32) (s.hostFn 0).cfg 0x158) 0 = false → exec .vfEnableClear s = .next s) ∧
      (bit (Sparse.get (0 : W32) (s.hostFn 0).cfg 0x158) 0 = true → idle → ∃ u, exec .vfEnableClear s = .next u ∧ event u 1 ∧ kept u ∧
        (∀ g, 1 ≤ g → g < 256 → emptied u g ∧ u.fnPresent g = false) ∧ (u.hostFn 0).bme = (s.hostFn 0).bme ∧ (u.hostFn 0).mse = (s.hostFn 0).mse ∧
        ∀ j, j < 4 → u.ring j = s.ring j) ∧
      (fun_.d3 = false → exec (.d3hotToD0 fn) s = .next s) ∧
      (fun_.d3 = true → f ≠ 0 → idle → ∃ u, exec (.d3hotToD0 fn) s = .next u ∧ emptied u f ∧ alone u ∧ event u 1 ∧ event u 3) ∧
      (idle → s.boot.run = none → Sparse.wf (fun _ => HostFn.reset) s.host.fns = true → ∃ u, exec (.linkReset perst) s = .next u ∧ u.rb link 0 = false ∧ u.rb link 1 = perst ∧ u.rf link 11 8 = 0 ∧ u.rf link 20 16 = 0 ∧ kept u ∧
        u.host.reads = [] ∧ (s.rb link 0 = true → event u 0) ∧ ∀ g, g < 256 → u.hostFn g = HostFn.reset ∧ ∀ j, j < 4 → u.ring (4 * g + j) = RingPair.empty) ∧
      (s.rb link 0 = false → 1 ≤ speed.toNat → speed.toNat ≤ 5 → width.toNat ∈ [1, 4, 8, 16] → ∃ u, exec (.linkUp speed width) s = .next u ∧ u.rb link 0 = true ∧
        u.rb link 1 = false ∧ u.rf link 11 8 = speed.toNat ∧ u.rf link 20 16 = width.toNat ∧ event u 0 ∧ u.host = s.host ∧ u.css = s.css) ∧
      (s.rb link 0 = true ∨ width.toNat ∉ [1, 4, 8, 16] → exec (.linkUp speed width) s = .next s))

/-! ## Sealed world and debug -/

/-- The sealed-world restart (R437-R442, R464): without a request nothing happens, and K and U cannot request it; a request abandons the cores at M, clears keys,
grants and regime-M translations and loads the booted set's SWI; verified, every released core owes a restart entry, SMEAS and COUNT move on;
otherwise FAIL and a Fatal record, and no core enters M. A core that owes the entry takes it in place of its next instruction.

The authenticated unlock (R443-R446): CHAL draws a nonce and marks it valid; GO consumes it and stops at the first check that fails, whose code it leaves in
RESULT with a failure counted and recorded; on OK the enables named join those in force, and where SEAL_INV comes to be set Cask reads zero and every
key slot is cleared; RELOCK ends the token enables, and with SEAL_INV a halt at M. Where the manual is silent its clauses state the model's choices of log entries 7, 8, 29, 30. -/
def Obligations.SealedRestartAndUnlock : Prop :=
  (∀ (s t : State) (c r x : Nat) (set : BootSet) (b : Booted) (man : List Byte) (d a1 a2 : RegNo) (gone : Bool), r < numCores → c < numCores → x < 64 →
      s.boot.booted = some b →
      let st := Reg.SYSCTL_SRSTAT.at
      let k := s.core c
      let asks := (s.core r).lvl = 3 ∨ ((s.core r).lvl = 2 ∧ s.rb Reg.SYSCTL_SRCTL.at 1 = false)
      let left (u : State) : Prop := u.rb st 31 = false ∧ u.keyValid x = false ∧ u.rf Reg.DEBUG_AUTH.at 9 8 = 0 ∧ (∀ e ∈ (u.core c).tlb ++ (u.core c).iTlb ++ (u.core c).dTlb, e.regime ≠ .m) ∧
        (k.released = true → k.lvl = 3 → (u.core c).restart = some true ∧ (u.core c).wait = .none ∧ u.rb (Reg.DEBUG_CORECTL.at c) 30 = false ∧
          (u.core c).halted = false)
      let fails (i : Instr) : Prop := ∃ u, exec i s = .next u ∧ left u ∧ u.rb st 30 = true ∧ u.mHeld c = decide ((u.core c).lvl ≠ 3) ∧
        (k.lvl ≠ 3 → k.restart = none → (u.core c).restart = none) ∧ u.reg Reg.SYSCTL_SMEAS.at = s.reg Reg.SYSCTL_SMEAS.at ∧
        ∀ j, j < 16 → u.reg (Reg.ERRREC_REC_STATUS.at 47 j) =
          (s.record { bank := 47, unit := 0x20, code := 0x07, sev := .fatal }).reg (Reg.ERRREC_REC_STATUS.at 47 j)
      let quiet := ∀ d, (s.core d).sbuf = []
      let clean : State := ((List.range numCores).foldl (fun s c => s.abandon c) s).restartClean
      let sp : W64 := BitVec.ofNat 64 (b.stack.getD c 0) - 16
      let fresh : Core := ({ k with restart := none, gs := Sparse.set 0 k.gs 2 (BitVec.ofNat 64 c) }.swr 0x900 0).swr 0xCC0 0
      let w := s.setCore c fresh
      let epc : W64 := if gone then k.mEpc else k.pc
      let estat := (if gone then k.mStat else fld k.stat 9 0) + b2n gone * 2 ^ 32
      let bytes := (List.range 8).map (fun i => (sp.toNat + i, BitVec.ofNat 8 (epc.toNat / 256 ^ i))) ++
        (List.range 8).map (fun i => (sp.toNat + 8 + i, BitVec.ofNat 8 (estat / 256 ^ i)))
      (s.rb st 31 = false →
        exec (.sealedRestart none set) s = .next s ∧
        ((s.core r).lvl < 2 ∨ ((s.core r).lvl = 2 ∧ s.rb Reg.SYSCTL_SRCTL.at 1 = true) →
          ∃ u, exec (.sealedRestart (some (.core r)) set) s = .next u ∧ u.cores = s.cores ∧ u.rb st 31 = false ∧ u.out = s.out) ∧
        (quiet → asks → set.manifest = none → fails (.sealedRestart (some (.core r)) set))) ∧
      (quiet → s.rb st 31 = true → set.manifest = none ∨ 2 ≤ b.src → fails (.sealedRestart none set)) ∧
      (quiet → s.rb st 31 = true → b.src < 2 → clean.verifySet set none true = (t, .ok man) →
        ∃ u, exec (.sealedRestart none set) s = .next u ∧ left u ∧ u.rb st 30 = s.rb st 30 ∧ u.rf st 23 16 = min 255 (s.rf st 23 16 + 1) ∧
          u.rf Reg.KILN_LDR_STAT.at 21 16 = manSvn man % 64 ∧ (k.released = true → k.lvl ≠ 3 → (u.core c).restart = some false) ∧
          u.smeas = (Config.digest 1 [] (s.smeas ++ Config.digest 1 [] (t.bytes (compAt man 0).load (compAt man 0).len)) ++ List.replicate 48 0).take 48 ∧
          u.boot.booted = some { bootedOf man b.src b.slot with sev := b.sev }) ∧
      (s.runs c = true → s.haltDue c = false → k.restart = some gone → k.itr = false → k.sbuf = [] → sp.toNat % 16 = 0 → w.plainAt c 3 true sp 8 = true → w.plainAt c 3 true (sp + 8) 8 = true →
        ∃ u, exec (.add c d a1 a2) s = .next u ∧ (u.core c).pc = BitVec.ofNat 64 (b.entry % 2 ^ 64 / 4 * 4) ∧ (u.core c).restart = none ∧
          (u.core c).stat = statWord 3 0xF true false ∧ (u.core c).spOf 3 = sp ∧ (u.core c).g 2 = BitVec.ofNat 64 c ∧
          (u.core c).sbuf.map (fun e => e.bytes) = [bytes])) ∧
  (∀ (s : State) (r c x a : Nat), r < numCores → c < numCores → x < 64 → 0x1000000 ≤ a → a < 0x1200000 →
      let u0 := Reg.DEBUG_UNLOCK.at
      let b := (s.regBytes Reg.DEBUG_TOKBUF.at 1378).take 5509
      let sub (o n : Nat) : List Byte := (b.drop o).take n
      let en := beAt b 6 2
      let lc := s.rf Reg.BOOT_LCS.at 2 0
      let stat := s.reg Reg.BOOT_KEYSTAT.at
      let locked := s.rb Reg.DEBUG_AUTH.at 16 = true ∨ 8 ≤ s.rf u0 19 16
      let form := sub 0 4 = [0x44, 0x54, 0x4F, 0x4B] ∧ beAt b 4 2 = 1 ∧ 1 ≤ en ∧ en ≤ 15 ∧ beAt b 0x34 4 = 0
      let nonce := s.rb u0 0 = true ∧ sub 0x10 32 = s.regBytes Reg.DEBUG_NONCE.at 8
      let device := sub 8 8 = Config.serial
      let cycle := nfld (beAt b 0x30 4) lc lc ≠ 0 ∧ lc ≠ 4
      let key := ∃ n, n < 2 ∧ bit stat (8 + n) = true ∧ bit stat (10 + n) = false ∧ Config.digest 1 [] (sub 0x38 0x800) = Config.debugKeyHash n
      let signed := Config.verify 1 (sub 0 0x838) (sub 0x38 96 ++ sub 0x838 96) = true ∧ Config.verify 2 (sub 0 0x838) (sub 0x98 1952 ++ sub 0x898 3309) = true
      let ends (res : Nat) (more : State → Prop) : Prop := ∃ u, exec (.unlock (.core r)) s = .next u ∧ u.rf u0 27 24 = res ∧ u.rb u0 0 = false ∧ more u
      let failed (u : State) : Prop := u.rf u0 19 16 = min 8 (s.rf u0 19 16 + 1) ∧ u.boot = s.boot ∧ u.mem = s.mem ∧ u.cores = s.cores ∧
        u.reg Reg.DEBUG_AUTH.at = s.reg Reg.DEBUG_AUTH.at
      let inForce (token : Nat) : Nat := if lc = 0 then 15 else if lc = 1 ∨ lc = 3 then (token % 16) ||| 3 else if lc = 2 then (token % 16) ||| s.rf Reg.DEBUG_AUTH.at 9 8 else 0
      (s.rb Reg.KILN_RNGSTAT.at 0 = true → ∃ u, exec (.chal (.core r)) s = .next u ∧ u.rb u0 0 = true ∧ u.freeCtr = s.freeCtr + 8 ∧ u.mem = s.mem ∧
        (∀ i, i < 8 → u.reg (Reg.DEBUG_NONCE.at i) = BitVec.ofNat 32 (Config.freeNat (s.freeCtr + i))) ∧ u.rf u0 27 24 = s.rf u0 27 24) ∧
      (locked → ends 2 failed) ∧
      (¬ locked → ¬ form → ends 3 failed) ∧
      (¬ locked → form → ¬ nonce → ends 4 failed) ∧
      (¬ locked → form → nonce → ¬ device → ends 5 failed) ∧
      (¬ locked → form → nonce → device → ¬ cycle → ends 6 failed) ∧
      (¬ locked → form → nonce → device → cycle → ¬ key → ends 7 failed) ∧
      (¬ locked → form → nonce → device → cycle → key → ¬ signed → ends 8 failed) ∧
      (¬ locked → form → nonce → device → cycle → key → signed → ends 1 (fun u => u.boot.token = s.boot.token ||| en ∧
        u.rf Reg.DEBUG_AUTH.at 3 0 = inForce (s.boot.token ||| en) ∧ u.rf u0 19 16 = s.rf u0 19 16 ∧
        (8 ≤ en → s.rb Reg.DEBUG_AUTH.at 3 = false → u.mem.cell a = 0 ∧ u.keyValid x = false))) ∧
      (∃ u, exec (.relock (.core r)) s = .next u ∧ u.boot.token = 0 ∧ u.rf Reg.DEBUG_AUTH.at 3 0 = (if lc = 0 then 15 else if lc = 1 ∨ lc = 3 then 3 else 0) ∧ u.rf Reg.DEBUG_AUTH.at 9 8 = 0 ∧ u.mem = s.mem ∧ u.rf u0 27 24 = s.rf u0 27 24 ∧
        (s.rb Reg.DEBUG_AUTH.at 3 = true → lc ≠ 0 → (s.core c).lvl = 3 → (s.core c).halted = true → (u.core c).halted = false ∧ (u.core c).pc = (s.core c).pc ∧
          u.rb (Reg.DEBUG_CORECTL.at c) 31 = false)))

/-- Halting and instruction transfer (R448, R449): HALT stops a core at a boundary where the enable of its world is set and else stays pending; RESUME lets it go on
and STEP for one instruction; a word in ITR executes once with PC unchanged, one that is undefined sets ERR with its vector, and on a core that is not
halted a write of ITR has no effect.

JTAG (R450, R451): IDCODE; the boundary register, which drives the pins under EXTEST and CLAMP and takes the shifted bits; HIGHZ; BYPASS, which stands for
EXTEST, CLAMP and HIGHZ in PRODUCTION, for DAP in SCRAPPED and for unassigned codes; a DAP shift answers the access before it and performs its
own: denied without an enable outside DEBUG, an error where no block is, else a register read or write. Where the manual is silent its clauses state the model's choices of log entries 7, 30. -/
def Obligations.HaltedCoresAndJtag : Prop :=
  (∀ (s : State) (r c : Nat) (d a b : RegNo) (v : W32), r < numCores → c < numCores →
      let k := s.core c
      let ctl := Reg.DEBUG_CORECTL.at c
      let enabled := s.rb Reg.DEBUG_AUTH.at (if k.lvl = 3 then 3 else 1) = true
      let w := s.setCore c { k with halted := false, itr := true }
      let add : W32 := BitVec.ofNat 32 (2 ^ 26 + d.toNat * 2 ^ 21 + a.toNat * 2 ^ 16 + b.toNat * 2 ^ 11)
      let others (u : State) : Prop := (∀ e, e ≠ c → u.core e = s.core e) ∧ u.mem = s.mem ∧ u.out = s.out
      (s.calm c = true → k.late = [] → enabled → ∃ u, exec (.halt (.core r) c) s = .next u ∧ u.core c = { k.endHold with halted := true, stepping := false } ∧
        u.rb ctl 31 = true ∧ u.rb ctl 30 = false ∧ u.rf ctl 17 16 = k.lvl ∧ others u) ∧
      (k.halted = false → ¬ enabled → ∃ u, exec (.halt (.core r) c) s = .next u ∧ u.cores = s.cores ∧ u.rb ctl 30 = true ∧ u.rb ctl 31 = s.rb ctl 31 ∧ others u) ∧
      (k.halted = true → s.rb ctl 30 = false →
        (∃ u, exec (.resume (.core r) c) s = .next u ∧ u.core c = { k with halted := false, stepping := false } ∧ u.rb ctl 31 = false ∧ others u) ∧
        (∃ u, exec (.step (.core r) c) s = .next u ∧ u.core c = { k with halted := false, stepping := true } ∧ u.rb ctl 31 = false ∧ others u) ∧
        (w.runs c = true → k.late = [] →
          (∃ u, exec (.itr (some (.core r)) c add) s = .next u ∧ (u.core c).pc = k.pc ∧ (u.core c).halted = true ∧ u.rb ctl 29 = s.rb ctl 29 ∧
            (∀ x, (u.core c).g x = (k.setG d.toNat (k.g a.toNat + k.g b.toNat)).g x) ∧ others u) ∧
          (∃ u, exec (.itr (some (.core r)) c 0) s = .next u ∧ (u.core c).pc = k.pc ∧ (u.core c).halted = true ∧ u.rb ctl 29 = true ∧ u.rf ctl 28 23 = 1 ∧
            (u.core c).gs = k.gs ∧ others u))) ∧
      (k.halted = false → Sparse.get none s.boot.itr c = none → exec (.itr (some (.core r)) c v) s = .next s ∧ exec (.itr none c v) s = .next s)) ∧
  (∀ (s : State) (bits : List Bool) (code : BitVec 8) (tdi : Bool) (v : W64),
      let lc := s.rf Reg.BOOT_LCS.at 2 0
      let tdo (data : List Nat) : Out := { kind := .tdo, port := 0, data := data }
      let pins (port : Nat) (data : List Nat) : Out := { kind := .pin, port := port, data := data }
      let tells (i : Instr) (out : List Out) : Prop := exec i s = .next { s with out := s.out ++ out }
      let passed (l : List Bool) : Out := tdo ((0 :: l.map b2n).take (max 1 l.length))
      let a := 0x10000000 + fld v 27 2 * 4
      let inv := s.rb Reg.DEBUG_AUTH.at 1 = true ∨ s.rb Reg.DEBUG_AUTH.at 3 = true
      let outside := ¬ (0x18000000 ≤ a ∧ a < 0x19000000) ∧ ¬ (0x17000000 ≤ a ∧ a < 0x18000000)
      let leaves (x : W64) (more : State → Prop) : Prop := ∃ u, exec (.dap v) s = .next u ∧ u.jtag.dap = x ∧ u.jtag.boundary = s.jtag.boundary ∧
        u.out = s.out ++ [tdo [s.jtag.dap.toNat]] ∧ more u
      tells .idcode [tdo [2 ^ 28 + 0xA008 * 2 ^ 12 + Config.maker.toNat * 2 + 1]] ∧
      (∃ u, exec (.samplePreload bits) s = .next u ∧ u.jtag = { s.jtag with boundary := bits } ∧ u.regs = s.regs ∧ u.cores = s.cores ∧ u.mem = s.mem ∧
        ∃ x, x < 2 ^ bits.length ∧ u.out = s.out ++ [tdo [x]]) ∧
      (lc ≠ 2 → (∃ u, exec (.extest bits) s = .next u ∧ u.jtag = { s.jtag with boundary := bits } ∧ u.regs = s.regs ∧ u.cores = s.cores ∧ u.mem = s.mem ∧
          ∃ x, x < 2 ^ bits.length ∧ u.out = s.out ++ [tdo [x], pins 2 (bits.map b2n)]) ∧
        tells .clamp [pins 2 (s.jtag.boundary.map b2n), passed []] ∧ tells .highz [pins 3 [], passed []]) ∧
      (lc = 2 → tells (.extest bits) [passed bits] ∧ tells .clamp [passed []] ∧ tells .highz [passed []]) ∧
      (code.toNat ∉ [0x00, 0x01, 0x02, 0x04, 0x05, 0x10] → tells (.bypass code tdi) [passed [tdi]]) ∧
      (lc = 4 → tells (.dap v) [passed []]) ∧
      (lc ≠ 4 → bit v 0 = false → tells (.dap v) [tdo [s.jtag.dap.toNat]]) ∧
      (lc ≠ 4 → bit v 0 = true → outside → ¬ inv → leaves 3 (fun u => u.regs = s.regs ∧ u.cores = s.cores ∧ u.mem = s.mem)) ∧
      (lc ≠ 4 → bit v 0 = true → outside → inv → blockOf a = none → leaves 2 (fun u => u.cores = s.cores ∧ u.mem = s.mem ∧ ∀ b j, b < 48 → j < 16 →
        u.reg (Reg.ERRREC_REC_STATUS.at b j) = (s.recordUnmapped { world := s.rb Reg.DEBUG_AUTH.at 3, pid := 0, cls := 6, src := 0 } a).reg (Reg.ERRREC_REC_STATUS.at b j))) ∧
      (lc ≠ 4 → bit v 0 = true → bit v 1 = false → a = Reg.BOOT_LCS.at → inv → leaves (BitVec.ofNat 64 ((s.reg Reg.BOOT_LCS.at &&& 0x80000007).toNat * 2 ^ 32))
        (fun u => u.regs = s.regs ∧ u.cores = s.cores)) ∧
      (lc ≠ 4 → bit v 0 = true → bit v 1 = true → a = Reg.GPIO_DOUT.at 0 → inv → leaves 0 (fun u => u.reg a = BitVec.ofNat 32 (fld v 63 32) ∧ u.cores = s.cores)))

/-! ## Boot, keys and the life cycle -/

/-- A full boot (R452-R458, R463, R465, R470, R473, R476): only when one is due; in SCRAPPED core 0 waits and a Fatal record is written; in BLANK and for order 7 the ROM
enters recovery under the boot profile; sources that are absent leave their SRCRES and then recovery with a record; the ACTIVE set of an xSPI source that
verifies and whose image applies is handed over: BSTAT, SMEAS, the work area zero, core 0 at the entry with the registers of R470.

What a boot waits for (R455, R462, R473-R475, R474): a source's time limit gives way to the next source; a UART0 frame out of order is asked for again, and in order
extends the manifest or the block, or completes a block, which is written and compared; END too early fails the set, and END of a whole set boots it;
without a boot that waits, frames do nothing, and a mailbox message only stands in the mailbox; a resume from PARK starts core 0 at RESUME where the digest
matches, and else is recorded and boots fully. Where the manual is silent its clauses state the model's choices of log entries 6, 7, 8, 14, 31, 32. -/
def Obligations.BootAndDownloads : Prop :=
  (∀ (s : State) (env : BootEnv) (k n : Nat) (man : List Byte) (t v : State),
      let lc := s.rf Reg.BOOT_LCS.at 2 0
      let q := Reg.BOOT_SEQCFG.at
      let code := if s.rb q 11 = true then s.rf q 10 8 else if k < 2 then env.seq.toNat else s.rf q 2 0
      let goes (more : State → Prop) : Prop := ∃ u, exec (.fullBoot env) s = .next u ∧ u.boot.due = none ∧ u.rb Reg.KILN_RNGSTAT.at 0 = true ∧
        (k < 2 → u.rb Reg.SYSCTL_ID.at 0 = env.manager) ∧ (k = 0 → u.rb Reg.MEMC_CASK_WIPE.at 1 = true) ∧ more u
      let record (u : State) (sev : Sev) : Prop := ∀ j, j < 16 → u.reg (Reg.ERRREC_REC_STATUS.at 47 j) =
        (s.record { bank := 47, unit := 0x23, code := 0x07, sev := sev }).reg (Reg.ERRREC_REC_STATUS.at 47 j)
      let recovery (u : State) : Prop := (∃ r, u.boot.run = some r ∧ r.recovery = true ∧ r.dl = none ∧ r.env = env ∧ r.kind = k) ∧ u.boot.booted = none ∧ u.cores = s.cores ∧
        u.reg (Reg.HOSTEP_FBIND.at 0) = 0x80000000 ∧ u.reg (Reg.HOSTEP_WIN_OFS.at 0) = 0xE0000000 ∧ u.reg (Reg.HOSTEP_WIN_LIM.at 0) = 0x1F ∧
        u.reg (Reg.HOSTEP_WIN_PA_LO.at 0) = 0x2F00000
      let absent (d : XspiDev) : Prop := d.answers = false ∨ (locatorOk d.loc0 = false ∧ locatorOk d.loc1 = false)
      let sl := slotAt env.x0 n
      let b := bootedOf man 0 n
      let w : State := if k = 0 then s.wipeCask 7 false else s
      let prep : State := ({ w with errOut := false, boot := { w.boot with due := none, run := none, booted := none } }.sample env k).setRb Reg.KILN_RNGSTAT.at 0 true
      let stat : W32 := BitVec.ofNat 32 (2 ^ 31 + n * 2 ^ 26 + b2n (manCompat man) * 2 ^ 25 + manSvn man * 2 ^ 16 + slotSeq sl.area % 2 ^ 16)
      let smeas := Config.digest 1 [] (List.replicate 48 0 ++ Config.digest 1 [] (manSigned man))
      (s.boot.due = none ∨ s.boot.due = some 5 ∨ s.clk.power ≠ .run → exec (.fullBoot env) s = .next s) ∧
      (s.boot.due = some k → k ≤ 4 → s.clk.power = .run → s.boot.powerUp = false →
        (lc = 4 → goes (fun u => (u.core 0).wait = .wev ∧ (u.core 0).released = (s.core 0).released ∧ record u .fatal)) ∧
        (lc = 0 ∨ (lc ≠ 4 ∧ code = 7) → goes recovery) ∧
        (lc ≠ 4 → lc ≠ 0 → code = 0 → absent env.x0 → absent env.x1 → goes (fun u => recovery u ∧ record u .contained ∧
          u.reg (Reg.BOOT_SRCRES.at 0) = 2 ∧ u.reg (Reg.BOOT_SRCRES.at 1) = 0x10000002)) ∧
        (lc ≠ 4 → lc ≠ 0 → code = 6 → k < 2 → env.manager = true → goes (fun u => recovery u ∧
          u.reg (Reg.BOOT_SRCRES.at 0) = 0x20000002)) ∧
        (lc ≠ 4 → lc ≠ 0 → code = 0 → env.x0.answers = true → locatorOk env.x0.loc0 = true → n < 2 → bootCandidates env.x0 = [(n, false)] →
          prep.verifySet sl.set (some (leAt env.x0.loc0 0x10 4)) false = (t, .ok man) →
          t.applyImage env k (t.bytes (compAt man 2).load (compAt man 2).len) = (v, none) → manSvn man < 64 →
          ∃ u, exec (.fullBoot env) s = .next u ∧ u.boot.booted = some b ∧ u.boot.run = none ∧ u.reg Reg.BOOT_BSTAT.at = stat ∧ u.reg (Reg.BOOT_SRCRES.at 0) = 1 ∧
            u.smeas = (smeas ++ List.replicate 48 0).take 48 ∧ u.rf Reg.KILN_LDR_STAT.at 21 16 = manSvn man ∧
            (∀ a, 0x2F00000 ≤ a → a < 0x3000000 → u.mem.cell a = 0) ∧ (u.core 0).released = true ∧ (u.core 0).stat = 0x1F7 ∧
            (u.core 0).pc = BitVec.ofNat 64 (if manCompat man = true then manCentry man 0 / 4 * 4 else (compAt man 0).entry / 4 * 4) ∧
            (u.core 0).spM = BitVec.ofNat 64 (manStack man 0) ∧ (u.core 0).g 1 = stat.zeroExtend 64 ∧ (u.core 0).g 2 = 0 ∧
            (manCompat man = false → ∀ c, 1 ≤ c → c < 48 → u.core c = v.core c)))) ∧
  (∀ (s v : State) (env : BootEnv) (r : BootRun) (d : Download) (idx : BitVec 16) (payload : List Byte) (buf : BitVec 8) (len blk : W32) (crc : W32) (b : SetBlock) (bk : Booted),
      let frame := BootMsg.uart idx payload crc
      let rows : List (Instr × Nat) := [(.manifest frame, 1), (.blockData frame, 2), (.endDownload frame, 3)]
      let sum (cmd : Nat) := crc32c (leBytes 1 cmd ++ leBytes 2 idx.toNat ++ leBytes 2 payload.length ++ payload)
      let answer (cmd status next : Nat) : Out := { kind := .uart, port := 0, data := [0x5A, cmd, status, next % 256, next / 256 % 256] }
      let running := s.boot.run = some r ∧ r.recovery = true ∧ r.dl = some d ∧ d.pcie = false
      let good (cmd : Nat) := idx.toNat = d.next ∧ payload.length ≤ 4096 ∧ sum cmd = crc.toNat
      let fresh (u : State) (x : Option Download) : Prop := u.boot.run = some { r with dl := x }
      let blocks := manBlocks d.man false
      let writable := b.addr < 2 ^ 40 ∧ b.addr % 4096 + b.len ≤ 4096 ∧ s.admits romTag true b.addr = (s, none)
      let a := Reg.BOOT_RESCHK.at
      let matches_ := s.rb a 31 = true ∧ Config.digest 1 [] s.resumeRange = s.regBytes Reg.BOOT_RESDIG.at 12
      (s.boot.run = none ∨ (s.boot.run = some r ∧ (r.recovery = true ∨ r.dl.isSome = true)) → exec .bootSourceTimeout s = .next s) ∧
      (s.boot.run = some r → r.recovery = false → r.dl = none → r.left = [3] → r.pos < 5 → ∃ u, exec .bootSourceTimeout s = .next u ∧
        u.reg (Reg.BOOT_SRCRES.at r.pos) = 0x30000002 ∧ u.cores = s.cores ∧
        (∃ x, u.boot.run = some x ∧ x.recovery = true ∧ x.dl = none ∧ x.pos = r.pos + 1)) ∧
      (∀ x ∈ rows,
        (s.boot.run = none ∨ (s.boot.run = some r ∧ r.recovery = false) → exec x.1 s = .next s) ∧
        (running → sum x.2 ≠ crc.toNat ∨ idx.toNat ≠ d.next ∨ 4096 < payload.length → exec x.1 s = .next { s with out := s.out ++ [answer x.2 0x0F d.next] })) ∧
      (running → good 1 → d.whole = false → d.man.length + payload.length < manLength → ∃ u, exec (.manifest frame) s = .next u ∧
        fresh u (some { d with next := d.next + 1, man := d.man ++ payload }) ∧ u.out = s.out ++ [answer 1 0 (d.next + 1)] ∧ u.mem = s.mem ∧ u.regs = s.regs) ∧
      (running → good 1 → d.whole = false → d.man.length + payload.length = manLength → s.manReason (d.man ++ payload) none = none → ∃ u, exec (.manifest frame) s = .next u ∧
        fresh u (some { d with next := d.next + 1, man := d.man ++ payload, whole := true }) ∧ u.out = s.out ++ [answer 1 0 (d.next + 1)] ∧ u.mem = s.mem) ∧
      (running → good 2 → d.whole = true → blocks[d.block]? = some b → d.part.length + payload.length < b.len → ∃ u, exec (.blockData frame) s = .next u ∧
        fresh u (some { d with next := d.next + 1, part := d.part ++ payload }) ∧ u.out = s.out ++ [answer 2 0 (d.next + 1)] ∧ u.mem = s.mem) ∧
      (running → good 2 → d.whole = true → blocks[d.block]? = some b → d.part.length + payload.length = b.len → writable →
        Config.digest 1 [] (d.part ++ payload) = manDigest d.man b.idx → ∃ u, exec (.blockData frame) s = .next u ∧
        fresh u (some { d with next := d.next + 1, part := [], block := d.block + 1 }) ∧ u.out = s.out ++ [answer 2 0 (d.next + 1)] ∧ u.bytes b.addr b.len = d.part ++ payload) ∧
      (running → good 3 → d.whole = false → ∃ u, exec (.endDownload frame) s = .next u ∧ fresh u none ∧ u.out = s.out ++ [answer 3 0x08 0] ∧ u.mem = s.mem ∧
        u.cores = s.cores) ∧
      (running → good 3 → d.whole = true → d.block = blocks.length →
        s.clearProfile.applyImage r.env r.kind (s.clearProfile.bytes (compAt d.man 2).load (compAt d.man 2).len) = (v, none) → manSvn d.man < 64 →
        ∃ u, exec (.endDownload frame) s = .next u ∧ u.boot.booted = some (bootedOf d.man 4 0) ∧ u.boot.run = none ∧ u.rf Reg.BOOT_BSTAT.at 30 28 = 4 ∧
          (u.core 0).released = true ∧ u.out = v.out ++ [answer 3 0 (d.next + 1)]) ∧
      (s.rb Reg.HOSTEP_LINKSTAT.at 0 = false → ∀ x ∈ [Instr.manifest (.mailbox buf len blk), .blockData (.mailbox buf len blk), .endDownload (.mailbox buf len blk)],
        exec x s = .next s) ∧
      (s.rb Reg.HOSTEP_LINKSTAT.at 0 = true → s.barOpen 0 = true → s.boot.run = none → ∃ u, exec (.manifest (.mailbox buf len blk)) s = .next u ∧ u.boot = s.boot ∧ u.mem = s.mem ∧
        u.rb Reg.HOSTEP_EVT.at 4 = true ∧ u.reg (Reg.HOSTEP_MB_H2G.at 0) = BitVec.ofNat 32 (1 + buf.toNat * 2 ^ 8) ∧ u.reg (Reg.HOSTEP_MB_H2G.at 1) = len ∧
        u.reg (Reg.HOSTEP_MB_H2G.at 2) = blk) ∧
      (s.boot.due ≠ some 5 ∨ s.clk.power ≠ .run → exec (.parkResume env) s = .next s) ∧
      (s.boot.due = some 5 → s.clk.power = .run → s.boot.booted = some bk → matches_ → ∃ u, exec (.parkResume env) s = .next u ∧ u.boot.due = none ∧
        u.boot.booted = some bk ∧ u.rf Reg.BOOT_BSTAT.at 30 28 = 6 ∧ u.rf Reg.KILN_LDR_STAT.at 21 16 = bk.svn % 64 ∧ (u.core 0).released = true ∧
        (u.core 0).stat = 0x1F7 ∧ (u.core 0).pc = BitVec.ofNat 64 (s.rf Reg.BOOT_RESUME_LO.at 31 2 * 4 + s.rf Reg.BOOT_RESUME_HI.at 11 0 * 2 ^ 32) ∧
        (u.core 0).g 1 = (u.reg Reg.BOOT_BSTAT.at).zeroExtend 64 ∧ u.mem = s.mem ∧ ∀ c, c ≠ 0 → u.core c = s.core c) ∧
      (s.boot.due = some 5 → s.clk.power = .run → s.boot.booted = some bk → s.rb a 31 = false → s.rf Reg.BOOT_LCS.at 2 0 = 0 → s.boot.powerUp = false →
        ∃ u, exec (.parkResume env) s = .next u ∧ u.boot.due = none ∧ u.boot.booted = none ∧ (∃ x, u.boot.run = some x ∧ x.recovery = true ∧ x.kind = 4) ∧
          ∀ j, j < 16 → u.reg (Reg.ERRREC_REC_STATUS.at 47 j) =
            (s.record { bank := 47, unit := 0x25, code := 0x07, sev := .deferred }).reg (Reg.ERRREC_REC_STATUS.at 47 j)))

/-- Core release, fuses and the life cycle (R468-R472): only the sealed world's writes count; RELEASE starts the named cores that are online, unreleased and not forbidden,
each at its address with the registers of R470; a fuse operation is checked, burned when verified, and otherwise leaves an SVN in between with ERR and
a record; an unassigned operation sets ERR; LCADV makes a permitted change and a WARM reset, with Cask zero. Where the manual is silent its clauses state the model's choices of log entries 7, 8, 32. -/
def Obligations.ReleaseFusesAndLifeCycle : Prop :=
  ∀ (s : State) (r c a : Nat) (j : BitVec 1) (v : W32) (arg : BitVec 6) (ok : Bool) (target : BitVec 3) (b : Booted), r < numCores → 0x1000000 ≤ a → a < 0x1200000 →
    let k := s.core c
    let sealed_ := (s.core r).lvl = 3
    let rel := Reg.BOOT_RELEASE.at (c / 32)
    let stat := s.reg Reg.BOOT_BSTAT.at
    let fp := Reg.BOOT_FUSEPROG.at
    let keys := s.reg Reg.BOOT_KEYSTAT.at
    let svn := s.rf Reg.BOOT_FSVN.at 5 0
    let n := arg.toNat
    let lc := s.rf Reg.BOOT_LCS.at 2 0
    let dest := target.toNat
    let change := (lc < 3 ∧ dest = lc + 1) ∨ dest = 4
    let same (u : State) : Prop := u.rf Reg.BOOT_FSVN.at 5 0 = svn ∧ u.reg Reg.BOOT_KEYSTAT.at = keys ∧ u.rb fp 30 = false
    let others (u : State) : Prop := u.cores = s.cores ∧ u.mem = s.mem ∧ u.out = s.out
    let rows (P : Instr → Prop) : Prop := P (.raiseSvn (.core r) arg ok) ∧ P (.revokeRootKeySlot (.core r) arg ok) ∧ P (.revokeDebugKeySlot (.core r) arg ok) ∧
      P (.fuseprogInvalidOp (.core r) arg)
    let refused (i : Instr) : Prop := ∃ u, exec i s = .next u ∧ same u ∧ u.rb fp 29 = true ∧ others u
    let burned (i : Instr) (P : State → Prop) : Prop := ∃ u, exec i s = .next u ∧ P u ∧ u.rb fp 30 = false ∧ u.rb fp 29 = s.rb fp 29 ∧ others u
    let failed (i : Instr) (P : State → Prop) : Prop := ∃ u, exec i s = .next u ∧ P u ∧ u.rb fp 30 = false ∧ u.rb fp 29 = true ∧ others u ∧ ∀ x, x < 16 →
      u.reg (Reg.ERRREC_REC_STATUS.at 47 x) = (s.record { bank := 47, unit := 0x24, code := 0x07, sev := .contained }).reg (Reg.ERRREC_REC_STATUS.at 47 x)
    let spare := ∃ m, m < 4 ∧ m ≠ n ∧ bit keys m = true ∧ bit keys (4 + m) = false
    let bitSet (i : Nat) (u : State) : Prop := u.reg Reg.BOOT_KEYSTAT.at = setFld keys i i 1 ∧ u.rf Reg.BOOT_FSVN.at 5 0 = svn
    (¬ sealed_ → exec (.release (.core r) j v) s = .next s ∧ (s.rb fp 30 = false → rows (fun i => exec i s = .next s)) ∧
      (s.boot.warm = none → exec (.lcadv (.core r) target) s = .next s)) ∧
    (sealed_ → c / 32 = j.toNat → s.boot.booted = some b →
      (bit v (c % 32) = true → s.online c = true → k.released = false → b.compat = false → c ≠ 0 → ∃ u, exec (.release (.core r) j v) s = .next u ∧
        u.rb rel (c % 32) = true ∧ (u.core c).released = true ∧ (u.core c).pc = BitVec.ofNat 64 (b.sec / 4 * 4) ∧ (u.core c).stat = 0x1F7 ∧
        (u.core c).spM = BitVec.ofNat 64 (b.stack.getD c 0) ∧ (u.core c).g 1 = stat.zeroExtend 64 ∧ (u.core c).g 2 = BitVec.ofNat 64 c ∧
        (u.core c).srd 0x900 = 0 ∧ (u.core c).srd 0xCC0 = 0 ∧ u.mem = s.mem) ∧
      (bit v (c % 32) = false ∨ s.online c = false ∨ k.released = true ∨ (b.compat = true ∧ b.centry.getD c 0 % 4 = 3) →
        ∃ u, exec (.release (.core r) j v) s = .next u ∧ u.core c = k ∧ u.rb rel (c % 32) = s.rb rel (c % 32))) ∧
    (sealed_ → s.rb fp 30 = false →
      (svn < n → n ≤ fld stat 21 16 →
        (ok = true → burned (.raiseSvn (.core r) arg ok) (fun u => u.rf Reg.BOOT_FSVN.at 5 0 = n ∧ u.reg Reg.BOOT_KEYSTAT.at = keys)) ∧
        (ok = false → failed (.raiseSvn (.core r) arg ok) (fun u => svn ≤ u.rf Reg.BOOT_FSVN.at 5 0 ∧ u.rf Reg.BOOT_FSVN.at 5 0 ≤ n ∧ u.reg Reg.BOOT_KEYSTAT.at = keys))) ∧
      (n ≤ svn ∨ fld stat 21 16 < n → refused (.raiseSvn (.core r) arg ok)) ∧
      (n < 4 → spare →
        (ok = true → burned (.revokeRootKeySlot (.core r) arg ok) (bitSet (4 + n))) ∧
        (ok = false → failed (.revokeRootKeySlot (.core r) arg ok) (fun u => bitSet (4 + n) u ∨ (u.reg Reg.BOOT_KEYSTAT.at = keys ∧ u.rf Reg.BOOT_FSVN.at 5 0 = svn)))) ∧
      (4 ≤ n ∨ ¬ spare → refused (.revokeRootKeySlot (.core r) arg ok)) ∧
      (n < 2 →
        (ok = true → burned (.revokeDebugKeySlot (.core r) arg ok) (bitSet (10 + n))) ∧
        (ok = false → failed (.revokeDebugKeySlot (.core r) arg ok) (fun u => bitSet (10 + n) u ∨ (u.reg Reg.BOOT_KEYSTAT.at = keys ∧ u.rf Reg.BOOT_FSVN.at 5 0 = svn)))) ∧
      (2 ≤ n → refused (.revokeDebugKeySlot (.core r) arg ok)) ∧
      refused (.fuseprogInvalidOp (.core r) arg)) ∧
    (sealed_ → s.boot.warm = none → ¬ change ∨ s.rb Reg.BOOT_LCS.at 31 = true → exec (.lcadv (.core r) target) s = .next s) ∧
    (sealed_ → change → s.rb Reg.BOOT_LCS.at 31 = false → s.stopped = false → s.clk.power = .run → ∃ u, exec (.lcadv (.core r) target) s = .next u ∧
      u.rf Reg.BOOT_LCS.at 2 0 = dest ∧ u.rb Reg.BOOT_LCS.at 31 = false ∧ u.rb Reg.AON_RSTCAUSE.at 4 = true ∧ u.boot.due = some 2 ∧ u.boot.token = 0 ∧
      u.mem.cell a = 0 ∧ (u.core c).released = false)

/-! ## Dispatch and power -/

/-- Dispatch (R111, R488, R489): TAKE completes the held task, answers 0 for an empty mask, takes the head of the one eligible queue, or waits; TAKE_GRANT gives
that head to a waiting TAKE; YIELD puts the held entry at the tail and charges its queue; a push is answered by its RESULT.

Operating points, measurement and epochs (R479, R480, R490, R493): a confirmed voltage ends a change with FOP and VOP at its target, or leaves its clock switch to the end of
a sparing of the group; without confirmation
VFAIL and a record; a measurement is added up, GRPTEMP shows a temperature of 8 bits, 125 °C takes every group to OP5 and 130 °C is Fatal; an epoch's end reports power and OVER and starts
E anew, and an uncorrectable word of the queue memory found then is Fatal.

Sleep and wake (R435, R483-R487, R495, R516, R551): gating a block, refused to the open world where the block is sealed-owned; DEVSLEEP checks the queues,
waits for the CSS and enters the window; its end leaves PARK or OFF with no core's state, Tun or in OFF all memory lost; enabled wake sources set
WAKESTAT and start the wake, whose end is a resume or a full boot. Where the manual is silent its clauses state the model's choices of log entries 7, 16, 35. -/
def Obligations.TasksPowerAndSleep : Prop :=
  (∀ (s : State) (c q r e n : Nat) (rd : RegNo) (v : W32) (w : W64) (rest : List (Nat × W64)) (h : HeldTask), s.calm c = true → r < numCores → q < 64 →
      let k := s.core c
      let d := k.dspcur
      let x := fld d 11 0
      let waiting := s.setCore c { k with wait := .take rd.toNat }
      let granted (i : Instr) (s0 : State) : Prop := ∃ t, exec i s0 = .next t ∧
        t.core c = ((k.setG rd.toNat w).swr 0x200 (BitVec.ofNat 64 (2 ^ 63 + q * 2 ^ 16 + e))).fallThrough ∧ t.queue q = rest ∧
        Sparse.get none t.pacer.held e = some { queue := q, word := w, core := c } ∧ t.mem = s.mem ∧ (∀ b, b ≠ c → t.core b = s.core b)
      let turn := s.rb Reg.PACER_CTL.at 0 = true ∧ s.boot.sleep = false ∧ s.pacer.queues = [(q, (e, w) :: rest)] ∧ s.eligible c q = true ∧
        ∀ y ∈ s.pacer.waiters, y = c
      let word : W64 := BitVec.ofNat 64 (((s.held (.core r) (Reg.PACER_QPUSH_LO.at q)).getD 0).toNat + v.toNat * 2 ^ 32)
      let tag := (s.core r).tag r
      let cfg := Reg.PACER_QCFG.at q
      let sealedOnly := s.rb cfg 30 = true ∧ (s.core r).lvl ≠ 3
      let takes := s.queueOn q = true ∧ s.mayPush q tag = true ∧ s.fenced tag.pid = false ∧ s.fenced (s.rf cfg 29 24) = false
      let pushed (res : Nat) (u : State) : Prop := exec (.qpush (.core r) q v) s = .next u ∧ u.pushResult (.core r) q = res ∧ u.mem = s.mem ∧ u.cores = s.cores
      (bit d 63 = false →
        (k.srd 0x600 = 0 → completes (.take c rd) s c (k.setG rd.toNat 0)) ∧
        (k.srd 0x600 ≠ 0 → turn → granted (.take c rd) s ∧ granted (.takeGrant c n) waiting) ∧
        (k.srd 0x600 ≠ 0 → s.pacer.queues = [] → s.pendingInterrupt c = true → completes (.take c rd) s c (k.setG rd.toNat 0)) ∧
        (k.srd 0x600 ≠ 0 → s.pacer.queues = [] → s.pendingInterrupt c = false → ∃ t, exec (.take c rd) s = .next t ∧
          t.core c = { k with wait := .take rd.toNat } ∧ t.pacer.waiters = s.pacer.waiters.filter (fun y => y != c) ++ [c] ∧ t.mem = s.mem ∧ t.regs = s.regs) ∧
        completes (.yield c) s c k) ∧
      (s.pacer.queues = [] → exec (.takeGrant c n) waiting = .next waiting) ∧
      (exec (.takeGrant c n) s = .next s) ∧
      (bit d 63 = true → Sparse.get none s.pacer.held x = some h →
        (k.srd 0x600 = 0 → ∃ t, exec (.take c rd) s = .next t ∧ t.core c = ((k.swr 0x200 0).setG rd.toNat 0).fallThrough ∧
          Sparse.get none t.pacer.held x = none ∧ t.pacer.queues = s.pacer.queues ∧ t.freeCtr = s.freeCtr + 1 ∧ t.mem = s.mem) ∧
        (∃ t, exec (.yield c) s = .next t ∧ t.core c = (k.swr 0x200 0).fallThrough ∧ Sparse.get none t.pacer.held x = none ∧
          t.queue h.queue = s.queue h.queue ++ [(x, h.word)] ∧ t.freeCtr = s.freeCtr + 1 ∧ t.mem = s.mem)) ∧
      (sealedOnly → exec (.qpush (.core r) q v) s = .next s) ∧
      (¬ sealedOnly →
        (takes → word ≠ 0 → (s.queue q).length + s.heldOf q < s.rf cfg 10 0 → ∃ u y, pushed 0 u ∧ u.queue q = s.queue q ++ [(y, word)] ∧
          (s.poolUsed.length < 4096 → y < 4096 ∧ y ∉ s.poolUsed)) ∧
        (takes → word ≠ 0 → s.rf cfg 10 0 ≤ (s.queue q).length + s.heldOf q → ∃ u, pushed 1 u ∧ u.pacer.queues = s.pacer.queues) ∧
        (¬ takes → ∃ u, pushed 2 u ∧ u.pacer.queues = s.pacer.queues) ∧
        (takes → word = 0 → ∃ u, pushed 3 u ∧ u.pacer.queues = s.pacer.queues))) ∧
  (∀ (s : State) (g t soc : Nat) (es : List Nat) (temps : List (BitVec 16)) (other : BitVec 16) (ms : List GroupMeas) (rep : Bool), g < 4 → t < 8 → temps.length = 4 →
      let st (i : Nat) := Reg.PACER_GRPSTAT.at i
      let z : GroupMeas := { pwr := 0, ipeak := 0, busy := 0 }
      let dev := ((List.range 4).map (fun i => (ms.getD i z).pwr)).sum + soc
      let measured (u : State) : Prop := exec (.measurement es temps other) s = .next u ∧ u.mem = s.mem ∧ u.cores = s.cores ∧
        ∀ i, i < 4 → u.reg64 (Reg.PACER_RAILE_LO.at i) = (s.reg64 (Reg.PACER_RAILE_LO.at i) + es.getD i 0) % 2 ^ 64 ∧
          Sparse.get 0 u.pacer.tj i = temps.getD i 0 ∧
          (-128 ≤ (temps.getD i 0).toInt → (temps.getD i 0).toInt ≤ 127 → u.rf (Reg.PACER_GRPTEMP.at i) 7 0 = (temps.getD i 0).toNat % 256) ∧
          Sparse.get 0 u.pacer.energy i = Sparse.get 0 s.pacer.energy i + es.getD i 0 * 1000
      let cool (lim : Int) : Prop := other.toInt < lim ∧ ∀ y ∈ temps, y.toInt < lim
      (s.pacer.opTarget = [(g, some t)] → s.pacer.opWait = [] →
        (s.groupHeld g = true → s.rf (st g) 2 0 ≠ t → ∃ u, exec (.voltageConfirmed g rep) s = .next u ∧ u.rf (st g) 6 4 = t ∧
          u.rf (st g) 2 0 = s.rf (st g) 2 0 ∧ u.pacer = s.pacer ∧ u.cores = s.cores ∧ u.mem = s.mem) ∧
        (s.groupHeld g = false → ∃ u, exec (.voltageConfirmed g rep) s = .next u ∧ u.rf (st g) 2 0 = t ∧ u.rf (st g) 6 4 = t ∧ u.rb (st g) 31 = false ∧ u.pacer.opTarget = [] ∧
          (s.rf (st g) 2 0 ≠ t → u.rb (Reg.PACER_GEVT.at g) 0 = true) ∧ u.cores = s.cores ∧ u.mem = s.mem) ∧
        (∃ u, exec (.voltageTimeout g) s = .next u ∧ u.rb (st g) 30 = true ∧ u.rb (st g) 31 = false ∧ u.rf (st g) 2 0 = s.rf (st g) 2 0 ∧
          u.rf (st g) 6 4 = s.rf (st g) 6 4 ∧ u.rb (Reg.PACER_GEVT.at g) 3 = true ∧ u.pacer.opTarget = [] ∧ u.cores = s.cores ∧ u.mem = s.mem)) ∧
      (Sparse.get none s.pacer.opTarget g = none → exec (.voltageConfirmed g false) s = .next s ∧ exec (.voltageTimeout g) s = .next s) ∧
      (cool 125 → ∃ u, measured u ∧ u.pacer.thermal = s.pacer.thermal ∧ u.fatalDue = s.fatalDue ∧ (cool 121 → u.pacer.hot = s.pacer.hot) ∧
        (¬ cool 121 → u.pacer.hot = true)) ∧
      (¬ cool 125 → s.pacer.thermal = false → cool 130 → (∀ i, i < 4 → s.groupHeld i = false) → ∃ u, measured u ∧ u.pacer.thermal = true ∧ u.fatalDue = s.fatalDue ∧
        ∀ i, i < 4 → u.rb (st i) 29 = true ∧ u.rb (Reg.PACER_GEVT.at i) 2 = true ∧ (s.rf (st i) 2 0 < 5 → u.rf (st i) 2 0 = 5 ∧ u.rb (st i) 31 = true ∧
          u.rf (st i) 10 8 = 5 ∧ Sparse.get none u.pacer.opTarget i = some 5)) ∧
      (¬ cool 130 → ∃ u, measured u ∧ u.fatalDue = true) ∧
      (∃ u, exec (.epoch ms soc .bad) s = .next u ∧ u.fatalDue = true) ∧
      (s.rb Reg.PACER_CTL.at 0 = false → exec (.epoch ms soc .ok) s = .next s) ∧
      (s.rb Reg.PACER_CTL.at 0 = true → s.pacer.waiters = [] → ∃ u, exec (.epoch ms soc .ok) s = .next u ∧ u.pacer.energy = [] ∧ u.pacer.refused = [] ∧
        u.rf Reg.PACER_DEVPWR.at 17 0 = min dev (2 ^ 18 - 1) ∧ u.rf (Reg.PACER_GRPPWR.at g) 15 0 = (ms.getD g z).pwr % 2 ^ 16 ∧
        u.rb (st g) 28 = groupOver s g (ms.getD g z) dev ∧ (s.pacer.thermal = true → s.pacer.hot = false → u.pacer.thermal = false ∧ u.rb (st g) 29 = false) ∧
        u.cores = s.cores ∧ u.mem = s.mem)) ∧
  (∀ (s : State) (r b : Nat) (v : W32) (off low : Bool) (n : BitVec 2) (addr : BitVec 7) (qk : Bool) (item : AonItem) (chk : ArrayCheck), r < numCores →
      let world := (s.core r).lvl = 3
      let gate := Reg.PACER_BLKGATE.at b
      let a := Reg.PACER_DEVSLEEP.at
      let cfg := s.reg Reg.AON_WAKECFG.at
      let stat := Reg.AON_WAKESTAT.at
      let asleep := s.clk.power = .park ∨ s.clk.power = .off
      let was := nfld s.boot.wakeLow n.toNat n.toNat = 1
      let level := bit cfg (8 + n.toNat)
      let pin (port x : Nat) : Out := { kind := .pin, port := port, data := [x] }
      let rail (port x : Nat) : Out := { kind := .power, port := port, data := [x] }
      (b < 10 → world ∨ s.rb Reg.SYSCTL_OWNER.at b = false →
        ((b < 8 → s.clusterBusy b = false) → 8 ≤ b ∨ bit v 1 = false → ∃ u, exec (.blkgateWrite (.core r) b v) s = .next u ∧ u.rb gate 0 = bit v 0 ∧
          u.rb gate 1 = bit v 1 ∧ (∀ x, x ≠ gate → u.reg x = s.reg x) ∧ u.cores = s.cores ∧ u.mem = s.mem) ∧
        (b < 8 → s.clusterBusy b = true → s.rb gate 0 = false → s.rb gate 1 = false → ∃ u, exec (.blkgateWrite (.core r) b v) s = .next u ∧
          u.rb gate 0 = false ∧ u.rb gate 1 = false)) ∧
      (b < 10 ∨ 16 ≤ b ∧ b < 20 → ¬ world → 16 ≤ b ∨ s.rb Reg.SYSCTL_OWNER.at b = true → ∃ u, exec (.blkgateWrite (.core r) b v) s = .next u ∧
        u.reg gate = s.reg gate ∧ u.rf Reg.SYSCTL_PDCNT.at 31 16 = min (2 ^ 16 - 1) (s.rf Reg.SYSCTL_PDCNT.at 31 16 + 1) ∧
        u.rb Reg.SYSCTL_PDLOG.at 31 = true ∧ u.rf Reg.SYSCTL_PDLOG.at 15 11 = b ∧ u.rf Reg.SYSCTL_PDLOG.at 7 0 = r ∧ u.cores = s.cores ∧ u.mem = s.mem) ∧
      (world → s.rb a 31 = false → bit v 31 = true → s.clk.power = .run → s.boot.sleep = false →
        (s.pacerBusy = true → ∃ u, exec (.devsleep (.core r) v) s = .next u ∧ u.rb a 31 = false ∧ u.rf a 19 16 = 1 ∧ u.clk = s.clk ∧ u.boot = s.boot) ∧
        (s.pacerBusy = false → s.rf Reg.CSS_STAT.at 29 16 ≠ 0 → ∃ u, exec (.devsleep (.core r) v) s = .next u ∧ u.rb a 31 = true ∧ u.boot.sleep = true ∧
          u.clk = s.clk ∧ u.mem = s.mem) ∧
        (s.pacerBusy = false → s.rf Reg.CSS_STAT.at 29 16 = 0 → ∃ u, exec (.devsleep (.core r) v) s = .next u ∧ u.clk.power = .window (bit v 30) ∧
          u.boot.sleep = false ∧ u.mem.lines = [])) ∧
      (s.boot.sleep = false → exec .drainTimeout s = .next s) ∧
      (s.boot.sleep = true → ∃ u, exec .drainTimeout s = .next u ∧ u.boot.sleep = false ∧ u.rb a 31 = false ∧ u.rf a 19 16 = 2 ∧ u.cores = s.cores ∧
        u.mem = s.mem) ∧
      (s.boot.sleep = false → s.clk.power = .window off → s.mem.lines = [] → ∃ u, exec .entryWindowEnd s = .next u ∧
        u.clk.power = (if off then .off else .park) ∧ u.cores = [] ∧ u.pacer = { PacerUnit.reset with capacity := u.pacer.capacity } ∧ u.vault = KilnUnit.reset ∧ (off = true → u.mem.cells = []) ∧
        (off = false → (∀ x, 0x2000000 ≤ x → x < 0x3000000 → u.byte x = 0) ∧ (∀ x, x < 0x2000000 → u.byte x = s.byte x) ∧
          (u.reg Reg.MEMC_QTIER.at = s.reg Reg.MEMC_QTIER.at → u.reg Reg.MEMC_DTIER.at = s.reg Reg.MEMC_DTIER.at → ∀ x, 0x3000000 ≤ x → u.byte x = s.byte x))) ∧
      (s.boot.sleep = false → (∀ o, s.clk.power ≠ .window o) → exec .entryWindowEnd s = .next s) ∧
      (asleep → s.rb Reg.AON_ETCSTAT.at 2 = true →
        (bit cfg n.toNat = true → low = true → level = true ∨ ¬ was → ∃ u, exec (.wakePin n low) s = .next u ∧ u.rb stat n.toNat = true ∧
          u.boot.powerUp = true ∧ u.mem = s.mem) ∧
        (bit cfg n.toNat = false ∨ low = false → ∃ u, exec (.wakePin n low) s = .next u ∧ u.regs = s.regs ∧ u.boot.powerUp = s.boot.powerUp) ∧
        (bit cfg 5 = true → s.rf Reg.AON_I2CWADDR.at 6 0 = addr.toNat → ∃ u, exec (.i2c0AddressMatch addr) s = .next u ∧ u.rb stat 5 = true ∧
          u.boot.powerUp = true ∧ u.out = s.out ++ [pin 4 1]) ∧
        (bit cfg 5 = false ∨ s.rf Reg.AON_I2CWADDR.at 6 0 ≠ addr.toNat → exec (.i2c0AddressMatch addr) s = .next { s with out := s.out ++ [pin 4 0] }) ∧
        (s.clk.power = .park → bit cfg 6 = true → s.reg64 Reg.AON_WAKEETC_LO.at ≤ s.clk.etc.toNat → ∃ u, exec .etcAlarm s = .next u ∧ u.rb stat 6 = true ∧
          u.boot.powerUp = true)) ∧
      (s.clk.power ≠ .park ∨ s.clk.etc.toNat < s.reg64 Reg.AON_WAKEETC_LO.at → exec .etcAlarm s = .next s) ∧
      (s.clk.power = .window off → ∃ u, exec (.wakePin n low) s = .next u ∧ u.regs = s.regs ∧ u.boot.powerUp = s.boot.powerUp) ∧
      (s.boot.powerUp = false → exec (.wake qk item chk) s = .next s ∧ exec .socRailTimeout s = .next s) ∧
      (s.boot.powerUp = true → s.clk.power = .off → ∃ u, exec (.wake qk item .ok) s = .next u ∧ u.clk.power = .run ∧ u.boot.due = some 3 ∧ u.boot.powerUp = false ∧
        u.clk.etc = 0 ∧ u.incarn = (s.incarn + 1) % 2 ^ 16) ∧
      (s.boot.powerUp = true → s.clk.power = .park → s.rb Reg.CSS_CTL.at 0 = false → ∀ x y, s.boot.snap = [(x, y)] → 0x10100100 ≤ x → x < 0x10101000 →
        ∃ u, exec (.wake qk item .ok) s = .next u ∧ u.clk.power = .run ∧ u.boot.due = some 5 ∧ u.boot.powerUp = false ∧ u.clk.etc = s.clk.etc ∧ u.reg x = y ∧
          u.rb Reg.AON_RSTCAUSE.at 6 = true ∧ u.boot.snap = []) ∧
      (s.boot.powerUp = true → exec .socRailTimeout s = .next { s with out := s.out ++ [rail 1 0, rail 0 0, rail 0 1, rail 1 1] }))

/-! ## Split trace -/

/-- Trace sources (R499, R503-R505, R507): a message of a channel enters the FIFO of SWMSG as its packet, is discarded with a count when the FIFO has no room, and does not
reach an open sink from the sealed world; EN moves the sequencer, a start being reported by a SYNC and suspended outside the filter; a partial chunk leaves at its time limit, and what the FIFO's check code finds is recorded, an uncorrectable FIFO losing what it held; a
periodic SYNC follows the bytes that SYNCPER names.

Trace sinks (R505, R506, R508, R510): a memory sink that is enabled writes the next four chunks as one line at SINKBASE + SINKWP and moves on, wrapping or stopping full
at the end; a failed write sets ERR, which stops it, with a record; frozen, it discards them into DISC; the trace port sends its chunks; with none waiting nothing
happens; writing 1 to FROZEN clears it and nothing else. Where the manual is silent its clauses state the model's choices of log entries 7, 38. -/
def Obligations.Trace : Prop :=
  (∀ (s : State) (r ch n : Nat) (v : W32), r < numCores → n < 98 →
      let world := decide ((s.core r).lvl = 3)
      let may := s.rb Reg.SYSCTL_OWNER.at 9 = false ∨ world = true
      let cfg := Reg.TRACE_SRCCFG.at n
      let t := s.tsrc n
      let w := s.tsrc 96
      let bytes (t : TraceSrc) : List Byte := t.chunks.flatten ++ t.part
      let sink := s.rf (Reg.TRACE_SRCCFG.at 96) 26 24
      let k := s.core (srcCore n)
      let sync (reason : Nat) : List Byte := syncBytes reason k.pc s.clk.etc (ctxOf (srcCore n) k)
      let packet : List Byte := [10, BitVec.ofNat 8 ch] ++ leBytes 4 v.toNat
      let others (u : State) : Prop := u.cores = s.cores ∧ u.mem = s.mem ∧ u.out = s.out
      let cut := if t.part = [] then t else { t with chunks := t.chunks ++ [t.part], part := [] }
      let recorded (u : State) (unit code : Nat) (sev : Sev) : Prop := ∀ b j, b < 48 → j < 16 → u.reg (Reg.ERRREC_REC_STATUS.at b j) =
        (s.record { bank := 46, unit := unit, code := code, sev := sev }).reg (Reg.ERRREC_REC_STATUS.at b j)
      let ready := ch < 16 ∧ may ∧ s.tstate 96 = 2 ∧ (world = true → s.rb (Reg.TRACE_SINKCTL.at sink) 29 = true ∧ s.rb Reg.DEBUG_AUTH.at 2 = true) ∧ sink < 5 ∧
        s.rb (Reg.TRACE_SRCCFG.at 96) 30 = false ∧ s.rf (Reg.TRACE_SRCCFG.at 96) 28 27 ≤ 1 ∧ w.lost = 0
      (ch < 16 → s.tstate 96 ≠ 2 ∨ (world = true ∧ (s.rb (Reg.TRACE_SINKCTL.at sink) 29 = false ∨ s.rb Reg.DEBUG_AUTH.at 2 = false)) →
        exec (.swmsg (.core r) ch v) s = .next s) ∧
      (ready → w.held + 6 ≤ 512 → ∃ u, exec (.swmsg (.core r) ch v) s = .next u ∧ bytes (u.tsrc 96) = bytes w ++ packet ∧ u.regs = s.regs ∧ others u) ∧
      (ready → 512 < w.held + 6 → ∃ u, exec (.swmsg (.core r) ch v) s = .next u ∧ u.tsrc 96 = { w with lost := 1 } ∧
        u.rf (Reg.TRACE_SRCSTAT.at 96) 15 0 = min 65535 (s.rf (Reg.TRACE_SRCSTAT.at 96) 15 0 + 1) ∧ others u) ∧
      (may → s.rb cfg 31 = false → bit v 31 = true → fld v 28 27 = 0 → fld v 26 24 < 5 → t.lost = 0 → t.atoms = [] → t.resync = none →
        ∃ u, exec (.traceSourceEnable (.core r) n v) s = .next u ∧ u.rb cfg 31 = true ∧ others u ∧
          (96 ≤ n → u.tstate n = 2 ∧ u.tsrc n = t) ∧
          (48 ≤ n → n < 96 → u.tstate n = (if u.inFilter n k.lvl then 2 else 3) ∧ bytes (u.tsrc n) = bytes t ++ sync 0 ∧ (u.tsrc n).refPc = k.pc) ∧
          (n < 48 → s.taddr n false = 0 → u.tstate n = (if u.inFilter n k.lvl then 2 else 3) ∧ bytes (u.tsrc n) = bytes t ++ sync 0) ∧
          (n < 48 → s.taddr n false ≠ 0 → u.tstate n = 1 ∧ u.tsrc n = t)) ∧
      (may → bit v 31 = false → t.atoms = [] → ∃ u, exec (.traceSourceEnable (.core r) n v) s = .next u ∧ u.rb cfg 31 = false ∧ u.tstate n = 0 ∧ u.tsrc n = { t with resync := none } ∧ others u) ∧
      (¬ may → exec (.traceSourceEnable (.core r) n v) s = .next s ∧ exec (.swmsg (.core r) ch v) s = .next s) ∧
      (∃ u, exec (.chunkTimeout n .ok) s = .next u ∧ u.regs = s.regs ∧ others u ∧ u.tsrc n = cut) ∧
      (∃ u, exec (.chunkTimeout n .corrected) s = .next u ∧ u.tsrc n = cut ∧ recorded u 0x00 0x01 .corrected ∧ others u) ∧
      (t.held ≠ 0 → ∃ u, exec (.chunkTimeout n .bad) s = .next u ∧ (u.tsrc n).chunks = [] ∧ (u.tsrc n).part = [] ∧ t.lost < (u.tsrc n).lost ∧
        recorded u 0x01 0x02 .deferred ∧ others u) ∧
      (s.tstate n ≠ 2 ∨ s.rf cfg 19 16 = 0 ∨ t.since < 2 ^ (s.rf cfg 19 16 + 8) → exec (.syncPeriodic n) s = .next s) ∧
      (s.tstate n = 2 → s.rf cfg 19 16 ≠ 0 → 2 ^ (s.rf cfg 19 16 + 8) ≤ t.since → n < 96 → s.rf cfg 28 27 = 0 → s.rf cfg 26 24 < 5 → t.lost = 0 → t.atoms = [] →
        t.resync = none → ∃ u, exec (.syncPeriodic n) s = .next u ∧ bytes (u.tsrc n) = bytes t ++ sync 6 ∧ (u.tsrc n).since = 0 ∧ u.regs = s.regs ∧ others u)) ∧
  (∀ (s : State) (r k n : Nat) (t : TraceSrc) (a b c d : List Byte) (rest : List (List Byte)) (resp : Resp), r < numCores → k < 5 → n < 98 →
      let ctl := Reg.TRACE_SINKCTL.at k
      let stat := Reg.TRACE_SINKSTAT.at k
      let wpA := Reg.TRACE_SINKWP.at k
      let line := [a, b, c, d].flatMap (fun x => chunkBytes n x)
      let tag : AccessTag := { world := s.rb ctl 29, pid := s.rf ctl 27 22, cls := 5, src := k }
      let wp := s.rf wpA 27 0 * 16
      let at_ := s.reg64 (Reg.TRACE_SINKBASE_LO.at k) + wp
      let size := 4096 * 2 ^ s.rf ctl 15 12
      let waits := s.trace.srcs = [(n, t)] ∧ t.chunks = a :: b :: c :: d :: rest ∧ s.rf (Reg.TRACE_SRCCFG.at n) 26 24 = k ∧ s.rb ctl 31 = true ∧ s.rb stat 4 = false ∧ wp < size
      let fits := a.length ≤ 14 ∧ b.length ≤ 14 ∧ c.length ≤ 14 ∧ d.length ≤ 14
      let free := s.rb stat 0 = false ∧ s.rb stat 1 = false ∧ s.rb stat 3 = false
      let flags (u : State) (w fl : Bool) : Prop := u.rb stat 2 = w ∧ u.rb stat 3 = fl ∧ u.rb stat 4 = s.rb stat 4 ∧ u.rb ctl 31 = true
      (s.rb ctl 31 = false ∨ s.rb stat 4 = true → exec (.sinkWrite k false resp) s = .next s ∧ exec (.sinkWrite k true resp) s = .next s) ∧
      (s.trace.srcs = [] → exec (.sinkWrite k false resp) s = .next s) ∧
      (k < 4 → waits → fits → free → s.admits tag true at_ = (s, none) → at_ < 2 ^ 40 → s.rb ctl 28 = false → wp + 64 < 2 ^ 32 →
        ∃ u, exec (.sinkWrite k false .ok) s = .next u ∧ u.bytes at_ 64 = line ∧ (u.tsrc n).chunks = rest ∧ u.out = s.out ∧
          (wp + 64 < size → u.rf wpA 27 0 = (wp + 64) / 16 ∧ flags u (s.rb stat 2) false) ∧
          (size ≤ wp + 64 → s.rb ctl 30 = false → u.rf wpA 27 0 = 0 ∧ flags u true false) ∧
          (size ≤ wp + 64 → s.rb ctl 30 = true → u.rf wpA 27 0 = (wp + 64) / 16 ∧ flags u (s.rb stat 2) true)) ∧
      (k < 4 → waits → free → resp ≠ .ok → s.rb ctl 28 = false → ∃ u, exec (.sinkWrite k false resp) s = .next u ∧ u.rb stat 4 = true ∧ exec (.sinkWrite k true .ok) u = .next u ∧ u.mem = s.mem ∧
        ∀ x j, x < 48 → j < 16 → u.reg (Reg.ERRREC_REC_STATUS.at x j) =
          (s.record { bank := 46, unit := 0x02, code := 0x06, sev := .deferred }).reg (Reg.ERRREC_REC_STATUS.at x j)) ∧
      (k < 4 → waits → s.rb stat 1 = true ∨ s.rb stat 3 = true → ∃ u, exec (.sinkWrite k false resp) s = .next u ∧ (u.tsrc n).chunks = rest ∧ u.mem = s.mem ∧ u.out = s.out ∧
        u.rf stat 31 16 = min 65535 (s.rf stat 31 16 + 4)) ∧
      (k = 4 → waits → rest = [] → free → ∃ u, exec (.sinkWrite k false resp) s = .next u ∧ (u.tsrc n).chunks = [] ∧ u.mem = s.mem ∧
        u.out = s.out ++ [{ kind := .trace, port := 4, data := line.map BitVec.toNat }]) ∧
      (s.rb Reg.SYSCTL_OWNER.at 9 = false ∨ (s.core r).lvl = 3 → ∃ u, exec (.frozenClear (.core r) k) s = .next u ∧ u.reg stat = setFld (s.reg stat) 1 1 0 ∧
        (∀ x, x ≠ stat → u.reg x = s.reg x) ∧ u.trace = s.trace ∧ u.mem = s.mem ∧ u.cores = s.cores))

/-! ## Clocks, resets and fault injection -/

/-- Clock monitors and the elapsed-time counter (R513, R514, R519): a lost clock clears its bit and is recorded, fatal but for ACLK; the ETC counts 40 a tick, in PARK
30517 and 37/64, and not in OFF, and a mismatch of its copies is recorded; a comparator that the count has reached raises private source 0 once.

Fault injection (R539, R541, R542, R545): an injector is armed with injection permitted and a target that DIAG allows, and else reads ARM 0, with ERR for the
target; a reserve-core test reports a reserve that is not free, one that passes, or one that fails, which is retired with a record. Where the manual is silent its clauses state the model's choices of log entries 7, 8, 16, 40. -/
def Obligations.ClocksAndFaultInjection : Prop :=
  (∀ (s : State) (c : Nat) (pll : BitVec 4),
      let etc := s.clk.etc
      let stat := Reg.AON_ETCSTAT.at
      let recorded (u : State) (unit code : Nat) (sev : Sev) : Prop := u.cores = s.cores ∧ u.mem = s.mem ∧ u.out = s.out ∧ ∀ b j, b < 48 → j < 16 →
        u.reg (Reg.ERRREC_REC_STATUS.at b j) = (s.record { bank := 47, unit := unit, code := code, sev := sev }).reg (Reg.ERRREC_REC_STATUS.at b j)
      let tick (v : W64) (f : Nat) : Prop := exec (.etcIncrement true) s = .next { s with clk := { s.clk with etc := v, copy := v, frac := f } }
      let k := s.core c
      (∃ u, exec .refLost s = .next u ∧ u.rb stat 1 = false ∧ recorded u 0 6 .fatal) ∧
      (∃ u, exec (.pllLockLost pll) s = .next u ∧ u.reg stat = s.reg stat ∧ recorded u 1 7 .fatal) ∧
      (∃ u, exec .aclkLost s = .next u ∧ u.rb stat 2 = false ∧ recorded u 2 6 .deferred) ∧
      (s.clk.power ≠ .off → s.clk.power ≠ .park → tick (etc + 40) 0) ∧
      (s.clk.power = .park → tick (etc + BitVec.ofNat 64 ((30517 * 64 + s.clk.frac + 37) / 64)) ((s.clk.frac + 37) % 64)) ∧
      (s.clk.power = .off → exec (.etcIncrement true) s = .next s) ∧
      (∃ u v, exec (.etcIncrement true) s = .next v ∧ exec (.etcIncrement false) s = .next u ∧ u.clk = v.clk ∧ recorded u 3 5 .fatal) ∧
      (c < numCores → bit (k.srd 0x5C1) 0 = true → k.srd 0x5C0 ≤ etc → ∃ u, exec (.etcComparator c) s = .next u ∧ u.core c = k.swr 0x5C1 0 ∧
        u.regs = (s.raisePrivate c 0).regs ∧ u.clk = s.clk ∧ (∀ d, d ≠ c → u.core d = s.core d) ∧ exec (.etcComparator c) u = .next u) ∧
      (bit (k.srd 0x5C1) 0 = false ∨ etc < k.srd 0x5C0 → exec (.etcComparator c) s = .next s)) ∧
  (∀ (s : State) (r i n : Nat) (v : W32) (pass : Bool), r < numCores → i < 4 → n < 8 →
      let a := Reg.DEBUG_BINJ_CTL.at i
      let lc := s.rf Reg.BOOT_LCS.at 2 0
      let permitted := lc ≠ 4 ∧ s.rb Reg.DEBUG_AUTH.at 1 = true ∧ (lc ≠ 2 ∨ s.rb Reg.DEBUG_DIAG.at 0 = true)
      let core := fld v 29 24
      let unit := fld v 23 16
      let bank := fld v 15 10
      let one := fld v 9 8 ≤ 1
      let severe := s.rb Reg.DEBUG_DIAG.at 1 = true
      let target := s.online core = true ∧ ((bank = 9 ∧ (unit = 0 ∨ (unit = 1 ∧ (one ∨ severe)))) ∨ (bank = 32 ∧ unit = 0) ∨
        (bank = 1 + core / 6 ∧ ((unit ∈ [0x20, 0x21, 0x27, 0x01, 0x02, 0x03] ∧ one) ∨ (unit ∈ [0x22, 0x11] ∧ (one ∨ severe)) ∨ unit ∈ [0x29, 0x00, 0x10])))
      let others (u : State) : Prop := u.cores = s.cores ∧ u.mem = s.mem ∧ u.out = s.out ∧ ∀ x, x ≠ a → u.reg x = s.reg x
      let arm (P : State → Prop) : Prop := ∃ u, exec (.binjArm (.core r) i v) s = .next u ∧ others u ∧ P u
      let t := Reg.CLUSTER_RSVTEST.at n
      let st := Reg.CLUSTER_SPARESTAT.at n
      let idle := s.rf st 1 0 = 0 ∧ s.rb st 31 = false
      let test (P : State → Prop) : Prop := ∃ u, exec (.rsvtest (.core r) n pass) s = .next u ∧ u.rb t 31 = false ∧ u.cores = s.cores ∧ u.mem = s.mem ∧ P u
      (bit v 31 = true → permitted → target → arm (fun u => u.rb a 31 = true ∧ u.rf a 29 0 = fld v 29 0)) ∧
      (bit v 31 = true → permitted → ¬ target → arm (fun u => u.rb a 31 = false ∧ u.rb a 30 = true)) ∧
      (bit v 31 = true → ¬ permitted → arm (fun u => u.rb a 31 = false ∧ u.rf a 30 0 = s.rf a 30 0)) ∧
      (bit v 31 = false → arm (fun u => u.rb a 31 = false ∧ u.rf a 29 0 = fld v 29 0)) ∧
      (¬ idle → test (fun u => u.rf t 1 0 = 3 ∧ u.reg st = s.reg st)) ∧
      (idle → pass = true → test (fun u => u.rf t 1 0 = 1 ∧ u.reg st = s.reg st)) ∧
      (idle → pass = false → test (fun u => u.rf t 1 0 = 2 ∧ u.rf st 1 0 = 2 ∧ u.rb st 19 = true ∧ ∀ b j, b < 48 → j < 16 →
        u.reg (Reg.ERRREC_REC_STATUS.at b j) = (s.record { bank := 1 + n, unit := 0x2E, code := 0x05, sev := .contained }).reg (Reg.ERRREC_REC_STATUS.at b j))))

/-- Core and cluster resets (R430, R471, R522): by the hypervisor or the sealed world, of a core whose Device load is not outstanding, which loses everything but its
SPARECNT and the restart entry that it owes, is unreleased, and has no private interrupt pending; one that must wait stays requested, and a CLUSTER reset absorbs
the CORE reset of its cluster.

Resets of the device (R58, R520-R525, R256): WARM by the sealed world or after the Fatal hold empties caches, unreleases every core, moves INCARN on, keeps fuses, error
records and the AON block, and makes a boot due; after a Fatal stop with HALT nothing but PIN reset or POR helps; PIN reset also loses memory but a
powered QDR, wipes Cask, powers a sleeping device up, and restarts the ETC after OFF. Where the manual is silent its clauses state the model's choices of log entries 5, 7, 8, 34. -/
def Obligations.Resets : Prop :=
  (∀ (s : State) (r c n : Nat), r < numCores → c < numCores → n < 8 →
      let k := s.core c
      let ctl := Reg.SYSCTL_RSTCTL.at
      let lvl := (s.core r).lvl
      let may := lvl = 3 ∨ (lvl = 2 ∧ k.lvl ≠ 3)
      let plain (d : Nat) : Prop := (s.core d).sbuf = [] ∧ (s.core d).late = [] ∧ bit ((s.core d).srd 0x200) 63 = false ∧ (s.core d).inDeviceLoad = false ∧ s.sparing d = false
      let fresh (u : State) (d : Nat) : Prop := u.core d = { Core.reset.swr 0x980 ((s.core d).srd 0x980) with restart := (s.core d).restart } ∧
        u.rb (Reg.BOOT_RELEASE.at (d / 32)) (d % 32) = false ∧ ∀ p, p < 32 → u.rf (Reg.INTD_PSTAT.at d p) 1 0 = 0
      let mayAll := lvl = 3 ∨ (lvl = 2 ∧ s.rb Reg.SYSCTL_OWNER.at n = false)
      let alone := s.rb ctl (16 + c / 6) = false
      (may → alone → s.online c = true → plain c → ∃ u, exec (.coreReset (some (.core r)) (BitVec.ofNat 6 c)) s = .next u ∧ u.rb ctl 8 = false ∧ fresh u c ∧
        (∀ d, d ≠ c → u.core d = s.core d) ∧ u.out = s.out) ∧
      (may → ¬ alone → ∃ u, exec (.coreReset (some (.core r)) (BitVec.ofNat 6 c)) s = .next u ∧ u.rb ctl 8 = false ∧ u.rb ctl (16 + c / 6) = true ∧
        u.cores = s.cores ∧ u.mem = s.mem) ∧
      (may → alone → k.inDeviceLoad = true → ∃ u, exec (.coreReset (some (.core r)) (BitVec.ofNat 6 c)) s = .next u ∧ u.rb ctl 8 = true ∧ u.rf ctl 5 0 = c ∧ u.cores = s.cores ∧
        u.mem = s.mem) ∧
      (lvl < 2 → s.rb ctl 8 = false → ∃ u, exec (.coreReset (some (.core r)) (BitVec.ofNat 6 c)) s = .next u ∧ u.rb ctl 8 = false ∧ u.cores = s.cores ∧ u.mem = s.mem) ∧
      (s.rb ctl 8 = false → exec (.coreReset none (BitVec.ofNat 6 c)) s = .next s) ∧
      (s.rb ctl 8 = true → s.rf ctl 5 0 = c → alone → s.online c = true → plain c → ∃ u, exec (.coreReset none (BitVec.ofNat 6 c)) s = .next u ∧ u.rb ctl 8 = false ∧ fresh u c) ∧
      (mayAll → (∀ i, i < 6 → plain (6 * n + i) ∧ s.online (6 * n + i) = true) → ∃ u, exec (.clusterReset (some (.core r)) (BitVec.ofNat 3 n)) s = .next u ∧
        u.rb ctl (16 + n) = false ∧ (s.rf ctl 5 0 / 6 = n → u.rb ctl 8 = false) ∧ (∀ i, i < 6 → fresh u (6 * n + i)) ∧ (∀ d, d / 6 ≠ n → u.core d = s.core d) ∧ u.out = s.out) ∧
      (mayAll → s.online c = true → c / 6 = n → k.inDeviceLoad = true → ∃ u, exec (.clusterReset (some (.core r)) (BitVec.ofNat 3 n)) s = .next u ∧ u.rb ctl (16 + n) = true ∧
        u.cores = s.cores ∧ u.mem = s.mem) ∧
      (s.rb ctl (16 + n) = false → exec (.clusterReset none (BitVec.ofNat 3 n)) s = .next s)) ∧
  (∀ (s : State) (r c a cause : Nat) (qdr : Bool), r < numCores → c < numCores → s.canonical = true → (∀ d, (s.core d).sbuf = []) →
      let why := Reg.AON_RSTCAUSE.at
      let rest (u : State) (b : Nat) : Prop := u.rb why b = true ∧ (u.core c).released = false ∧ u.mem.lines = [] ∧ u.boot.run = none ∧ u.boot.token = 0 ∧
        u.rf Reg.RELAY_HID.at 31 16 = (s.rf Reg.RELAY_HID.at 31 16 + 1) % 65536 ∧ u.reg Reg.BOOT_FSVN.at = s.reg Reg.BOOT_FSVN.at ∧
        u.reg Reg.BOOT_KEYSTAT.at = s.reg Reg.BOOT_KEYSTAT.at ∧ u.reg Reg.AON_WAKECFG.at = s.reg Reg.AON_WAKECFG.at ∧ u.host = HostEp.reset ∧
        u.reg Reg.INTD_CSIG.at = resetAt Reg.INTD_CSIG.at ∧ u.rf Reg.DEBUG_UNLOCK.at 19 16 = s.rf Reg.DEBUG_UNLOCK.at 19 16
      let warm (i : Instr) (b : Nat) : Prop := ∃ u, exec i s = .next u ∧ rest u b ∧ u.boot.due = some 2 ∧ u.boot.warm = none ∧ u.clk = s.clk ∧
        (∀ x, x < 7 → x ≠ b → u.rb why x = s.rb why x) ∧ u.pacer.queues = s.pacer.queues
      let runs := s.stopped = false ∧ s.clk.power = .run
      let qdrByte := 0x800000000 ≤ a ∧ a < 0x900000000
      ((s.core r).lvl = 3 → runs → s.boot.lcs = none → (∀ d, bit ((s.core d).srd 0x200) 63 = false) → warm (.warmReset (some (.core r))) 2) ∧
      ((s.core r).lvl ≠ 3 → s.boot.warm = none → ∃ u, exec (.warmReset (some (.core r))) s = .next u ∧ u.cores = s.cores ∧ u.mem = s.mem ∧ u.boot = s.boot) ∧
      (s.boot.warm = none ∨ s.stopped = true ∨ s.clk.power ≠ .run → exec (.warmReset none) s = .next s) ∧
      (s.boot.warm = some cause → cause < 7 → runs → s.boot.lcs = none → (∀ d, bit ((s.core d).srd 0x200) 63 = false) → warm (.warmReset none) cause) ∧
      (s.rb Reg.CSS_STAT.at 1 = false ∨ s.stopped = true → exec .fatalHoldExpiry s = .next s) ∧
      (s.rb Reg.CSS_STAT.at 1 = true → s.stopped = false → s.rb Reg.ERRREC_FATALCTL.at 16 = true → exec .fatalHoldExpiry s = .next { s with stopped := true }) ∧
      (s.rb Reg.CSS_STAT.at 1 = true → runs → s.rb Reg.ERRREC_FATALCTL.at 16 = false → s.boot.lcs = none → (∀ d, bit ((s.core d).srd 0x200) 63 = false) →
        warm .fatalHoldExpiry 3) ∧
      (∃ u, exec (.pinReset qdr) s = .next u ∧ rest u 1 ∧ u.boot.due = some 1 ∧ u.core c = Core.reset ∧ u.clk.power = .run ∧ u.stopped = false ∧
        (qdr = false ∨ a < 0x800000000 → u.mem.cell a = 0) ∧
        (u.reg Reg.MEMC_QTIER.at = s.reg Reg.MEMC_QTIER.at → u.mem.cell a = (if qdr = true ∧ qdrByte then s.mem.cell a else 0)) ∧
        u.rb Reg.MEMC_CASK_WIPE.at 1 = true ∧ (s.clk.power ≠ .run → u.boot.powerUp = true) ∧ u.out = s.out ++ [{ kind := .pin, port := 1, data := [0] }] ∧
        u.clk.etc = (if s.clk.power = .off then 0 else s.clk.etc) ∧ (s.clk.power = .off → u.rb Reg.AON_ETCSTAT.at 0 = true)))

/-! ## The whole block -/

/-- A step performs the command at the front of the queue with the queue's rest, and on an empty queue changes nothing (log entry 16). -/
def Obligations.StepRunsFront : Prop :=
  ∀ (s : State) (c : Instr) (rest : List Instr),
    step { s with pending := c :: rest } = exec c { s with pending := rest } ∧
    (s.pending = [] → step s = .next s) ∧
    (∀ t, exec c { s with pending := rest } = .next t → step { s with pending := c :: rest } = .next t)

/-- Every command is performed in every state: no command ends in a fault or a refusal. Where the manual is silent its clauses state the model's choices of log entries 3, 7, 16. -/
def Obligations.EveryCommandAnswers : Prop := ∀ (c : Instr) (s : State), ∃ t, exec c s = .next t

/-- A step takes exactly the front of the queue: no command puts a command into the queue or takes one from it, what has left the device stays
out, and the values that the manual leaves open are drawn in order. Where the manual is silent its clauses state the model's choices of log entries 3, 6, 16. -/
def Obligations.StepsTakeTheFront : Prop :=
  ∀ (s t : State), step s = .next t → t.pending = s.pending.tail ∧ s.out <+: t.out ∧ s.freeCtr ≤ t.freeCtr

/-- Every step keeps memory, the register file and the table of cores in their canonical form (equal memories are equal data). -/
def Obligations.CanonicalFormIsKept : Prop := ∀ (s t : State), s.canonical = true → step s = .next t → t.canonical = true

/-- Every step keeps every core legal (R65, R73, R79): WORLD is 1 exactly at level M, STAT's reserved bits are zero, and PC, LBEG and LEND are word addresses. -/
def Obligations.CoresStayLegal : Prop :=
  ∀ (s t : State), (∀ c, (s.core c).legal = true) → step s = .next t → ∀ c, (t.core c).legal = true

/-- The device after POR (R58, R520): nothing waits, no core is released, each is legal at level M with its register file zero (log entry 2), every register
has its reset value, memory lists nothing and reads zero (log entry 5) but for the boot ROM, whose contents are open (log entry 3), no line is cached or poisoned, no operation is in flight, and a power-on boot is due. -/
def Obligations.ResetState : Prop :=
  let s := State.reset
  s.pending = [] ∧ s.out = [] ∧ s.canonical = true ∧ s.clk.etc = 0 ∧ s.boot.due = some 0 ∧ s.css.ops = [] ∧ s.css.log = [] ∧
  (∀ a, s.reg a = resetAt a) ∧
  (∀ c, (s.core c).legal = true ∧ (s.core c).lvl = 3 ∧ (s.core c).released = false ∧ (s.core c).halted = false ∧ (s.core c).pc = 0 ∧ (s.core c).sbuf = [] ∧
    (s.core c).resv = none ∧ ∀ r, (s.core c).g r = 0 ∧ (s.core c).f r = 0) ∧
  (∀ a, s.byte a = if a < 0x40000 then Config.romByte a else 0) ∧ (∀ n, (s.mem.line n).dirty = none ∧ (s.mem.line n).copies = [] ∧ s.mem.poisonAt n = false)
end

