-- ==== Sys2Proof/Laws/Sparse.lean ====
section
/-! SUPPORT. The laws of sparse tables: a read after a write, and the canonical form that every write keeps. -/
namespace Sys2Proof.Machine
variable {α : Type}

/-! ## Read after write -/

theorem Sparse.get_insert_self (d : α) (m : Sparse α) (k : Nat) (v : α) : Sparse.get d (Sparse.insert k v m) k = v := by
  induction m with
  | nil => simp [Sparse.insert, Sparse.get]
  | cons e t ih =>
    obtain ⟨k', v'⟩ := e
    simp only [Sparse.insert]
    split
    · rename_i h; simp [Sparse.get, Nat.ne_of_lt h, ih]
    · split <;> simp [Sparse.get]

theorem Sparse.get_insert_ne (d : α) (m : Sparse α) {k j : Nat} (v : α) (h : j ≠ k) :
    Sparse.get d (Sparse.insert k v m) j = Sparse.get d m j := by
  induction m with
  | nil => simp [Sparse.insert, Sparse.get, Ne.symm h]
  | cons e t ih =>
    obtain ⟨k', v'⟩ := e
    simp only [Sparse.insert]
    split
    · simp [Sparse.get, ih]
    · split
      · rename_i h1; subst h1; simp [Sparse.get, Ne.symm h]
      · simp [Sparse.get, Ne.symm h]

theorem Sparse.get_erase_self (d : α) (m : Sparse α) (k : Nat) : Sparse.get d (m.erase k) k = d := by
  induction m with
  | nil => rfl
  | cons e t ih =>
    obtain ⟨k', v'⟩ := e
    by_cases h : k' = k
    · subst h; simpa [Sparse.erase, List.filter] using ih
    · have h' : (k' != k) = true := by simpa using h
      simp only [Sparse.erase] at ih
      simp [Sparse.erase, List.filter, h', Sparse.get, h, ih]

theorem Sparse.get_erase_ne (d : α) (m : Sparse α) {k j : Nat} (h : j ≠ k) :
    Sparse.get d (m.erase k) j = Sparse.get d m j := by
  induction m with
  | nil => rfl
  | cons e t ih =>
    obtain ⟨k', v'⟩ := e
    simp only [Sparse.erase] at ih
    by_cases h1 : k' = k
    · subst h1; simp [Sparse.erase, List.filter, Sparse.get, Ne.symm h, ih]
    · have h' : (k' != k) = true := by simpa using h1
      simp [Sparse.erase, List.filter, h', Sparse.get, ih]

variable [DecidableEq α]

/-- What a write stores is what the next read of its key gives. -/
@[simp] theorem Sparse.get_set_self (d : α) (m : Sparse α) (k : Nat) (v : α) : Sparse.get d (Sparse.set d m k v) k = v := by
  unfold Sparse.set; split
  · rename_i h; rw [Sparse.get_erase_self, h]
  · exact Sparse.get_insert_self d m k v

/-- A write leaves every other key alone. -/
theorem Sparse.get_set_ne (d : α) (m : Sparse α) {k j : Nat} (v : α) (h : j ≠ k) :
    Sparse.get d (Sparse.set d m k v) j = Sparse.get d m j := by
  unfold Sparse.set; split
  · exact Sparse.get_erase_ne d m h
  · exact Sparse.get_insert_ne d m v h

/-- A read after a write, of any key. -/
theorem Sparse.get_set (d : α) (m : Sparse α) (k j : Nat) (v : α) :
    Sparse.get d (Sparse.set d m k v) j = if j = k then v else Sparse.get d m j := by
  split
  · rename_i h; subst h; exact Sparse.get_set_self d m j v
  · rename_i h; exact Sparse.get_set_ne d m v h

omit [DecidableEq α] in
theorem Sparse.insert_insert (m : Sparse α) (k : Nat) (u v : α) :
    Sparse.insert k v (Sparse.insert k u m) = Sparse.insert k v m := by
  induction m with
  | nil => simp [Sparse.insert]
  | cons e t ih =>
    obtain ⟨k', v'⟩ := e
    simp only [Sparse.insert]
    split
    · rename_i h; simp [Sparse.insert, h, ih]
    · split <;> simp [Sparse.insert]

/-- Of two writes of one key the second stays, where the first is no default. -/
theorem Sparse.set_set (d : α) (m : Sparse α) (k : Nat) (u v : α) (hu : u ≠ d) (hv : v ≠ d) :
    Sparse.set d (Sparse.set d m k u) k v = Sparse.set d m k v := by
  simp [Sparse.set, hu, hv, Sparse.insert_insert]

/-! ## The canonical form -/

omit [DecidableEq α] in
theorem Sparse.sortedFrom_mono {a b : Nat} {m : Sparse α} (h : Sparse.sortedFrom b m = true) (hab : a ≤ b) :
    Sparse.sortedFrom a m = true := by
  cases m with
  | nil => rfl
  | cons e t =>
    obtain ⟨k, v⟩ := e
    simp only [Sparse.sortedFrom, Bool.and_eq_true, decide_eq_true_eq] at h ⊢
    exact ⟨by omega, h.2⟩

omit [DecidableEq α] in
theorem Sparse.sortedFrom_erase {b : Nat} {m : Sparse α} (k : Nat) (h : Sparse.sortedFrom b m = true) :
    Sparse.sortedFrom b (m.erase k) = true := by
  induction m generalizing b with
  | nil => rfl
  | cons e t ih =>
    obtain ⟨k', v⟩ := e
    simp only [Sparse.sortedFrom, Bool.and_eq_true, decide_eq_true_eq] at h
    have hi := ih h.2
    by_cases h1 : k' = k
    · subst h1
      have : Sparse.erase ((k', v) :: t) k' = Sparse.erase t k' := by simp [Sparse.erase, List.filter]
      rw [this]
      exact Sparse.sortedFrom_mono hi (by omega)
    · have h' : (k' != k) = true := by simpa using h1
      have : Sparse.erase ((k', v) :: t) k = (k', v) :: Sparse.erase t k := by simp [Sparse.erase, List.filter, h']
      rw [this]
      simp [Sparse.sortedFrom, h.1, hi]

omit [DecidableEq α] in
theorem Sparse.sortedFrom_insert {b : Nat} {m : Sparse α} {k : Nat} {v : α} (hb : b ≤ k)
    (h : Sparse.sortedFrom b m = true) : Sparse.sortedFrom b (Sparse.insert k v m) = true := by
  induction m generalizing b with
  | nil => simp [Sparse.insert, Sparse.sortedFrom, hb]
  | cons e t ih =>
    obtain ⟨k', v'⟩ := e
    simp only [Sparse.sortedFrom, Bool.and_eq_true, decide_eq_true_eq] at h
    simp only [Sparse.insert]
    split
    · rename_i hlt
      simp [Sparse.sortedFrom, h.1, ih (by omega : k' + 1 ≤ k) h.2]
    · split
      · rename_i he; subst he
        simp [Sparse.sortedFrom, h.1, h.2]
      · rename_i h1 h2
        simp only [Sparse.sortedFrom, Bool.and_eq_true, decide_eq_true_eq]
        exact ⟨hb, by omega, h.2⟩

omit [DecidableEq α] in
theorem Sparse.mem_insert {e : Nat × α} {k : Nat} {v : α} {m : Sparse α} (h : e ∈ Sparse.insert k v m) : e = (k, v) ∨ e ∈ m := by
  induction m with
  | nil => exact Or.inl (by simpa [Sparse.insert] using h)
  | cons x t ih =>
    obtain ⟨k', v'⟩ := x
    simp only [Sparse.insert] at h
    split at h
    · cases h with
      | head => exact Or.inr (List.mem_cons_self ..)
      | tail _ h => exact (ih h).imp id (List.mem_cons_of_mem _)
    · split at h
      · cases h with
        | head => exact Or.inl rfl
        | tail _ h => exact Or.inr (List.mem_cons_of_mem _ h)
      · cases h with
        | head => exact Or.inl rfl
        | tail _ h => exact Or.inr h

omit [DecidableEq α] in
theorem Sparse.sortedFrom_filter {b : Nat} {m : Sparse α} (p : Nat × α → Bool) (h : Sparse.sortedFrom b m = true) :
    Sparse.sortedFrom b (m.filter p) = true := by
  induction m generalizing b with
  | nil => rfl
  | cons e t ih =>
    obtain ⟨k, v⟩ := e
    simp only [Sparse.sortedFrom, Bool.and_eq_true, decide_eq_true_eq] at h
    simp only [List.filter]
    split
    · simp [Sparse.sortedFrom, h.1, ih h.2]
    · exact Sparse.sortedFrom_mono (ih h.2) (by omega)

/-- A table of some of the entries is in canonical form. -/
theorem Sparse.wf_filter {d : Nat → α} {m : Sparse α} (p : Nat × α → Bool) (h : Sparse.wf d m = true) :
    Sparse.wf d (m.filter p) = true := by
  simp only [Sparse.wf, Bool.and_eq_true, List.all_eq_true] at h ⊢
  exact ⟨Sparse.sortedFrom_filter p h.1, fun e he => h.2 e (List.mem_filter.mp he).1⟩

/-- Writing a key keeps the canonical form. -/
theorem Sparse.wf_set {d : Nat → α} {m : Sparse α} (k : Nat) (v : α) (h : Sparse.wf d m = true) :
    Sparse.wf d (Sparse.set (d k) m k v) = true := by
  simp only [Sparse.wf, Bool.and_eq_true, List.all_eq_true, decide_eq_true_eq] at h ⊢
  unfold Sparse.set
  split
  · refine ⟨Sparse.sortedFrom_erase k h.1, fun e he => h.2 e ?_⟩
    exact (List.mem_filter.mp he).1
  · rename_i hv
    refine ⟨Sparse.sortedFrom_insert (Nat.zero_le _) h.1, fun e he => ?_⟩
    rcases Sparse.mem_insert he with rfl | he
    · exact hv
    · exact h.2 e he

@[simp] theorem Sparse.wf_nil (d : Nat → α) : Sparse.wf d ([] : Sparse α) = true := by simp [Sparse.wf, Sparse.sortedFrom]

end Sys2Proof.Machine
end

