-- ==== Sys2Proof/Laws/State.lean ====
section
/-! SUPPORT. What each update of the state leaves alone: one lemma per field and update. -/
namespace Sys2Proof.Machine

/-! ## A register -/

@[simp] theorem State.setReg_pending (s : State) (a : Nat) (v : W32) : (s.setReg a v).pending = s.pending := rfl
@[simp] theorem State.setReg_latch (s : State) (a : Nat) (v : W32) : (s.setReg a v).latch = s.latch := rfl
@[simp] theorem State.setReg_hold (s : State) (a : Nat) (v : W32) : (s.setReg a v).hold = s.hold := rfl
@[simp] theorem State.setReg_cores (s : State) (a : Nat) (v : W32) : (s.setReg a v).cores = s.cores := rfl
@[simp] theorem State.setReg_mem (s : State) (a : Nat) (v : W32) : (s.setReg a v).mem = s.mem := rfl
@[simp] theorem State.setReg_clk (s : State) (a : Nat) (v : W32) : (s.setReg a v).clk = s.clk := rfl
@[simp] theorem State.setReg_ceCount (s : State) (a : Nat) (v : W32) : (s.setReg a v).ceCount = s.ceCount := rfl
@[simp] theorem State.setReg_errOut (s : State) (a : Nat) (v : W32) : (s.setReg a v).errOut = s.errOut := rfl
@[simp] theorem State.setReg_fatalDue (s : State) (a : Nat) (v : W32) : (s.setReg a v).fatalDue = s.fatalDue := rfl
@[simp] theorem State.setReg_stopped (s : State) (a : Nat) (v : W32) : (s.setReg a v).stopped = s.stopped := rfl
@[simp] theorem State.setReg_host (s : State) (a : Nat) (v : W32) : (s.setReg a v).host = s.host := rfl
@[simp] theorem State.setReg_trace (s : State) (a : Nat) (v : W32) : (s.setReg a v).trace = s.trace := rfl
@[simp] theorem State.setReg_lines (s : State) (a : Nat) (v : W32) : (s.setReg a v).lines = s.lines := rfl
@[simp] theorem State.setReg_pacer (s : State) (a : Nat) (v : W32) : (s.setReg a v).pacer = s.pacer := rfl
@[simp] theorem State.setReg_spare (s : State) (a : Nat) (v : W32) : (s.setReg a v).spare = s.spare := rfl
@[simp] theorem State.setReg_memc (s : State) (a : Nat) (v : W32) : (s.setReg a v).memc = s.memc := rfl
@[simp] theorem State.setReg_css (s : State) (a : Nat) (v : W32) : (s.setReg a v).css = s.css := rfl
@[simp] theorem State.setReg_adpt (s : State) (a : Nat) (v : W32) : (s.setReg a v).adpt = s.adpt := rfl
@[simp] theorem State.setReg_mash (s : State) (a : Nat) (v : W32) : (s.setReg a v).mash = s.mash := rfl
@[simp] theorem State.setReg_kiln (s : State) (a : Nat) (v : W32) : (s.setReg a v).kiln = s.kiln := rfl
@[simp] theorem State.setReg_vault (s : State) (a : Nat) (v : W32) : (s.setReg a v).vault = s.vault := rfl
@[simp] theorem State.setReg_relay (s : State) (a : Nat) (v : W32) : (s.setReg a v).relay = s.relay := rfl
@[simp] theorem State.setReg_boot (s : State) (a : Nat) (v : W32) : (s.setReg a v).boot = s.boot := rfl
@[simp] theorem State.setReg_jtag (s : State) (a : Nat) (v : W32) : (s.setReg a v).jtag = s.jtag := rfl
@[simp] theorem State.setReg_freeCtr (s : State) (a : Nat) (v : W32) : (s.setReg a v).freeCtr = s.freeCtr := rfl
@[simp] theorem State.setReg_out (s : State) (a : Nat) (v : W32) : (s.setReg a v).out = s.out := rfl

/-! ## A field of a register -/

@[simp] theorem State.setRf_pending (s : State) (a hi lo n : Nat) : (s.setRf a hi lo n).pending = s.pending := rfl
@[simp] theorem State.setRf_latch (s : State) (a hi lo n : Nat) : (s.setRf a hi lo n).latch = s.latch := rfl
@[simp] theorem State.setRf_hold (s : State) (a hi lo n : Nat) : (s.setRf a hi lo n).hold = s.hold := rfl
@[simp] theorem State.setRf_cores (s : State) (a hi lo n : Nat) : (s.setRf a hi lo n).cores = s.cores := rfl
@[simp] theorem State.setRf_mem (s : State) (a hi lo n : Nat) : (s.setRf a hi lo n).mem = s.mem := rfl
@[simp] theorem State.setRf_clk (s : State) (a hi lo n : Nat) : (s.setRf a hi lo n).clk = s.clk := rfl
@[simp] theorem State.setRf_ceCount (s : State) (a hi lo n : Nat) : (s.setRf a hi lo n).ceCount = s.ceCount := rfl
@[simp] theorem State.setRf_errOut (s : State) (a hi lo n : Nat) : (s.setRf a hi lo n).errOut = s.errOut := rfl
@[simp] theorem State.setRf_fatalDue (s : State) (a hi lo n : Nat) : (s.setRf a hi lo n).fatalDue = s.fatalDue := rfl
@[simp] theorem State.setRf_stopped (s : State) (a hi lo n : Nat) : (s.setRf a hi lo n).stopped = s.stopped := rfl
@[simp] theorem State.setRf_host (s : State) (a hi lo n : Nat) : (s.setRf a hi lo n).host = s.host := rfl
@[simp] theorem State.setRf_trace (s : State) (a hi lo n : Nat) : (s.setRf a hi lo n).trace = s.trace := rfl
@[simp] theorem State.setRf_lines (s : State) (a hi lo n : Nat) : (s.setRf a hi lo n).lines = s.lines := rfl
@[simp] theorem State.setRf_pacer (s : State) (a hi lo n : Nat) : (s.setRf a hi lo n).pacer = s.pacer := rfl
@[simp] theorem State.setRf_spare (s : State) (a hi lo n : Nat) : (s.setRf a hi lo n).spare = s.spare := rfl
@[simp] theorem State.setRf_memc (s : State) (a hi lo n : Nat) : (s.setRf a hi lo n).memc = s.memc := rfl
@[simp] theorem State.setRf_css (s : State) (a hi lo n : Nat) : (s.setRf a hi lo n).css = s.css := rfl
@[simp] theorem State.setRf_adpt (s : State) (a hi lo n : Nat) : (s.setRf a hi lo n).adpt = s.adpt := rfl
@[simp] theorem State.setRf_mash (s : State) (a hi lo n : Nat) : (s.setRf a hi lo n).mash = s.mash := rfl
@[simp] theorem State.setRf_kiln (s : State) (a hi lo n : Nat) : (s.setRf a hi lo n).kiln = s.kiln := rfl
@[simp] theorem State.setRf_vault (s : State) (a hi lo n : Nat) : (s.setRf a hi lo n).vault = s.vault := rfl
@[simp] theorem State.setRf_relay (s : State) (a hi lo n : Nat) : (s.setRf a hi lo n).relay = s.relay := rfl
@[simp] theorem State.setRf_boot (s : State) (a hi lo n : Nat) : (s.setRf a hi lo n).boot = s.boot := rfl
@[simp] theorem State.setRf_jtag (s : State) (a hi lo n : Nat) : (s.setRf a hi lo n).jtag = s.jtag := rfl
@[simp] theorem State.setRf_freeCtr (s : State) (a hi lo n : Nat) : (s.setRf a hi lo n).freeCtr = s.freeCtr := rfl
@[simp] theorem State.setRf_out (s : State) (a hi lo n : Nat) : (s.setRf a hi lo n).out = s.out := rfl

/-! ## A bit of a register -/

@[simp] theorem State.setRb_pending (s : State) (a i : Nat) (b : Bool) : (s.setRb a i b).pending = s.pending := rfl
@[simp] theorem State.setRb_latch (s : State) (a i : Nat) (b : Bool) : (s.setRb a i b).latch = s.latch := rfl
@[simp] theorem State.setRb_hold (s : State) (a i : Nat) (b : Bool) : (s.setRb a i b).hold = s.hold := rfl
@[simp] theorem State.setRb_cores (s : State) (a i : Nat) (b : Bool) : (s.setRb a i b).cores = s.cores := rfl
@[simp] theorem State.setRb_mem (s : State) (a i : Nat) (b : Bool) : (s.setRb a i b).mem = s.mem := rfl
@[simp] theorem State.setRb_clk (s : State) (a i : Nat) (b : Bool) : (s.setRb a i b).clk = s.clk := rfl
@[simp] theorem State.setRb_ceCount (s : State) (a i : Nat) (b : Bool) : (s.setRb a i b).ceCount = s.ceCount := rfl
@[simp] theorem State.setRb_errOut (s : State) (a i : Nat) (b : Bool) : (s.setRb a i b).errOut = s.errOut := rfl
@[simp] theorem State.setRb_fatalDue (s : State) (a i : Nat) (b : Bool) : (s.setRb a i b).fatalDue = s.fatalDue := rfl
@[simp] theorem State.setRb_stopped (s : State) (a i : Nat) (b : Bool) : (s.setRb a i b).stopped = s.stopped := rfl
@[simp] theorem State.setRb_host (s : State) (a i : Nat) (b : Bool) : (s.setRb a i b).host = s.host := rfl
@[simp] theorem State.setRb_trace (s : State) (a i : Nat) (b : Bool) : (s.setRb a i b).trace = s.trace := rfl
@[simp] theorem State.setRb_lines (s : State) (a i : Nat) (b : Bool) : (s.setRb a i b).lines = s.lines := rfl
@[simp] theorem State.setRb_pacer (s : State) (a i : Nat) (b : Bool) : (s.setRb a i b).pacer = s.pacer := rfl
@[simp] theorem State.setRb_spare (s : State) (a i : Nat) (b : Bool) : (s.setRb a i b).spare = s.spare := rfl
@[simp] theorem State.setRb_memc (s : State) (a i : Nat) (b : Bool) : (s.setRb a i b).memc = s.memc := rfl
@[simp] theorem State.setRb_css (s : State) (a i : Nat) (b : Bool) : (s.setRb a i b).css = s.css := rfl
@[simp] theorem State.setRb_adpt (s : State) (a i : Nat) (b : Bool) : (s.setRb a i b).adpt = s.adpt := rfl
@[simp] theorem State.setRb_mash (s : State) (a i : Nat) (b : Bool) : (s.setRb a i b).mash = s.mash := rfl
@[simp] theorem State.setRb_kiln (s : State) (a i : Nat) (b : Bool) : (s.setRb a i b).kiln = s.kiln := rfl
@[simp] theorem State.setRb_vault (s : State) (a i : Nat) (b : Bool) : (s.setRb a i b).vault = s.vault := rfl
@[simp] theorem State.setRb_relay (s : State) (a i : Nat) (b : Bool) : (s.setRb a i b).relay = s.relay := rfl
@[simp] theorem State.setRb_boot (s : State) (a i : Nat) (b : Bool) : (s.setRb a i b).boot = s.boot := rfl
@[simp] theorem State.setRb_jtag (s : State) (a i : Nat) (b : Bool) : (s.setRb a i b).jtag = s.jtag := rfl
@[simp] theorem State.setRb_freeCtr (s : State) (a i : Nat) (b : Bool) : (s.setRb a i b).freeCtr = s.freeCtr := rfl
@[simp] theorem State.setRb_out (s : State) (a i : Nat) (b : Bool) : (s.setRb a i b).out = s.out := rfl

/-! ## A pair of registers -/

@[simp] theorem State.setReg64_pending (s : State) (a n : Nat) : (s.setReg64 a n).pending = s.pending := rfl
@[simp] theorem State.setReg64_latch (s : State) (a n : Nat) : (s.setReg64 a n).latch = s.latch := rfl
@[simp] theorem State.setReg64_hold (s : State) (a n : Nat) : (s.setReg64 a n).hold = s.hold := rfl
@[simp] theorem State.setReg64_cores (s : State) (a n : Nat) : (s.setReg64 a n).cores = s.cores := rfl
@[simp] theorem State.setReg64_mem (s : State) (a n : Nat) : (s.setReg64 a n).mem = s.mem := rfl
@[simp] theorem State.setReg64_clk (s : State) (a n : Nat) : (s.setReg64 a n).clk = s.clk := rfl
@[simp] theorem State.setReg64_ceCount (s : State) (a n : Nat) : (s.setReg64 a n).ceCount = s.ceCount := rfl
@[simp] theorem State.setReg64_errOut (s : State) (a n : Nat) : (s.setReg64 a n).errOut = s.errOut := rfl
@[simp] theorem State.setReg64_fatalDue (s : State) (a n : Nat) : (s.setReg64 a n).fatalDue = s.fatalDue := rfl
@[simp] theorem State.setReg64_stopped (s : State) (a n : Nat) : (s.setReg64 a n).stopped = s.stopped := rfl
@[simp] theorem State.setReg64_host (s : State) (a n : Nat) : (s.setReg64 a n).host = s.host := rfl
@[simp] theorem State.setReg64_trace (s : State) (a n : Nat) : (s.setReg64 a n).trace = s.trace := rfl
@[simp] theorem State.setReg64_lines (s : State) (a n : Nat) : (s.setReg64 a n).lines = s.lines := rfl
@[simp] theorem State.setReg64_pacer (s : State) (a n : Nat) : (s.setReg64 a n).pacer = s.pacer := rfl
@[simp] theorem State.setReg64_spare (s : State) (a n : Nat) : (s.setReg64 a n).spare = s.spare := rfl
@[simp] theorem State.setReg64_memc (s : State) (a n : Nat) : (s.setReg64 a n).memc = s.memc := rfl
@[simp] theorem State.setReg64_css (s : State) (a n : Nat) : (s.setReg64 a n).css = s.css := rfl
@[simp] theorem State.setReg64_adpt (s : State) (a n : Nat) : (s.setReg64 a n).adpt = s.adpt := rfl
@[simp] theorem State.setReg64_mash (s : State) (a n : Nat) : (s.setReg64 a n).mash = s.mash := rfl
@[simp] theorem State.setReg64_kiln (s : State) (a n : Nat) : (s.setReg64 a n).kiln = s.kiln := rfl
@[simp] theorem State.setReg64_vault (s : State) (a n : Nat) : (s.setReg64 a n).vault = s.vault := rfl
@[simp] theorem State.setReg64_relay (s : State) (a n : Nat) : (s.setReg64 a n).relay = s.relay := rfl
@[simp] theorem State.setReg64_boot (s : State) (a n : Nat) : (s.setReg64 a n).boot = s.boot := rfl
@[simp] theorem State.setReg64_jtag (s : State) (a n : Nat) : (s.setReg64 a n).jtag = s.jtag := rfl
@[simp] theorem State.setReg64_freeCtr (s : State) (a n : Nat) : (s.setReg64 a n).freeCtr = s.freeCtr := rfl
@[simp] theorem State.setReg64_out (s : State) (a n : Nat) : (s.setReg64 a n).out = s.out := rfl

/-! ## A core -/

@[simp] theorem State.setCore_pending (s : State) (c : Nat) (k : Core) : (s.setCore c k).pending = s.pending := rfl
@[simp] theorem State.setCore_regs (s : State) (c : Nat) (k : Core) : (s.setCore c k).regs = s.regs := rfl
@[simp] theorem State.setCore_latch (s : State) (c : Nat) (k : Core) : (s.setCore c k).latch = s.latch := rfl
@[simp] theorem State.setCore_hold (s : State) (c : Nat) (k : Core) : (s.setCore c k).hold = s.hold := rfl
@[simp] theorem State.setCore_mem (s : State) (c : Nat) (k : Core) : (s.setCore c k).mem = s.mem := rfl
@[simp] theorem State.setCore_clk (s : State) (c : Nat) (k : Core) : (s.setCore c k).clk = s.clk := rfl
@[simp] theorem State.setCore_ceCount (s : State) (c : Nat) (k : Core) : (s.setCore c k).ceCount = s.ceCount := rfl
@[simp] theorem State.setCore_errOut (s : State) (c : Nat) (k : Core) : (s.setCore c k).errOut = s.errOut := rfl
@[simp] theorem State.setCore_fatalDue (s : State) (c : Nat) (k : Core) : (s.setCore c k).fatalDue = s.fatalDue := rfl
@[simp] theorem State.setCore_stopped (s : State) (c : Nat) (k : Core) : (s.setCore c k).stopped = s.stopped := rfl
@[simp] theorem State.setCore_host (s : State) (c : Nat) (k : Core) : (s.setCore c k).host = s.host := rfl
@[simp] theorem State.setCore_trace (s : State) (c : Nat) (k : Core) : (s.setCore c k).trace = s.trace := rfl
@[simp] theorem State.setCore_lines (s : State) (c : Nat) (k : Core) : (s.setCore c k).lines = s.lines := rfl
@[simp] theorem State.setCore_pacer (s : State) (c : Nat) (k : Core) : (s.setCore c k).pacer = s.pacer := rfl
@[simp] theorem State.setCore_spare (s : State) (c : Nat) (k : Core) : (s.setCore c k).spare = s.spare := rfl
@[simp] theorem State.setCore_memc (s : State) (c : Nat) (k : Core) : (s.setCore c k).memc = s.memc := rfl
@[simp] theorem State.setCore_css (s : State) (c : Nat) (k : Core) : (s.setCore c k).css = s.css := rfl
@[simp] theorem State.setCore_adpt (s : State) (c : Nat) (k : Core) : (s.setCore c k).adpt = s.adpt := rfl
@[simp] theorem State.setCore_mash (s : State) (c : Nat) (k : Core) : (s.setCore c k).mash = s.mash := rfl
@[simp] theorem State.setCore_kiln (s : State) (c : Nat) (k : Core) : (s.setCore c k).kiln = s.kiln := rfl
@[simp] theorem State.setCore_vault (s : State) (c : Nat) (k : Core) : (s.setCore c k).vault = s.vault := rfl
@[simp] theorem State.setCore_relay (s : State) (c : Nat) (k : Core) : (s.setCore c k).relay = s.relay := rfl
@[simp] theorem State.setCore_boot (s : State) (c : Nat) (k : Core) : (s.setCore c k).boot = s.boot := rfl
@[simp] theorem State.setCore_jtag (s : State) (c : Nat) (k : Core) : (s.setCore c k).jtag = s.jtag := rfl
@[simp] theorem State.setCore_freeCtr (s : State) (c : Nat) (k : Core) : (s.setCore c k).freeCtr = s.freeCtr := rfl
@[simp] theorem State.setCore_out (s : State) (c : Nat) (k : Core) : (s.setCore c k).out = s.out := rfl

/-! ## A core, changed -/

@[simp] theorem State.modCore_pending (s : State) (c : Nat) (f : Core → Core) : (s.modCore c f).pending = s.pending := rfl
@[simp] theorem State.modCore_regs (s : State) (c : Nat) (f : Core → Core) : (s.modCore c f).regs = s.regs := rfl
@[simp] theorem State.modCore_latch (s : State) (c : Nat) (f : Core → Core) : (s.modCore c f).latch = s.latch := rfl
@[simp] theorem State.modCore_hold (s : State) (c : Nat) (f : Core → Core) : (s.modCore c f).hold = s.hold := rfl
@[simp] theorem State.modCore_mem (s : State) (c : Nat) (f : Core → Core) : (s.modCore c f).mem = s.mem := rfl
@[simp] theorem State.modCore_clk (s : State) (c : Nat) (f : Core → Core) : (s.modCore c f).clk = s.clk := rfl
@[simp] theorem State.modCore_ceCount (s : State) (c : Nat) (f : Core → Core) : (s.modCore c f).ceCount = s.ceCount := rfl
@[simp] theorem State.modCore_errOut (s : State) (c : Nat) (f : Core → Core) : (s.modCore c f).errOut = s.errOut := rfl
@[simp] theorem State.modCore_fatalDue (s : State) (c : Nat) (f : Core → Core) : (s.modCore c f).fatalDue = s.fatalDue := rfl
@[simp] theorem State.modCore_stopped (s : State) (c : Nat) (f : Core → Core) : (s.modCore c f).stopped = s.stopped := rfl
@[simp] theorem State.modCore_host (s : State) (c : Nat) (f : Core → Core) : (s.modCore c f).host = s.host := rfl
@[simp] theorem State.modCore_trace (s : State) (c : Nat) (f : Core → Core) : (s.modCore c f).trace = s.trace := rfl
@[simp] theorem State.modCore_lines (s : State) (c : Nat) (f : Core → Core) : (s.modCore c f).lines = s.lines := rfl
@[simp] theorem State.modCore_pacer (s : State) (c : Nat) (f : Core → Core) : (s.modCore c f).pacer = s.pacer := rfl
@[simp] theorem State.modCore_spare (s : State) (c : Nat) (f : Core → Core) : (s.modCore c f).spare = s.spare := rfl
@[simp] theorem State.modCore_memc (s : State) (c : Nat) (f : Core → Core) : (s.modCore c f).memc = s.memc := rfl
@[simp] theorem State.modCore_css (s : State) (c : Nat) (f : Core → Core) : (s.modCore c f).css = s.css := rfl
@[simp] theorem State.modCore_adpt (s : State) (c : Nat) (f : Core → Core) : (s.modCore c f).adpt = s.adpt := rfl
@[simp] theorem State.modCore_mash (s : State) (c : Nat) (f : Core → Core) : (s.modCore c f).mash = s.mash := rfl
@[simp] theorem State.modCore_kiln (s : State) (c : Nat) (f : Core → Core) : (s.modCore c f).kiln = s.kiln := rfl
@[simp] theorem State.modCore_vault (s : State) (c : Nat) (f : Core → Core) : (s.modCore c f).vault = s.vault := rfl
@[simp] theorem State.modCore_relay (s : State) (c : Nat) (f : Core → Core) : (s.modCore c f).relay = s.relay := rfl
@[simp] theorem State.modCore_boot (s : State) (c : Nat) (f : Core → Core) : (s.modCore c f).boot = s.boot := rfl
@[simp] theorem State.modCore_jtag (s : State) (c : Nat) (f : Core → Core) : (s.modCore c f).jtag = s.jtag := rfl
@[simp] theorem State.modCore_freeCtr (s : State) (c : Nat) (f : Core → Core) : (s.modCore c f).freeCtr = s.freeCtr := rfl
@[simp] theorem State.modCore_out (s : State) (c : Nat) (f : Core → Core) : (s.modCore c f).out = s.out := rfl

/-! ## A free value -/

@[simp] theorem State.took_pending (s : State) : (s.took).pending = s.pending := rfl
@[simp] theorem State.took_regs (s : State) : (s.took).regs = s.regs := rfl
@[simp] theorem State.took_latch (s : State) : (s.took).latch = s.latch := rfl
@[simp] theorem State.took_hold (s : State) : (s.took).hold = s.hold := rfl
@[simp] theorem State.took_cores (s : State) : (s.took).cores = s.cores := rfl
@[simp] theorem State.took_mem (s : State) : (s.took).mem = s.mem := rfl
@[simp] theorem State.took_clk (s : State) : (s.took).clk = s.clk := rfl
@[simp] theorem State.took_ceCount (s : State) : (s.took).ceCount = s.ceCount := rfl
@[simp] theorem State.took_errOut (s : State) : (s.took).errOut = s.errOut := rfl
@[simp] theorem State.took_fatalDue (s : State) : (s.took).fatalDue = s.fatalDue := rfl
@[simp] theorem State.took_stopped (s : State) : (s.took).stopped = s.stopped := rfl
@[simp] theorem State.took_host (s : State) : (s.took).host = s.host := rfl
@[simp] theorem State.took_trace (s : State) : (s.took).trace = s.trace := rfl
@[simp] theorem State.took_lines (s : State) : (s.took).lines = s.lines := rfl
@[simp] theorem State.took_pacer (s : State) : (s.took).pacer = s.pacer := rfl
@[simp] theorem State.took_spare (s : State) : (s.took).spare = s.spare := rfl
@[simp] theorem State.took_memc (s : State) : (s.took).memc = s.memc := rfl
@[simp] theorem State.took_css (s : State) : (s.took).css = s.css := rfl
@[simp] theorem State.took_adpt (s : State) : (s.took).adpt = s.adpt := rfl
@[simp] theorem State.took_mash (s : State) : (s.took).mash = s.mash := rfl
@[simp] theorem State.took_kiln (s : State) : (s.took).kiln = s.kiln := rfl
@[simp] theorem State.took_vault (s : State) : (s.took).vault = s.vault := rfl
@[simp] theorem State.took_relay (s : State) : (s.took).relay = s.relay := rfl
@[simp] theorem State.took_boot (s : State) : (s.took).boot = s.boot := rfl
@[simp] theorem State.took_jtag (s : State) : (s.took).jtag = s.jtag := rfl
@[simp] theorem State.took_out (s : State) : (s.took).out = s.out := rfl

/-! ## An output -/

@[simp] theorem State.emit_pending (s : State) (k : OutKind) (p : Nat) (d : List Nat) : (s.emit k p d).pending = s.pending := rfl
@[simp] theorem State.emit_regs (s : State) (k : OutKind) (p : Nat) (d : List Nat) : (s.emit k p d).regs = s.regs := rfl
@[simp] theorem State.emit_latch (s : State) (k : OutKind) (p : Nat) (d : List Nat) : (s.emit k p d).latch = s.latch := rfl
@[simp] theorem State.emit_hold (s : State) (k : OutKind) (p : Nat) (d : List Nat) : (s.emit k p d).hold = s.hold := rfl
@[simp] theorem State.emit_cores (s : State) (k : OutKind) (p : Nat) (d : List Nat) : (s.emit k p d).cores = s.cores := rfl
@[simp] theorem State.emit_mem (s : State) (k : OutKind) (p : Nat) (d : List Nat) : (s.emit k p d).mem = s.mem := rfl
@[simp] theorem State.emit_clk (s : State) (k : OutKind) (p : Nat) (d : List Nat) : (s.emit k p d).clk = s.clk := rfl
@[simp] theorem State.emit_ceCount (s : State) (k : OutKind) (p : Nat) (d : List Nat) : (s.emit k p d).ceCount = s.ceCount := rfl
@[simp] theorem State.emit_errOut (s : State) (k : OutKind) (p : Nat) (d : List Nat) : (s.emit k p d).errOut = s.errOut := rfl
@[simp] theorem State.emit_fatalDue (s : State) (k : OutKind) (p : Nat) (d : List Nat) : (s.emit k p d).fatalDue = s.fatalDue := rfl
@[simp] theorem State.emit_stopped (s : State) (k : OutKind) (p : Nat) (d : List Nat) : (s.emit k p d).stopped = s.stopped := rfl
@[simp] theorem State.emit_host (s : State) (k : OutKind) (p : Nat) (d : List Nat) : (s.emit k p d).host = s.host := rfl
@[simp] theorem State.emit_trace (s : State) (k : OutKind) (p : Nat) (d : List Nat) : (s.emit k p d).trace = s.trace := rfl
@[simp] theorem State.emit_lines (s : State) (k : OutKind) (p : Nat) (d : List Nat) : (s.emit k p d).lines = s.lines := rfl
@[simp] theorem State.emit_pacer (s : State) (k : OutKind) (p : Nat) (d : List Nat) : (s.emit k p d).pacer = s.pacer := rfl
@[simp] theorem State.emit_spare (s : State) (k : OutKind) (p : Nat) (d : List Nat) : (s.emit k p d).spare = s.spare := rfl
@[simp] theorem State.emit_memc (s : State) (k : OutKind) (p : Nat) (d : List Nat) : (s.emit k p d).memc = s.memc := rfl
@[simp] theorem State.emit_css (s : State) (k : OutKind) (p : Nat) (d : List Nat) : (s.emit k p d).css = s.css := rfl
@[simp] theorem State.emit_adpt (s : State) (k : OutKind) (p : Nat) (d : List Nat) : (s.emit k p d).adpt = s.adpt := rfl
@[simp] theorem State.emit_mash (s : State) (k : OutKind) (p : Nat) (d : List Nat) : (s.emit k p d).mash = s.mash := rfl
@[simp] theorem State.emit_kiln (s : State) (k : OutKind) (p : Nat) (d : List Nat) : (s.emit k p d).kiln = s.kiln := rfl
@[simp] theorem State.emit_vault (s : State) (k : OutKind) (p : Nat) (d : List Nat) : (s.emit k p d).vault = s.vault := rfl
@[simp] theorem State.emit_relay (s : State) (k : OutKind) (p : Nat) (d : List Nat) : (s.emit k p d).relay = s.relay := rfl
@[simp] theorem State.emit_boot (s : State) (k : OutKind) (p : Nat) (d : List Nat) : (s.emit k p d).boot = s.boot := rfl
@[simp] theorem State.emit_jtag (s : State) (k : OutKind) (p : Nat) (d : List Nat) : (s.emit k p d).jtag = s.jtag := rfl
@[simp] theorem State.emit_freeCtr (s : State) (k : OutKind) (p : Nat) (d : List Nat) : (s.emit k p d).freeCtr = s.freeCtr := rfl

/-! ## A system register -/

@[simp] theorem Core.swr_pc (k : Core) (n : Nat) (v : W64) : (k.swr n v).pc = k.pc := rfl
@[simp] theorem Core.swr_gs (k : Core) (n : Nat) (v : W64) : (k.swr n v).gs = k.gs := rfl
@[simp] theorem Core.swr_fs (k : Core) (n : Nat) (v : W64) : (k.swr n v).fs = k.fs := rfl
@[simp] theorem Core.swr_spU (k : Core) (n : Nat) (v : W64) : (k.swr n v).spU = k.spU := rfl
@[simp] theorem Core.swr_spK (k : Core) (n : Nat) (v : W64) : (k.swr n v).spK = k.spK := rfl
@[simp] theorem Core.swr_spH (k : Core) (n : Nat) (v : W64) : (k.swr n v).spH = k.spH := rfl
@[simp] theorem Core.swr_spM (k : Core) (n : Nat) (v : W64) : (k.swr n v).spM = k.spM := rfl
@[simp] theorem Core.swr_fcsr (k : Core) (n : Nat) (v : W64) : (k.swr n v).fcsr = k.fcsr := rfl
@[simp] theorem Core.swr_lbeg (k : Core) (n : Nat) (v : W64) : (k.swr n v).lbeg = k.lbeg := rfl
@[simp] theorem Core.swr_lend (k : Core) (n : Nat) (v : W64) : (k.swr n v).lend = k.lend := rfl
@[simp] theorem Core.swr_lcnt (k : Core) (n : Nat) (v : W64) : (k.swr n v).lcnt = k.lcnt := rfl
@[simp] theorem Core.swr_stat (k : Core) (n : Nat) (v : W64) : (k.swr n v).stat = k.stat := rfl
@[simp] theorem Core.swr_resv (k : Core) (n : Nat) (v : W64) : (k.swr n v).resv = k.resv := rfl
@[simp] theorem Core.swr_emgK (k : Core) (n : Nat) (v : W64) : (k.swr n v).emgK = k.emgK := rfl
@[simp] theorem Core.swr_emgH (k : Core) (n : Nat) (v : W64) : (k.swr n v).emgH = k.emgH := rfl
@[simp] theorem Core.swr_emgM (k : Core) (n : Nat) (v : W64) : (k.swr n v).emgM = k.emgM := rfl
@[simp] theorem Core.swr_report (k : Core) (n : Nat) (v : W64) : (k.swr n v).report = k.report := rfl
@[simp] theorem Core.swr_sbuf (k : Core) (n : Nat) (v : W64) : (k.swr n v).sbuf = k.sbuf := rfl
@[simp] theorem Core.swr_tlb (k : Core) (n : Nat) (v : W64) : (k.swr n v).tlb = k.tlb := rfl
@[simp] theorem Core.swr_late (k : Core) (n : Nat) (v : W64) : (k.swr n v).late = k.late := rfl
@[simp] theorem Core.swr_wait (k : Core) (n : Nat) (v : W64) : (k.swr n v).wait = k.wait := rfl
@[simp] theorem Core.swr_sleep (k : Core) (n : Nat) (v : W64) : (k.swr n v).sleep = k.sleep := rfl
@[simp] theorem Core.swr_released (k : Core) (n : Nat) (v : W64) : (k.swr n v).released = k.released := rfl
@[simp] theorem Core.swr_checkStopped (k : Core) (n : Nat) (v : W64) : (k.swr n v).checkStopped = k.checkStopped := rfl
@[simp] theorem Core.swr_halted (k : Core) (n : Nat) (v : W64) : (k.swr n v).halted = k.halted := rfl
@[simp] theorem Core.swr_stepping (k : Core) (n : Nat) (v : W64) : (k.swr n v).stepping = k.stepping := rfl
@[simp] theorem Core.swr_itr (k : Core) (n : Nat) (v : W64) : (k.swr n v).itr = k.itr := rfl
@[simp] theorem Core.swr_retries (k : Core) (n : Nat) (v : W64) : (k.swr n v).retries = k.retries := rfl
@[simp] theorem Core.swr_lastRetry (k : Core) (n : Nat) (v : W64) : (k.swr n v).lastRetry = k.lastRetry := rfl
@[simp] theorem Core.swr_cmrLvl (k : Core) (n : Nat) (v : W64) : (k.swr n v).cmrLvl = k.cmrLvl := rfl
@[simp] theorem Core.swr_missLine (k : Core) (n : Nat) (v : W64) : (k.swr n v).missLine = k.missLine := rfl
@[simp] theorem Core.swr_missStride (k : Core) (n : Nat) (v : W64) : (k.swr n v).missStride = k.missStride := rfl
@[simp] theorem Core.swr_pred (k : Core) (n : Nat) (v : W64) : (k.swr n v).pred = k.pred := rfl
@[simp] theorem Core.swr_mEpc (k : Core) (n : Nat) (v : W64) : (k.swr n v).mEpc = k.mEpc := rfl
@[simp] theorem Core.swr_mStat (k : Core) (n : Nat) (v : W64) : (k.swr n v).mStat = k.mStat := rfl
@[simp] theorem Core.swr_hold (k : Core) (n : Nat) (v : W64) : (k.swr n v).hold = k.hold := rfl
@[simp] theorem Core.swr_overlaid (k : Core) (n : Nat) (v : W64) : (k.swr n v).overlaid = k.overlaid := rfl
@[simp] theorem Core.swr_loadRep (k : Core) (n : Nat) (v : W64) : (k.swr n v).loadRep = k.loadRep := rfl
@[simp] theorem Core.swr_iTlb (k : Core) (n : Nat) (v : W64) : (k.swr n v).iTlb = k.iTlb := rfl
@[simp] theorem Core.swr_dTlb (k : Core) (n : Nat) (v : W64) : (k.swr n v).dTlb = k.dTlb := rfl
@[simp] theorem Core.swr_walks (k : Core) (n : Nat) (v : W64) : (k.swr n v).walks = k.walks := rfl
@[simp] theorem Core.swr_side (k : Core) (n : Nat) (v : W64) : (k.swr n v).side = k.side := rfl
@[simp] theorem Core.swr_retryEtc (k : Core) (n : Nat) (v : W64) : (k.swr n v).retryEtc = k.retryEtc := rfl
@[simp] theorem Core.swr_lastTag (k : Core) (n : Nat) (v : W64) : (k.swr n v).lastTag = k.lastTag := rfl
@[simp] theorem Core.swr_restart (k : Core) (n : Nat) (v : W64) : (k.swr n v).restart = k.restart := rfl

/-! ## Reads after writes -/

theorem State.reg_setReg (s : State) (a b : Nat) (v : W32) : (s.setReg a v).reg b = if b = a then v else s.reg b := by
  unfold State.reg State.setReg
  by_cases h : b = a
  · subst h; simp
  · rw [if_neg h]; unfold Sparse.set; split
    · exact Sparse.get_erase_ne _ _ h
    · exact Sparse.get_insert_ne _ _ _ h

@[simp] theorem State.reg_setReg_self (s : State) (a : Nat) (v : W32) : (s.setReg a v).reg a = v := by
  simp [State.reg_setReg]

theorem State.core_setCore (s : State) (c d : Nat) (k : Core) : (s.setCore c k).core d = if d = c then k else s.core d := by
  simp [State.core, State.setCore, Sparse.get_set]

@[simp] theorem State.core_setCore_self (s : State) (c : Nat) (k : Core) : (s.setCore c k).core c = k := by
  simp [State.core_setCore]

@[simp] theorem State.core_modCore_self (s : State) (c : Nat) (f : Core → Core) : (s.modCore c f).core c = f (s.core c) := by
  simp [State.modCore]

@[simp] theorem State.core_setReg (s : State) (a c : Nat) (v : W32) : (s.setReg a v).core c = s.core c := rfl
@[simp] theorem State.core_emit (s : State) (k : OutKind) (p c : Nat) (d : List Nat) : (s.emit k p d).core c = s.core c := rfl
@[simp] theorem State.core_took (s : State) (c : Nat) : s.took.core c = s.core c := rfl
@[simp] theorem State.reg_setCore (s : State) (a c : Nat) (k : Core) : (s.setCore c k).reg a = s.reg a := rfl
@[simp] theorem State.reg_modCore (s : State) (a c : Nat) (f : Core → Core) : (s.modCore c f).reg a = s.reg a := rfl
@[simp] theorem State.reg_emit (s : State) (k : OutKind) (p a : Nat) (d : List Nat) : (s.emit k p d).reg a = s.reg a := rfl
@[simp] theorem State.reg_took (s : State) (a : Nat) : s.took.reg a = s.reg a := rfl
@[simp] theorem State.rb_setCore (s : State) (a i c : Nat) (k : Core) : (s.setCore c k).rb a i = s.rb a i := rfl
@[simp] theorem State.rf_setCore (s : State) (a h l c : Nat) (k : Core) : (s.setCore c k).rf a h l = s.rf a h l := rfl
@[simp] theorem State.rb_modCore (s : State) (a i c : Nat) (f : Core → Core) : (s.modCore c f).rb a i = s.rb a i := rfl
@[simp] theorem State.rf_modCore (s : State) (a h l c : Nat) (f : Core → Core) : (s.modCore c f).rf a h l = s.rf a h l := rfl

/-- Of two writes of one core the second stays, for released cores. -/
theorem State.setCore_setCore (s : State) (c : Nat) (k j : Core) (hk : k.released = true) (hj : j.released = true) :
    (s.setCore c k).setCore c j = s.setCore c j := by
  have hr : Core.reset.released = false := rfl
  have hk' : k ≠ Core.reset := by intro h; rw [h, hr] at hk; cases hk
  have hj' : j ≠ Core.reset := by intro h; rw [h, hr] at hj; cases hj
  simp only [State.setCore, Sparse.set_set _ _ _ _ _ hk' hj']

/-! ## A core's own registers -/

@[simp] theorem Core.srd_swr_self (k : Core) (n : Nat) (v : W64) : (k.swr n v).srd n = v := by
  simp [Core.srd, Core.swr]

theorem Core.srd_swr_ne (k : Core) {n m : Nat} (v : W64) (h : m ≠ n) : (k.swr n v).srd m = k.srd m := by
  unfold Core.srd Core.swr Sparse.set; dsimp only; split
  · exact Sparse.get_erase_ne _ _ h
  · exact Sparse.get_insert_ne _ _ _ h

/-- g0 reads zero (R66). -/
@[simp] theorem Core.g_zero (k : Core) : k.g 0 = 0 := rfl
/-- A write of g0 is discarded (R66). -/
@[simp] theorem Core.setG_zero (k : Core) (v : W64) : k.setG 0 v = k := rfl

/-- What writing an owed result leaves alone: everything but its register, FCSR's flags and the list (R119). -/
theorem Core.writeLate_keeps (k : Core) (x : LateWb) :
    ∃ gs fs fcsr, k.writeLate x = { k with gs := gs, fs := fs, fcsr := fcsr, late := k.late.filter (fun y => decide (y ≠ x)) } := by
  unfold Core.writeLate
  dsimp only
  split
  · exact ⟨_, _, _, rfl⟩
  · split <;> exact ⟨_, _, _, rfl⟩

/-- Writing owed results leaves everything but the registers, FCSR's flags and the list (R119). -/
theorem Core.writeLates_keeps (l : List LateWb) (k : Core) :
    ∃ gs fs fcsr, l.foldl Core.writeLate k =
      { k with gs := gs, fs := fs, fcsr := fcsr, late := k.late.filter (fun y => decide (y ∉ l)) } := by
  induction l generalizing k with
  | nil =>
    refine ⟨k.gs, k.fs, k.fcsr, ?_⟩
    rw [List.filter_eq_self.mpr (by simp)]
    rfl
  | cons x t ih =>
    obtain ⟨gs, fs, fcsr, h⟩ := Core.writeLate_keeps k x
    obtain ⟨gs', fs', fcsr', h'⟩ := ih (k.writeLate x)
    refine ⟨gs', fs', fcsr', ?_⟩
    rw [List.foldl_cons, h', h]
    simp only [List.filter_filter, List.mem_cons, not_or]
    congr 2
    funext y
    simp [Bool.and_comm]

/-- Settling a register's owed results leaves everything but the registers, FCSR's flags and the list. -/
theorem Core.settleReg_keeps (k : Core) (fp : Bool) (r : Nat) :
    ∃ gs fs fcsr, k.settleReg fp r =
      { k with gs := gs, fs := fs, fcsr := fcsr,
               late := k.late.filter (fun y => decide (y ∉ k.late.filter (fun x => x.fp == fp && x.rd == r))) } :=
  Core.writeLates_keeps _ k

@[simp] theorem Core.settleReg_stat (k : Core) (fp : Bool) (r : Nat) : (k.settleReg fp r).stat = k.stat := by
  obtain ⟨gs, fs, fcsr, h⟩ := k.settleReg_keeps fp r
  rw [h]

/-- After settling a register nothing is owed to it. -/
theorem Core.lateValue_settleReg_self (k : Core) (fp : Bool) (r : Nat) : lateValue fp r (k.settleReg fp r).late = none := by
  obtain ⟨gs, fs, fcsr, h⟩ := k.settleReg_keeps fp r
  rw [h]
  dsimp only
  generalize hq : (fun y => decide (y ∉ k.late.filter (fun x => x.fp == fp && x.rd == r))) = q
  have : ∀ l : List LateWb, (∀ y ∈ l, y ∈ k.late) → lateValue fp r (l.filter q) = none := by
    intro l hl
    induction l with
    | nil => rfl
    | cons x t ih =>
      rw [List.filter_cons]
      split
      · rename_i hx
        rw [lateValue, ih (fun y hy => hl y (List.mem_cons_of_mem _ hy)), if_neg]
        rintro ⟨h1, h2⟩
        subst hq
        simp [h1, h2, hl x (List.mem_cons_self)] at hx
      · exact ih (fun y hy => hl y (List.mem_cons_of_mem _ hy))
  exact this _ (fun _ h => h)

theorem Core.writeLate_gs_ne (k : Core) (x : LateWb) (q : Nat) (h : ¬ (x.fp = false ∧ x.rd = q)) :
    Sparse.get 0 (k.writeLate x).gs q = Sparse.get 0 k.gs q := by
  unfold Core.writeLate
  dsimp only
  split
  · rfl
  · rename_i hf
    split
    · rfl
    · exact Sparse.get_set_ne _ _ _ (fun e => h ⟨by simpa using hf, e.symm⟩)

/-- Settling one register leaves what another general register reads as (R119). -/
theorem Core.settleReg_other (k : Core) {r q : Nat} (h : q ≠ r) :
    lateValue false q (k.settleReg false r).late = lateValue false q k.late ∧
    Sparse.get 0 (k.settleReg false r).gs q = Sparse.get 0 k.gs q := by
  constructor
  · obtain ⟨gs, fs, fcsr, e⟩ := k.settleReg_keeps false r
    rw [e]
    dsimp only
    generalize hp : (fun y => decide (y ∉ k.late.filter (fun x => x.fp == false && x.rd == r))) = p
    have hx : ∀ x : LateWb, x.fp = false → x.rd = q → p x = true := by
      intro x h1 h2
      subst hp
      simp [h1, h2, h]
    generalize k.late = l
    induction l with
    | nil => rfl
    | cons x t ih =>
      rw [List.filter_cons]
      by_cases hc : x.fp = false ∧ x.rd = q
      · rw [if_pos (hx x hc.1 hc.2), lateValue, lateValue, if_pos hc, if_pos hc]
      · split
        · rw [lateValue, lateValue, if_neg hc, if_neg hc, ih]
        · rw [lateValue, if_neg hc, ih]
  · unfold Core.settleReg
    have : ∀ (l : List LateWb) (j : Core), (∀ x ∈ l, x.rd = r) → Sparse.get 0 (l.foldl Core.writeLate j).gs q = Sparse.get 0 j.gs q := by
      intro l
      induction l with
      | nil => intros; rfl
      | cons x t ih =>
        intro j hl
        rw [List.foldl_cons, ih _ (fun y hy => hl y (List.mem_cons_of_mem _ hy))]
        exact Core.writeLate_gs_ne j x q (fun hc => h (hc.2.symm.trans (hl x List.mem_cons_self)))
    exact this _ k (fun x hx => by simp at hx; exact hx.2.2)

/-- A written register reads as written, at the level of the write (R66, R68). -/
theorem Core.g_setG_self (k : Core) (r : Nat) (v : W64) (h : r ≠ 0) : (k.setG r v).g r = v := by
  unfold Core.setG Core.g
  by_cases h31 : r = 31
  · subst h31
    simp only [h, if_false, if_true]
    unfold Core.setSpOf Core.spOf Core.lvl
    split <;> (try split) <;> (try split) <;> simp_all
  · simp [h, h31, Core.lateValue_settleReg_self]

@[simp] theorem Core.setSpOf_stat (k : Core) (l : Nat) (v : W64) : (k.setSpOf l v).stat = k.stat := by
  unfold Core.setSpOf; split <;> (try split) <;> (try split) <;> rfl

@[simp] theorem Core.setG_stat (k : Core) (r : Nat) (v : W64) : (k.setG r v).stat = k.stat := by
  unfold Core.setG; split
  · rfl
  · split
    · simp
    · exact k.settleReg_stat false r

@[simp] theorem Core.setSpOf_late (k : Core) (l : Nat) (v : W64) : (k.setSpOf l v).late = k.late := by
  unfold Core.setSpOf; split <;> (try split) <;> (try split) <;> rfl

@[simp] theorem Core.setSpOf_gs (k : Core) (l : Nat) (v : W64) : (k.setSpOf l v).gs = k.gs := by
  unfold Core.setSpOf; split <;> (try split) <;> (try split) <;> rfl

theorem Core.spOf_setSpOf (k : Core) (l m : Nat) (v : W64) (hl : l < 4) (hm : m < 4) :
    (k.setSpOf l v).spOf m = if m = l then v else k.spOf m := by
  unfold Core.setSpOf Core.spOf
  have : l = 0 ∨ l = 1 ∨ l = 2 ∨ l = 3 := by omega
  have : m = 0 ∨ m = 1 ∨ m = 2 ∨ m = 3 := by omega
  rcases ‹l = 0 ∨ _› with rfl | rfl | rfl | rfl <;> rcases ‹m = 0 ∨ _› with rfl | rfl | rfl | rfl <;> rfl

/-- A write of one register leaves every other alone (R66, R68). -/
theorem Core.g_setG_ne (k : Core) {r q : Nat} (v : W64) (h : q ≠ r) : (k.setG r v).g q = k.g q := by
  unfold Core.setG
  by_cases h0 : r = 0
  · simp [h0]
  · by_cases h31 : r = 31
    · subst h31
      simp only [h0, if_false, if_true]
      unfold Core.g
      simp [h]
    · simp only [h0, h31, if_false]
      obtain ⟨h1, h2⟩ := k.settleReg_other h
      obtain ⟨gs, fs, fcsr, e⟩ := k.settleReg_keeps false r
      rw [e] at h1 h2 ⊢
      unfold Core.g Core.spOf Core.lvl
      dsimp only at h1 h2 ⊢
      rw [h1, Sparse.get_set_ne _ _ _ h, h2]

end Sys2Proof.Machine
end

