-- ==== Sys2Proof/Laws/Execute.lean ====
section
/-! SUPPORT. What executing an instruction does on a ready core, and on a calm one, where nothing but its own effect happens. -/
namespace Sys2Proof.Machine

/-! ## Calm cores -/

/-- What an instruction's own effect leaves of a core for the completion to read (R73, R447, R448). -/
structure Core.Continues (k k' : Core) : Prop where
  pc : k'.pc = k.pc
  released : k'.released = k.released
  itr : k'.itr = k.itr
  halted : k'.halted = k.halted
  stepping : k'.stepping = k.stepping
  dbg : k'.srd 0xA40 = k.srd 0xA40

theorem Core.Continues.refl (k : Core) : k.Continues k := ⟨rfl, rfl, rfl, rfl, rfl, rfl⟩

theorem Core.Continues.trans {k j i : Core} (h : k.Continues j) (h' : j.Continues i) : k.Continues i :=
  ⟨h'.pc.trans h.pc, h'.released.trans h.released, h'.itr.trans h.itr, h'.halted.trans h.halted,
   h'.stepping.trans h.stepping, h'.dbg.trans h.dbg⟩

theorem Core.continues_setSpOf (k : Core) (l : Nat) (v : W64) : k.Continues (k.setSpOf l v) := by
  unfold Core.setSpOf
  split <;> (try split) <;> (try split) <;> exact ⟨rfl, rfl, rfl, rfl, rfl, rfl⟩

theorem Core.continues_setG (k : Core) (r : Nat) (v : W64) : k.Continues (k.setG r v) := by
  unfold Core.setG
  split
  · exact .refl k
  · split
    · exact k.continues_setSpOf _ v
    · obtain ⟨gs, fs, fcsr, h⟩ := k.settleReg_keeps false r
      rw [h]
      exact ⟨rfl, rfl, rfl, rfl, rfl, rfl⟩

theorem Core.continues_settleReg (k : Core) (fp : Bool) (r : Nat) : k.Continues (k.settleReg fp r) := by
  obtain ⟨gs, fs, fcsr, h⟩ := k.settleReg_keeps fp r
  rw [h]
  exact ⟨rfl, rfl, rfl, rfl, rfl, rfl⟩

theorem Core.continues_oweG (k : Core) (u r : Nat) (v : W64) : k.Continues (k.oweG u r v) := by
  unfold Core.oweG
  refine (k.continues_settleReg false r).trans ?_
  dsimp only
  split
  · exact ((k.settleReg false r).continues_setSpOf _ v).trans ⟨rfl, rfl, rfl, rfl, rfl, rfl⟩
  · exact ⟨rfl, rfl, rfl, rfl, rfl, rfl⟩

theorem Core.continues_oweF (k : Core) (u r : Nat) (v f : W64) : k.Continues (k.oweF u r v f) :=
  (k.continues_settleReg true r).trans ⟨rfl, rfl, rfl, rfl, rfl, rfl⟩
theorem Core.continues_setF (k : Core) (r : Nat) (v : W64) : k.Continues (k.setF r v) :=
  (k.continues_settleReg true r).trans ⟨rfl, rfl, rfl, rfl, rfl, rfl⟩

/-- The hold of a reserved line, counted on or ended, leaves the rest of the core (R105). -/
theorem Core.continues_holdAfter (k : Core) (d : Done) : k.Continues (k.holdAfter d) := by
  unfold Core.holdAfter Core.endHold
  split
  · exact .refl k
  · split
    · exact ⟨rfl, rfl, rfl, rfl, rfl, rfl⟩
    · split
      · exact ⟨rfl, rfl, rfl, rfl, rfl, rfl⟩
      · exact ⟨rfl, rfl, rfl, rfl, rfl, Core.srd_swr_ne _ _ (by decide)⟩

/-- The parts of calm. -/
theorem State.calm_iff (s : State) (c : Nat) : s.calm c = true ↔
    s.runs c = true ∧ s.due c = none ∧ (s.core c).itr = false ∧ (s.core c).srd 0xA40 = 0 ∧
    (s.core c).stepping = false ∧ s.rb (Reg.DEBUG_CORECTL.at c) 30 = false ∧
    (∀ i, i < 4 → s.rb (Reg.DEBUG_BINJ_CTL.at i) 31 = false) ∧ s.memc.marks = [] ∧ s.tstate c = 0 ∧ s.tstate (48 + c) = 0 := by
  simp only [State.calm, State.ready, State.still, Bool.and_eq_true, decide_eq_true_eq, Bool.not_eq_true', List.all_eq_true,
    List.mem_range, beq_iff_eq, Option.isNone_iff_eq_none, List.isEmpty_iff]
  constructor
  · rintro ⟨⟨⟨⟨h1, h2⟩, h3⟩, h4⟩, ⟨⟨⟨⟨⟨⟨h5, h6⟩, h7⟩, h8⟩, h9⟩, h10⟩, h11⟩⟩
    exact ⟨h1, h2, h4, h5, h6, h7, h8, h9, h10, h11⟩
  · rintro ⟨h1, h2, h4, h5, h6, h7, h8, h9, h10, h11⟩
    refine ⟨⟨⟨⟨h1, h2⟩, ?_⟩, h4⟩, ⟨⟨⟨⟨⟨⟨h5, h6⟩, h7⟩, h8⟩, h9⟩, h10⟩, h11⟩⟩
    simp [Core.breakHit, h5, bit]

theorem State.released_of_runs {s : State} {c : Nat} (h : s.runs c = true) : (s.core c).released = true ∧ (s.core c).halted = false := by
  simp only [State.runs, Bool.and_eq_true, Bool.not_eq_true'] at h
  simp [h]

theorem State.traceCore_idle (s : State) (c : Nat) (b : Bool) (pc : W64) (x : Nat) (evs : List TEvent)
    (h : s.tstate c = 0) (h' : s.tstate (48 + c) = 0) : s.traceCore c b pc x evs = s := by
  simp [State.traceCore, State.traceStep, h, h']

theorem MemcUnit.unmarked (m : MemcUnit) (p : InjMark → Bool) (h : m.marks = []) : { m with marks := m.marks.filter p } = m := by
  cases m
  simp_all

theorem State.injectWrite_disarmed (s : State) (b u : Nat) (c l : Option Nat) (q : Nat) (w : Option Nat)
    (h : ∀ i, i < 4 → s.rb (Reg.DEBUG_BINJ_CTL.at i) 31 = false) (hm : s.memc.marks = []) : s.injectWrite b u c l q w = s := by
  have hu : ∀ b u c q w, s.unmark b u c q w = s := by
    intro b u c q w
    unfold State.unmark
    rw [MemcUnit.unmarked s.memc _ hm]
  unfold State.injectWrite
  dsimp only
  rw [hu]
  have : (List.range 4).find? (fun i => s.injActs i b u c l) = none := by
    rw [List.find?_eq_none]
    intro i hi
    have := h i (by simpa using hi)
    unfold State.rb at this
    simp [State.injActs, this]
  rw [this]

theorem Core.learn_keeps (k k0 : Core) (d : Done) : ∃ p, k.learn k0 d = { k with pred := p } := by
  unfold Core.learn
  cases h : k.pred.last with
  | none => exact ⟨k.pred, rfl⟩
  | some r =>
    dsimp only
    by_cases hp : k0.staticPred = true ∨ r.pc ≠ k0.pc
    · rw [if_pos hp]; exact ⟨k.pred, rfl⟩
    · rw [if_neg hp]; cases d <;> first | exact ⟨k.pred, rfl⟩ | exact ⟨_, rfl⟩

theorem Core.advance_keeps (k : Core) (pc : W64) (d : Done) : (k.advance pc d).1.srd 0xA40 = k.srd 0xA40 ∧
    (k.advance pc d).1.itr = k.itr ∧ (k.advance pc d).1.halted = k.halted ∧ (k.advance pc d).1.stepping = k.stepping := by
  unfold Core.advance
  split
  · exact ⟨rfl, rfl, rfl, rfl⟩
  · split
    · exact ⟨rfl, rfl, rfl, rfl⟩
    · split <;> exact ⟨rfl, rfl, rfl, rfl⟩

/-- The completion of an instruction on a calm core: the hold of a reserved line counts, the predictor learns, the next PC is taken (R73), and
nothing else happens. s is the state after the instruction's own effect. -/
theorem State.finish_calm {s : State} {c : Nat} (k : Core) {d : Done} (hd : d ≠ .hold)
    (hi : (s.core c).itr = false) (hh : (s.core c).halted = false) (hs : (s.core c).stepping = false)
    (hdbg : (s.core c).srd 0xA40 = 0) (hreq : s.rb (Reg.DEBUG_CORECTL.at c) 30 = false)
    (hinj : ∀ i, i < 4 → s.rb (Reg.DEBUG_BINJ_CTL.at i) 31 = false) (hm : s.memc.marks = []) (ht : s.tstate c = 0)
    (ht' : s.tstate (48 + c) = 0) :
    s.finish c k d = s.setCore c { ((((s.core c).holdAfter d).learn k d).advance k.pc d).1 with retries := 0 } := by
  have hc := (s.core c).continues_holdAfter d
  generalize hk : (s.core c).holdAfter d = j at hc ⊢
  have ha := Core.advance_keeps (j.learn k d) k.pc d
  obtain ⟨p, hl⟩ := j.learn_keeps k d
  have hb : ∀ (t : State) (k' : Core), (∀ a i, t.rb a i = s.rb a i) → t.core c = k' → k'.itr = false → k'.halted = false →
      k'.stepping = false → t.haltBoundary c = t := by
    intro t k' hrb hk h1 h2 h3
    unfold State.haltBoundary
    simp [hk, h1, h2, h3, hrb, hreq]
  have hn : ∀ (t : State) (k' : Core), (∀ a i, t.rb a i = s.rb a i) → t.memc.marks = [] → t.injectCommit c k k' = t := by
    intro t k' hrb hm
    have hd : ∀ i, i < 4 → t.rb (Reg.DEBUG_BINJ_CTL.at i) 31 = false := fun i hi => (hrb _ _).trans (hinj i hi)
    simp [State.injectCommit, State.injectWrite_disarmed _ _ _ _ _ _ _ hd hm]
  have hd0 : bit (0 : W64) 0 = false := by decide
  have hbody : s.finish c k d =
      (let (k1, evs) := (j.learn k d).advance k.pc d
       let t := s.setCore c { k1 with retries := 0 }
       let t := t.injectCommit c k k1
       let t := t.traceCore c true k.pc (ctxOf c k) (d.events ++ evs)
       let t := if bit (k1.srd 0xA40) 0 ∧ k.lvl ≤ 1 ∧ k1.lvl ≠ 3 ∧ k1.loadRep = none then t.raise c { vec := 0x13, info := 1 } else t
       t.haltBoundary c) := by
    have hji : j.itr = false := hc.itr.trans hi
    cases d with
    | hold => exact absurd rfl hd
    | _ => unfold State.finish; simp only [hk, hji]; rfl
  rw [hbody]
  rcases hp : (j.learn k d).advance k.pc d with ⟨k1, evs⟩
  rw [hp, hl] at ha
  dsimp only at ha ⊢
  have hz : k1.srd 0xA40 = 0 := ha.1.trans (hc.dbg.trans hdbg)
  rw [hn (s.setCore c _) k1 (fun _ _ => rfl) hm, State.traceCore_idle (s.setCore c _) _ _ _ _ _ ht ht', hz, hd0, if_neg (by simp)]
  exact hb _ _ (fun _ _ => rfl) (State.core_setCore_self _ _ _) (ha.2.1.trans (hc.itr.trans hi))
    (ha.2.2.1.trans (hc.halted.trans hh)) (ha.2.2.2.trans (hc.stepping.trans hs))

/-- Falling through after an effect that left PC: the next PC of R73. -/
theorem Core.advance_next (k k' : Core) (d : Done) (hd : d = .next ∨ d = .i0) (h : k'.pc = k.pc) :
    ({ ((k'.learn k d).advance k.pc d).1 with retries := 0 } : Core) = k'.nextPc := by
  have : k'.learn k d = k' := by
    unfold Core.learn
    rcases hd with rfl | rfl <;>
    · split
      · rfl
      · split <;> rfl
  rw [this, ← h]
  unfold Core.advance Core.nextPc
  rcases hd with rfl | rfl <;>
  · simp only [Done.target]
    split
    · rfl
    · split <;> rfl

/-- An instruction of a calm core runs its own effect and completes. -/
theorem State.execute_calm {s : State} {c : Nat} (h : s.calm c = true) (body : State → State × Except Exc Done) :
    s.execute c body = match body s with
      | (s', .error e) => (s'.raise c e).haltBoundary c
      | (s', .ok d) => s'.finish c (s.core c) d := by
  have h' := (State.calm_iff s c).mp h
  have hb : (s.core c).breakHit = none := by
    simp [Core.breakHit, h'.2.2.2.1, bit]
  unfold State.execute
  simp only [h'.1, h'.2.1, hb]
  rfl

/-- An effect on the core alone that falls through, on a calm core: the changed core at the next PC, and nothing else. -/
theorem State.core_calm {s : State} {c : Nat} (h : s.calm c = true) (f : Core → Core) (hf : (s.core c).Continues (f (s.core c)))
    (d : Done) (hd : d = .next ∨ d = .i0) :
    s.execute c (fun s => (s.modCore c f, .ok d)) = s.setCore c ((f (s.core c)).holdAfter d).nextPc := by
  obtain ⟨h1, h2, h3, h4, h5, h6, h7, h8, h9, h10⟩ := (State.calm_iff s c).mp h
  have hr := State.released_of_runs h1
  have hk := hf.trans ((f (s.core c)).continues_holdAfter d)
  rw [State.execute_calm h]
  dsimp only
  rw [State.finish_calm (s.core c) (by rcases hd with rfl | rfl <;> simp)]
  · rw [State.core_modCore_self, Core.advance_next _ _ d hd hk.pc]
    unfold State.modCore
    rw [State.setCore_setCore]
    · rw [hf.released]; exact hr.1
    · unfold Core.nextPc
      split
      · exact hk.released.trans hr.1
      · split <;> exact hk.released.trans hr.1
  · rw [State.core_modCore_self, hf.itr, h3]
  · rw [State.core_modCore_self, hf.halted, hr.2]
  · rw [State.core_modCore_self, hf.stepping, h5]
  · rw [State.core_modCore_self, hf.dbg, h4]
  · exact h6
  · exact h7
  · exact h8
  · exact h9
  · exact h10

/-- An instruction that only changes its core and falls through, on a calm core. -/
theorem State.alu_calm {s : State} {c : Nat} (h : s.calm c = true) (f : Core → Core) (hf : (s.core c).Continues (f (s.core c))) :
    s.alu c f = s.setCore c (f (s.core c)).fallThrough := State.core_calm h f hf .next (.inl rfl)

/-- The same of an instruction of class I0. -/
theorem State.alu0_calm {s : State} {c : Nat} (h : s.calm c = true) (f : Core → Core) (hf : (s.core c).Continues (f (s.core c))) :
    s.alu0 c f = s.setCore c (f (s.core c)).fallThrough0 := State.core_calm h f hf .i0 (.inr rfl)

end Sys2Proof.Machine
end

