-- ==== Sys2Proof/Laws/Memory.lean ====
section
/-! SUPPORT. The laws of memory: what a byte reads as after a write, and the canonical form that every operation keeps. -/
namespace Sys2Proof.Machine

theorem Mem.cell_setCell (m : Mem) (a b : Nat) (v : Byte) : (m.setCell a v).cell b = if b = a then v else m.cell b := by
  simp [Mem.cell, Mem.setCell, Sparse.get_set]

@[simp] theorem Mem.setCell_lines (m : Mem) (a : Nat) (v : Byte) : (m.setCell a v).lines = m.lines := rfl
@[simp] theorem Mem.setCell_poisoned (m : Mem) (a : Nat) (v : Byte) : (m.setCell a v).poisoned = m.poisoned := rfl

@[simp] theorem Mem.setCells_lines (m : Mem) (a : Nat) (bs : List Byte) : (m.setCells a bs).lines = m.lines := by
  induction bs generalizing m a with
  | nil => rfl
  | cons b t ih => simp [Mem.setCells, ih]

/-- Bytes outside the written range stay. -/
theorem Mem.cell_setCells_outside (m : Mem) (a b : Nat) (bs : List Byte) (h : b < a ∨ a + bs.length ≤ b) :
    (m.setCells a bs).cell b = m.cell b := by
  induction bs generalizing m a with
  | nil => rfl
  | cons x t ih =>
    simp only [List.length_cons] at h
    rw [Mem.setCells, ih _ _ (by omega), Mem.cell_setCell, if_neg (by omega)]

/-- Each byte of the written range reads as written. -/
theorem Mem.cell_setCells_inside (m : Mem) (a i : Nat) (bs : List Byte) (h : i < bs.length) :
    (m.setCells a bs).cell (a + i) = bs[i] := by
  induction bs generalizing m a i with
  | nil => simp at h
  | cons x t ih =>
    cases i with
    | zero => rw [Mem.setCells, Nat.add_zero, Mem.cell_setCells_outside _ _ _ _ (by omega), Mem.cell_setCell]; simp
    | succ j =>
      have : a + (j + 1) = a + 1 + j := by omega
      rw [Mem.setCells, this, ih _ _ _ (by simpa using h)]
      rfl

/-! ## Canonical form -/

theorem Mem.wf_iff (m : Mem) : m.wf = true ↔ Sparse.wf (fun _ => memDefault) m.cells = true ∧
    Sparse.wf (fun _ => memDefault) m.away = true ∧ Sparse.wf (fun _ => false) m.poisoned = true ∧
    Sparse.wf (fun _ => false) m.awayPoison = true ∧ Sparse.wf (fun _ => CLine.empty) m.lines = true := by
  simp [Mem.wf, and_assoc]

theorem Mem.wf_setCell {m : Mem} (h : m.wf = true) (a : Nat) (v : Byte) : (m.setCell a v).wf = true := by
  rw [Mem.wf_iff] at h ⊢
  exact ⟨Sparse.wf_set (d := fun _ => memDefault) a v h.1, h.2⟩

theorem Mem.wf_setCells {m : Mem} (h : m.wf = true) (a : Nat) (bs : List Byte) : (m.setCells a bs).wf = true := by
  induction bs generalizing m a with
  | nil => exact h
  | cons b t ih => exact ih (Mem.wf_setCell h a b) (a + 1)

theorem Mem.wf_setLine {m : Mem} (h : m.wf = true) (n : Nat) (l : CLine) : (m.setLine n l).wf = true := by
  rw [Mem.wf_iff] at h ⊢
  exact ⟨h.1, h.2.1, h.2.2.1, h.2.2.2.1, Sparse.wf_set (d := fun _ => CLine.empty) n _ h.2.2.2.2⟩

theorem Mem.wf_setPoison {m : Mem} (h : m.wf = true) (n : Nat) (v : Bool) : (m.setPoison n v).wf = true := by
  rw [Mem.wf_iff] at h ⊢
  exact ⟨h.1, h.2.1, Sparse.wf_set (d := fun _ => false) n v h.2.2.1, h.2.2.2⟩

theorem Mem.wf_clean {m : Mem} (h : m.wf = true) (n : Nat) : (m.clean n).wf = true := by
  unfold Mem.clean; dsimp only
  split
  · exact h
  · exact Mem.wf_setLine (Mem.wf_setPoison (Mem.wf_setCells h _ _) _ _) _ _

theorem Mem.wf_noLines {m : Mem} (h : m.wf = true) : ({ m with lines := [] } : Mem).wf = true := by
  rw [Mem.wf_iff] at h ⊢
  exact ⟨h.1, h.2.1, h.2.2.1, h.2.2.2.1, Sparse.wf_nil _⟩

theorem Mem.wf_clearRange {m : Mem} (h : m.wf = true) (lo hi : Nat) : (m.clearRange lo hi).wf = true := by
  rw [Mem.wf_iff] at h ⊢
  exact ⟨Sparse.wf_filter _ h.1, h.2.1, Sparse.wf_filter _ h.2.2.1, h.2.2.2⟩

theorem Mem.wf_markPoison {m : Mem} (h : m.wf = true) (n : Nat) : (m.markPoison n).wf = true := by
  unfold Mem.markPoison; dsimp only
  split
  · exact Mem.wf_setLine h n _
  · split
    · exact Mem.wf_setLine h n _
    · exact Mem.wf_setPoison h n true

theorem Mem.wf_setAway {m : Mem} (h : m.wf = true) (k : Nat) (v : Byte) :
    ({ m with away := Sparse.set memDefault m.away k v } : Mem).wf = true := by
  rw [Mem.wf_iff] at h ⊢
  exact ⟨h.1, Sparse.wf_set (d := fun _ => memDefault) k v h.2.1, h.2.2⟩

theorem Mem.wf_setAwayPoison {m : Mem} (h : m.wf = true) (k : Nat) (v : Bool) :
    ({ m with awayPoison := Sparse.set false m.awayPoison k v } : Mem).wf = true := by
  rw [Mem.wf_iff] at h ⊢
  exact ⟨h.1, h.2.1, h.2.2.1, Sparse.wf_set (d := fun _ => false) k v h.2.2.2.1, h.2.2.2.2⟩

/-- A form kept by each element of a list is kept by the whole list. -/
theorem Mem.wf_foldl {β : Type} (f : Mem → β → Mem) (hf : ∀ m b, m.wf = true → (f m b).wf = true) (l : List β) {m : Mem}
    (h : m.wf = true) : (l.foldl f m).wf = true := by
  induction l generalizing m with
  | nil => exact h
  | cons b t ih => exact ih (hf m b h)

theorem Mem.wf_remap {m : Mem} (h : m.wf = true) (lo hi : Nat) (mine : Nat → Bool) (from_ to_ : Nat → Option Nat) :
    (m.remap lo hi mine from_ to_).wf = true := by
  unfold Mem.remap
  refine Mem.wf_foldl _ (fun m e hm => ?_) _ (Mem.wf_foldl _ (fun m e hm => ?_) _ ?_)
  · split
    · exact Mem.wf_setPoison hm _ _
    · exact Mem.wf_setAwayPoison hm _ _
  · split
    · exact Mem.wf_setCell hm _ _
    · exact Mem.wf_setAway hm _ _
  · rw [Mem.wf_iff] at h ⊢
    exact ⟨Sparse.wf_filter _ h.1, Sparse.wf_filter _ h.2.1, Sparse.wf_filter _ h.2.2.1, Sparse.wf_filter _ h.2.2.2.1, h.2.2.2.2⟩

theorem Mem.wf_loseQdr {m : Mem} (h : m.wf = true) : m.loseQdr.wf = true := by
  rw [Mem.wf_iff] at h ⊢
  exact ⟨Sparse.wf_filter _ h.1, Sparse.wf_filter _ h.2.1, Sparse.wf_filter _ h.2.2.1, Sparse.wf_filter _ h.2.2.2.1, h.2.2.2.2⟩

theorem Mem.wf_afterPin {m : Mem} (h : m.wf = true) (kept : Bool) : (m.afterPin kept).wf = true := by
  rw [Mem.wf_iff] at h ⊢
  exact ⟨Sparse.wf_filter _ h.1, Sparse.wf_filter _ h.2.1, Sparse.wf_filter _ h.2.2.1, Sparse.wf_filter _ h.2.2.2.1, Sparse.wf_nil _⟩

end Sys2Proof.Machine
end

