-- ==== Sys2Proof/WellFormed.lean ====
section
/-! DEFINITION. Which commands are well formed: every operand names something that the spec gives the machine (a core, a path, a port, a
subchannel, a register address ...). A command that is not well formed has no sender; Dispatch.lean gives it a meaning all the same. -/
namespace Sys2Proof

/-- A number below a bound. -/
def below (n x : Nat) : Bool := decide (x < n)

/-- A requester of registers (R19): a logical core, the debug port, PF0 or the boot ROM sequencer. -/
def requesterOk : Requester → Bool
  | .core n => below 48 n
  | .dap | .pf0 | .bootRom => true

/-- An access tag (R37, R38). -/
def tagOk (t : AccessTag) : Bool := below 64 t.pid && below 8 t.cls && below 256 t.src

/-- A physical address (R27): 44 bits. -/
def addrOk (a : Nat) : Bool := below (2 ^ 44) a

/-- A flit's header fields fit (R365, R366). -/
def flitOk (f : Flit) : Bool :=
  below 4 f.vl && below 8 f.ty && below 32 f.dst && below 32 f.src && below 256 f.tag && decide (f.payload.length ≤ 64)

/-- A PARAM message's fields fit (R363). -/
def paramOk (m : ParamMsg) : Bool := below 32 m.index && below 8 m.port && below (2 ^ 16) m.incarn && below 512 m.expect

/-- A subchannel or a job channel (R338, R356). -/
def stepOk : StepOf → Bool
  | .sub sc => below 4096 sc
  | .job ch => below 8 ch

/-- An L2 or a Cellar slice. -/
def arrayAtOk : ArrayAt → Bool
  | .l2 n => below 8 n
  | .cellar n => below 16 n

/-- A shared source or a GPIO pad. -/
def lineOk : LineIn → Bool
  | .shared n => below 1024 n
  | .gpio i => below 512 i

/-- A bank of Cask or Tun (R249, R251). -/
def sramOk (cask : Bool) (bank : Nat) : Bool := if cask then below 4 bank else below 32 bank

/-- A well-formed command. -/
def Instr.wf (i : Instr) : Bool :=
  match i with
  | .registerWrite r addr _ _ => requesterOk r && addrOk addr
  | .registerSizeError r addr _ _ => requesterOk r && addrOk addr
  | .unmappedAccess t addr _ => tagOk t && addrOk addr
  | .nameLoRead r addr => requesterOk r && addrOk addr
  | .nameHiRead r addr => requesterOk r && addrOk addr
  | .nameLoWrite r addr _ => requesterOk r && addrOk addr
  | .nameHiWrite r addr _ => requesterOk r && addrOk addr
  | .recordSlotFree r bank slot => requesterOk r && below 48 bank && below 16 slot
  | .bankCtlWrite r bank _ => requesterOk r && below 48 bank
  | .partitionFence r pid => requesterOk r && below 64 pid
  | .partitionFenceRelease r pid => requesterOk r && below 64 pid
  | .fatalSequence _ => true
  | .fatalHoldExpiry => true
  | .add c _ _ _ => below 48 c
  | .sub c _ _ _ => below 48 c
  | .and c _ _ _ => below 48 c
  | .or c _ _ _ => below 48 c
  | .xor c _ _ _ => below 48 c
  | .andn c _ _ _ => below 48 c
  | .orn c _ _ _ => below 48 c
  | .xnor c _ _ _ => below 48 c
  | .slt c _ _ _ => below 48 c
  | .sltu c _ _ _ => below 48 c
  | .min c _ _ _ => below 48 c
  | .max c _ _ _ => below 48 c
  | .minu c _ _ _ => below 48 c
  | .maxu c _ _ _ => below 48 c
  | .addw c _ _ _ => below 48 c
  | .subw c _ _ _ => below 48 c
  | .sll c _ _ _ => below 48 c
  | .srl c _ _ _ => below 48 c
  | .sra c _ _ _ => below 48 c
  | .ror c _ _ _ => below 48 c
  | .sllw c _ _ _ => below 48 c
  | .srlw c _ _ _ => below 48 c
  | .sraw c _ _ _ => below 48 c
  | .mul c _ _ _ => below 48 c
  | .mulh c _ _ _ => below 48 c
  | .mulhu c _ _ _ => below 48 c
  | .mulhsu c _ _ _ => below 48 c
  | .mulw c _ _ _ => below 48 c
  | .div c _ _ _ => below 48 c
  | .divu c _ _ _ => below 48 c
  | .rem c _ _ _ => below 48 c
  | .remu c _ _ _ => below 48 c
  | .divw c _ _ _ => below 48 c
  | .divuw c _ _ _ => below 48 c
  | .remw c _ _ _ => below 48 c
  | .remuw c _ _ _ => below 48 c
  | .clz c _ _ => below 48 c
  | .ctz c _ _ => below 48 c
  | .popc c _ _ => below 48 c
  | .rev8 c _ _ => below 48 c
  | .brev c _ _ => below 48 c
  | .sextb c _ _ => below 48 c
  | .sexth c _ _ => below 48 c
  | .sextw c _ _ => below 48 c
  | .zextw c _ _ => below 48 c
  | .pickz c _ _ _ => below 48 c
  | .picknz c _ _ _ => below 48 c
  | .crc32c c _ _ _ _ => below 48 c
  | .addi c _ _ _ => below 48 c
  | .addwi c _ _ _ => below 48 c
  | .andi c _ _ _ => below 48 c
  | .ori c _ _ _ => below 48 c
  | .xori c _ _ _ => below 48 c
  | .slti c _ _ _ => below 48 c
  | .sltui c _ _ _ => below 48 c
  | .slli c _ _ _ => below 48 c
  | .srli c _ _ _ => below 48 c
  | .srai c _ _ _ => below 48 c
  | .rori c _ _ _ => below 48 c
  | .sllwi c _ _ _ => below 48 c
  | .srlwi c _ _ _ => below 48 c
  | .srawi c _ _ _ => below 48 c
  | .extu c _ _ _ _ => below 48 c
  | .exts c _ _ _ _ => below 48 c
  | .ins c _ _ _ _ => below 48 c
  | .muli c _ _ _ => below 48 c
  | .lui c _ _ => below 48 c
  | .auipc c _ _ => below 48 c
  | .adr c _ _ => below 48 c
  | .luhi c _ _ => below 48 c
  | .ld c _ _ _ _ => below 48 c
  | .st c _ _ _ _ => below 48 c
  | .ldx c _ _ _ _ _ => below 48 c
  | .stx c _ _ _ _ _ => below 48 c
  | .ldi c _ _ _ _ => below 48 c
  | .sti c _ _ _ _ => below 48 c
  | .ldd c _ _ _ _ => below 48 c
  | .std c _ _ _ _ => below 48 c
  | .l1dFill c _ _ _ _ _ parity => below 48 c && below 5 parity
  | .storeBufferDrain c _ _ => below 48 c
  | .deviceLoadResponse c _ => below 48 c
  | .asyncBusError c _ => below 48 c
  | .lateWriteback c _ => below 48 c
  | .ldres c _ _ _ => below 48 c
  | .stcnd c _ _ _ _ => below 48 c
  | .blkmov c _ _ _ _ => below 48 c
  | .blkset c _ _ _ _ => below 48 c
  | .fadd c _ _ _ _ => below 48 c
  | .fsub c _ _ _ _ => below 48 c
  | .fmul c _ _ _ _ => below 48 c
  | .fdiv c _ _ _ _ => below 48 c
  | .fsqrt c _ _ _ => below 48 c
  | .fmin c _ _ _ _ => below 48 c
  | .fmax c _ _ _ _ => below 48 c
  | .fmac c _ _ _ _ => below 48 c
  | .fmsc c _ _ _ _ => below 48 c
  | .fabs c _ _ _ => below 48 c
  | .fneg c _ _ _ => below 48 c
  | .fcvtSD c _ _ => below 48 c
  | .fcvtDS c _ _ => below 48 c
  | .fcvtToInteger c _ _ _ _ => below 48 c
  | .fcvtFromInteger c _ _ _ _ => below 48 c
  | .feq c _ _ _ _ => below 48 c
  | .flt c _ _ _ _ => below 48 c
  | .fle c _ _ _ _ => below 48 c
  | .fclass c _ _ _ => below 48 c
  | .fmvGF c _ _ => below 48 c
  | .fmvFG c _ _ => below 48 c
  | .padd c _ _ _ _ => below 48 c
  | .psub c _ _ _ _ => below 48 c
  | .padds c _ _ _ _ => below 48 c
  | .paddus c _ _ _ _ => below 48 c
  | .psubs c _ _ _ _ => below 48 c
  | .psubus c _ _ _ _ => below 48 c
  | .pmul c _ _ _ => below 48 c
  | .pmulhs c _ _ _ => below 48 c
  | .pmin c _ _ _ => below 48 c
  | .pmax c _ _ _ => below 48 c
  | .pminu c _ _ _ => below 48 c
  | .pmaxu c _ _ _ => below 48 c
  | .pcmpeq c _ _ _ _ => below 48 c
  | .pcmpgt c _ _ _ => below 48 c
  | .pand c _ _ _ => below 48 c
  | .por c _ _ _ => below 48 c
  | .pxor c _ _ _ => below 48 c
  | .psad c _ _ _ => below 48 c
  | .pfadd c _ _ _ => below 48 c
  | .pfsub c _ _ _ => below 48 c
  | .pfmul c _ _ _ => below 48 c
  | .pfmac c _ _ _ => below 48 c
  | .beq c _ _ _ => below 48 c
  | .bne c _ _ _ => below 48 c
  | .blt c _ _ _ => below 48 c
  | .bge c _ _ _ => below 48 c
  | .bltu c _ _ _ => below 48 c
  | .bgeu c _ _ _ => below 48 c
  | .loop c _ _ => below 48 c
  | .jmp c _ => below 48 c
  | .bl c _ => below 48 c
  | .jr c _ => below 48 c
  | .jlr c _ => below 48 c
  | .mfs c _ _ => below 48 c
  | .mts c _ _ => below 48 c
  | .dcClean c _ => below 48 c
  | .dcInv c _ => below 48 c
  | .dcClinv c _ => below 48 c
  | .dcZero c _ => below 48 c
  | .icInv c _ => below 48 c
  | .tlbiVa c _ => below 48 c
  | .tlbiAsid c _ => below 48 c
  | .tlbiVmid c _ => below 48 c
  | .tlbiAll c => below 48 c
  | .fenceC c => below 48 c
  | .fenceK c => below 48 c
  | .fenceS c => below 48 c
  | .barrierWaitEnd c => below 48 c
  | .isync c => below 48 c
  | .wev c => below 48 c
  | .waitEnd c => below 48 c
  | .sev c _ => below 48 c
  | .wtu c _ => below 48 c
  | .wtuDeadline c => below 48 c
  | .clrres c => below 48 c
  | .take c _ => below 48 c
  | .takeGrant c _ => below 48 c
  | .yield c => below 48 c
  | .gate c _ _ => below 48 c
  | .gret c => below 48 c
  | .eret c => below 48 c
  | .brk c _ => below 48 c
  | .exceptionEntry c vec _ _ _ _ _ => below 48 c && below 19 vec
  | .interruptEntry c => below 48 c
  | .instructionRetry c unit code _ _ _ _ => below 48 c && below 256 unit && below 256 code
  | .checkpointScrub c i _ => below 48 c && below 120 i
  | .proactiveThreshold c => below 48 c
  | .sparereqGo r n idx => requesterOk r && below 8 n && below 6 idx
  | .sparing c _ _ _ _ => below 48 c
  | .coreLoss c _ => below 48 c
  | .rangeClean c => below 48 c
  | .rangeClinv c => below 48 c
  | .rangeInv c => below 48 c
  | .rangeIinv c => below 48 c
  | .rangeOperationLine c => below 48 c
  | .dclinv c => below 48 c
  | .dclean c => below 48 c
  | .dinv c => below 48 c
  | .iinv c => below 48 c
  | .cacheEnable c _ _ => below 48 c
  | .invall c => below 48 c
  | .l2opClean r n => requesterOk r && below 8 n
  | .l2opClinv r n => requesterOk r && below 8 n
  | .cacheScrub a _ _ _ => arrayAtOk a
  | .clusterFence n unit code _ => below 8 n && below 256 unit && below 256 code
  | .wayFence a way set => arrayAtOk a && below 16 way && below 4096 set
  | .qtierWrite r _ => requesterOk r
  | .dtierWrite r _ => requesterOk r
  | .gateBroadcastWrite r addr _ => requesterOk r && addrOk addr
  | .trainFull k _ _ => below 22 k
  | .trainLoad k _ => below 22 k
  | .trainInvalidMode k => below 22 k
  | .periodicRetraining n _ => below 16 n
  | .powerDown n => below 16 n
  | .patrolScrub k _ _ => below 22 k
  | .sramScrub _ _ _ => true
  | .responseTimeout k t addr => below 22 k && tagOk t && addrOk addr
  | .softRepair cask bank column _ => sramOk cask bank && below 256 column
  | .sramBankFence cask bank => sramOk cask bank
  | .wipe r => requesterOk r
  | .tamperEvent cause => below 4 cause
  | .sqTailWrite r q _ => requesterOk r && below 0x600 q
  | .cqHeadWrite r q _ => requesterOk r && below 0x600 q
  | .sqEntryRead => true
  | .scEnable r _ => requesterOk r
  | .scDisable r _ => requesterOk r
  | .scMigrateDrain r _ _ => requesterOk r
  | .scMigrateForce r _ _ => requesterOk r
  | .scAbort r _ => requesterOk r
  | .rpEnable r _ => requesterOk r
  | .rpDisable r _ => requesterOk r
  | .rpFlush r _ => requesterOk r
  | .badop r _ _ => requesterOk r
  | .ccdNop sc => below 4096 sc
  | .branch sc => below 4096 sc
  | .ccdWait sc => below 4096 sc
  | .waitExpiry sc => below 4096 sc
  | .check of => stepOk of
  | .mash of => stepOk of
  | .unmash of => stepOk of
  | .seal of => stepOk of
  | .unseal of => stepOk of
  | .ccdRead sc => below 4096 sc
  | .ccdWrite sc => below 4096 sc
  | .control sc => below 4096 sc
  | .sense sc => below 4096 sc
  | .engineStepEnd _ _ => true
  | .pathReport path slot gen _ => below 96 path && below 8192 slot && below 0x10000 gen
  | .stepTimeout sc => below 4096 sc
  | .nopathTimeout sc => below 4096 sc
  | .coalescingTimeout q => below 0x600 q
  | .pathFence p _ => below 96 p
  | .pathctlFence r p => requesterOk r && below 96 p
  | .pathctlEn r p _ => requesterOk r && below 96 p
  | .pathOnline p => below 96 p
  | .cssEnable r => requesterOk r
  | .cssDisable r => requesterOk r
  | .rlogHeadWrite r _ => requesterOk r
  | .rlogcfgWrite r _ => requesterOk r
  | .ledgerScrub slot => below 8192 slot
  | .mirror port => below 6 port
  | .mack port => below 6 port
  | .mref port => below 6 port
  | .cancel port => below 6 port
  | .mirrorResend => true
  | .peerwaitExpiry dev => below 31 dev
  | .noslotKeyExpiry dev slot gen => below 31 dev && below 8192 slot && below 0x10000 gen
  | .frameReceive path _ _ _ => below 96 path
  | .frameSent path _ _ => below 96 path
  | .readWaitExpiry path slot => below 96 path && below 8192 slot
  | .linkLoss path => below 96 path
  | .adapterReset r path => requesterOk r && below 96 path
  | .qbvCycleStart path => below 96 path
  | .gclEntryEnd path => below 96 path
  | .sdResponse path _ => below 96 path
  | .sdRetransmit path => below 96 path
  | .keepAlive path _ => below 96 path
  | .faultin path => below 96 path
  | .jobStart r _ _ _ => requesterOk r
  | .verify ch => below 8 ch
  | .cipher ch => below 8 ch
  | .derive r _ _ _ => requesterOk r
  | .importKey r _ _ => requesterOk r
  | .ldrInvalidOp r _ => requesterOk r
  | .slotClear r _ _ => requesterOk r
  | .rngdataRead r _ => requesterOk r
  | .healthTestFailure => true
  | .rngRestart r => requesterOk r
  | .fullTraining port _ => below 6 port
  | .param port p => below 6 port && paramOk p
  | .idle port _ => below 6 port
  | .nak port _ _ => below 6 port
  | .bret port _ _ => below 6 port
  | .recon port _ _ => below 6 port
  | .dataFrameReceive port _ _ _ f _ => below 6 port && flitOk f
  | .replayTimeout port _ => below 6 port
  | .fastRetrain port _ => below 6 port
  | .retrainLimit port => below 6 port
  | .portEnable r port _ => requesterOk r && below 6 port
  | .portFence r port => requesterOk r && below 6 port
  | .rd port => below 6 port
  | .wr port => below 6 port
  | .wrd port => below 6 port
  | .fwd port => below 6 port
  | .brd port => below 6 port
  | .bwr port => below 6 port
  | .rdr port => below 6 port
  | .relayCmp port => below 6 port
  | .requestTimeout _ => true
  | .assign port => below 6 port
  | .routeset port => below 6 port
  | .ready port => below 6 port
  | .assignRepeat dev => below 31 dev
  | .sync port _ _ => below 6 port
  | .syncPeriod => true
  | .dreq port _ => below 6 port
  | .dresp port => below 6 port
  | .loss port => below 6 port
  | .lossRepeat => true
  | .leave port => below 6 port
  | .configurationRequest _ _ _ => true
  | .bar0Request _ _ _ _ _ => true
  | .bar2Request _ _ _ _ _ _ => true
  | .rpcmdEnable _ => true
  | .rpcmdDisable _ => true
  | .rpcmdFlush _ => true
  | .intpendClear _ => true
  | .bmeChange _ _ => true
  | .flr _ => true
  | .vfEnableClear => true
  | .d3hotToD0 _ => true
  | .linkReset _ => true
  | .hostCompletion tag _ _ => below 1024 tag
  | .completionTimeout tag => below 1024 tag
  | .mbdbSend => true
  | .mbsend r => requesterOk r
  | .edgeEvent c snum => below 48 c && below 2048 snum
  | .levelLine src _ _ => lineOk src
  | .setp r addr _ => requesterOk r && addrOk addr
  | .csig r _ => requesterOk r
  | .ieoi c _ => below 48 c
  | .istkclr c _ => below 48 c
  | .sealedRestart r _ => r.all requesterOk
  | .blkgateWrite r b _ => requesterOk r && below 20 b
  | .chal r => requesterOk r
  | .unlock r => requesterOk r
  | .relock r => requesterOk r
  | .halt r c => requesterOk r && below 48 c
  | .resume r c => requesterOk r && below 48 c
  | .step r c => requesterOk r && below 48 c
  | .itr r c _ => r.all requesterOk && below 48 c
  | .extest _ => true
  | .idcode => true
  | .samplePreload _ => true
  | .clamp => true
  | .highz => true
  | .bypass _ _ => true
  | .dap _ => true
  | .fullBoot _ => true
  | .bootSourceTimeout => true
  | .manifest _ => true
  | .blockData _ => true
  | .endDownload _ => true
  | .release r _ _ => requesterOk r
  | .lcadv r _ => requesterOk r
  | .raiseSvn r _ _ => requesterOk r
  | .revokeRootKeySlot r _ _ => requesterOk r
  | .revokeDebugKeySlot r _ _ => requesterOk r
  | .fuseprogInvalidOp r _ => requesterOk r
  | .parkResume _ => true
  | .epoch _ _ _ => true
  | .voltageConfirmed g _ => below 4 g
  | .voltageTimeout g => below 4 g
  | .measurement _ _ _ => true
  | .qpush r q _ => requesterOk r && below 64 q
  | .devsleep r _ => requesterOk r
  | .drainTimeout => true
  | .entryWindowEnd => true
  | .wakePin _ _ => true
  | .i2c0AddressMatch _ => true
  | .etcAlarm => true
  | .wake _ _ _ => true
  | .idleEntry c => below 48 c
  | .swmsg r ch _ => requesterOk r && below 16 ch
  | .traceSourceEnable r n _ => requesterOk r && below 98 n
  | .chunkTimeout n _ => below 98 n
  | .syncPeriodic n => below 98 n
  | .sinkWrite k _ _ => below 5 k
  | .frozenClear r k => requesterOk r && below 5 k
  | .refLost => true
  | .pllLockLost _ => true
  | .aclkLost => true
  | .etcIncrement _ => true
  | .etcComparator c => below 48 c
  | .pinReset _ => true
  | .warmReset r => r.all requesterOk
  | .clusterReset r _ => r.all requesterOk
  | .coreReset r _ => r.all requesterOk
  | .socRailTimeout => true
  | .binjArm r i _ => requesterOk r && below 4 i
  | .rsvtest r n _ => requesterOk r && below 8 n
  | .l1iFill c _ _ _ parity => below 48 c && below 5 parity
  | .linkUp _ _ => true
  | .bretInterval port => below 6 port
  | .ackInterval port => below 6 port

end Sys2Proof
end

