-- ==== Sys2Proof/Tests/Slice0.lean ====
section
/-! SUPPORT. The model's own tests: small steps with results taken from the manual or by hand from it, terms that the well-formedness checks
refuse, and for each statement with hypotheses a state and operands that meet them. -/
namespace Sys2Proof.Tests
open Sys2Proof Sys2Proof.Machine

/-! One theorem after another: each evaluates in the kernel, and many at once would each ask for a stack of their own. -/
set_option Elab.async false

/-! ## Small states -/

/-- A released core at a level, with MLV 15, FPE set or clear, and nothing else. -/
def coreAt (lvl : Nat) (fpe : Bool) : Core := { Core.reset with released := true, stat := statWord lvl 0xF false fpe }

/-- One core. -/
def one (k : Core) : State := { State.reset with cores := [(0, k)] }

/-- The state that a command answers. -/
def after (o : Host.Outcome State Fault Refusal) : State :=
  match o with
  | .next s => s
  | _ => State.reset

/-- A core with two registers. -/
def two (x y : W64) : State := one (((coreAt 0 true).setG 1 x).setG 2 y)

/-- What an instruction leaves in g3. -/
def g3 (i : Instr) (s : State) : W64 := ((after (exec i s)).core 0).g 3

/-- A core with three f registers. -/
def fs (x y z : W64) : State := one ((((coreAt 0 true).setF 1 x).setF 2 y).setF 3 z)

/-- What an instruction leaves in f3, and the flags with what is owed. -/
def f3 (i : Instr) (s : State) : W64 × W64 :=
  let k := (after (exec i s)).core 0
  (k.f 3, k.late.foldl (fun a l => a ||| l.flags) k.fcsr)

/-- The value of an answer, and its failure. -/
def okOf {α β : Type} (x : Except α β) : Option β :=
  match x with
  | .ok v => some v
  | _ => none
def errOf {α β : Type} (x : Except α β) : Option α :=
  match x with
  | .error v => some v
  | _ => none

/-! ## Terms that the well-formedness checks refuse -/

theorem test_wf_core : Instr.wf (.add 48 1 2 3) = false ∧ Instr.wf (.add 47 1 2 3) = true ∧ Instr.wf (.registerWrite (.core 48) 0 0 false) = false := by decide
theorem test_wf_address : Instr.wf (.registerWrite (.core 0) (2 ^ 44) 0 false) = false ∧ Instr.wf (.unmappedAccess { world := false, pid := 64, cls := 0, src := 0 } 0 false) = false ∧
    Instr.wf (.unmappedAccess { world := false, pid := 0, cls := 8, src := 0 } 0 false) = false ∧ Instr.wf (.responseTimeout 22 { world := false, pid := 0, cls := 0, src := 0 } 0) = false := by decide
theorem test_wf_errors : Instr.wf (.bankCtlWrite (.core 0) 48 0) = false ∧ Instr.wf (.recordSlotFree (.core 0) 0 16) = false ∧ Instr.wf (.partitionFence (.core 0) 64) = false ∧
    Instr.wf (.instructionRetry 0 256 0 none none false 0) = false ∧ Instr.wf (.exceptionEntry 0 19 0 none none false false) = false := by decide
theorem test_wf_memory : Instr.wf (.trainInvalidMode 22) = false ∧ Instr.wf (.powerDown 16) = false ∧ Instr.wf (.sramBankFence true 4) = false ∧ Instr.wf (.sramBankFence false 32) = false ∧
    Instr.wf (.softRepair false 0 256 []) = false := by decide
theorem test_wf_arrays : Instr.wf (.wayFence (.l2 8) 0 0) = false ∧ Instr.wf (.wayFence (.cellar 15) 16 0) = false ∧ Instr.wf (.wayFence (.cellar 15) 15 4095) = true ∧ Instr.wf (.tamperEvent 4) = false ∧
    Instr.wf (.l2opClean (.core 0) 8) = false ∧ Instr.wf (.sparereqGo (.core 0) 0 6) = false := by decide
theorem test_wf_channels : Instr.wf (.ccdNop 4096) = false ∧ Instr.wf (.sqTailWrite (.core 0) 0x600 0) = false ∧ Instr.wf (.seal (.job 8)) = false ∧ Instr.wf (.seal (.sub 4096)) = false ∧ Instr.wf (.ledgerScrub 8192) = false ∧
    Instr.wf (.pathReport 96 0 0 false) = false ∧ Instr.wf (.pathReport 0 8192 0 false) = false ∧ Instr.wf (.pathReport 0 0 0x10000 false) = false ∧ Instr.wf (.linkLoss 96) = false ∧ Instr.wf (.verify 8) = false := by decide
theorem test_wf_relay : Instr.wf (.rd 6) = false ∧ Instr.wf (.param 0 ⟨false, 32, 0, 0, 0⟩) = false ∧ Instr.wf (.dataFrameReceive 0 0 true none ⟨4, 0, 0, 0, 0, 0, []⟩ false) = false ∧
    Instr.wf (.dataFrameReceive 0 0 true none ⟨0, 0, 0, 0, 0, 0, List.replicate 65 0⟩ false) = false ∧ Instr.wf (.assignRepeat 31) = false := by decide
theorem test_wf_others : Instr.wf (.completionTimeout 1024) = false ∧ Instr.wf (.edgeEvent 0 2048) = false ∧ Instr.wf (.levelLine (.shared 1024) true .ok) = false ∧ Instr.wf (.levelLine (.gpio 512) true .ok) = false ∧
    Instr.wf (.blkgateWrite (.core 0) 20 0) = false ∧ Instr.wf (.voltageTimeout 4) = false ∧ Instr.wf (.qpush (.core 0) 64 0) = false ∧ Instr.wf (.swmsg (.core 0) 16 0) = false ∧
    Instr.wf (.sinkWrite 5 false .ok) = false ∧ Instr.wf (.chunkTimeout 98 .ok) = false ∧ Instr.wf (.binjArm (.core 0) 4 0) = false ∧ Instr.wf (.sealedRestart (some (.core 48)) ⟨none, []⟩) = false := by decide

/-! ## Integer instructions -/

theorem test_add_wraps : g3 (.add 0 3 1 2) (two 0xFFFFFFFFFFFFFFFF 2) = 1 := by decide +kernel
theorem test_sub_borrows : g3 (.sub 0 3 1 2) (two 1 2) = 0xFFFFFFFFFFFFFFFF := by decide +kernel
theorem test_andn : g3 (.andn 0 3 1 2) (two 0xFF 0x0F) = 0xF0 := by decide +kernel
theorem test_orn : g3 (.orn 0 3 1 2) (two 1 0xFFFFFFFFFFFFFFF0) = 0xF := by decide +kernel
theorem test_slt_signed : g3 (.slt 0 3 1 2) (two 0xFFFFFFFFFFFFFFFF 0) = 1 ∧ g3 (.sltu 0 3 1 2) (two 0xFFFFFFFFFFFFFFFF 0) = 0 := by decide +kernel
theorem test_min_signed : g3 (.min 0 3 1 2) (two 0x8000000000000000 1) = 0x8000000000000000 ∧ g3 (.minu 0 3 1 2) (two 0x8000000000000000 1) = 1 := by decide +kernel
theorem test_addw_sign : g3 (.addw 0 3 1 2) (two 0x7FFFFFFF 1) = 0xFFFFFFFF80000000 := by decide +kernel
theorem test_sra : g3 (.sra 0 3 1 2) (two 0x8000000000000000 63) = 0xFFFFFFFFFFFFFFFF ∧ g3 (.srl 0 3 1 2) (two 0x8000000000000000 63) = 1 := by decide +kernel
theorem test_shift_masks_count : g3 (.sll 0 3 1 2) (two 1 65) = 2 ∧ g3 (.sllw 0 3 1 2) (two 1 33) = 2 := by decide +kernel
theorem test_ror : g3 (.ror 0 3 1 2) (two 1 1) = 0x8000000000000000 ∧ g3 (.ror 0 3 1 2) (two 5 64) = 5 := by decide +kernel
theorem test_sraw : g3 (.sraw 0 3 1 2) (two 0x80000000 4) = 0xFFFFFFFFF8000000 ∧ g3 (.srlw 0 3 1 2) (two 0x80000000 4) = 0x08000000 := by decide +kernel
theorem test_mul_low : g3 (.mul 0 3 1 2) (two 0x100000000 0x100000001) = 0x100000000 := by decide +kernel
theorem test_mulh : g3 (.mulh 0 3 1 2) (two 0xFFFFFFFFFFFFFFFF 1) = 0xFFFFFFFFFFFFFFFF ∧ g3 (.mulhu 0 3 1 2) (two 0xFFFFFFFFFFFFFFFF 2) = 1 := by decide +kernel
theorem test_mulhsu : g3 (.mulhsu 0 3 1 2) (two 0xFFFFFFFFFFFFFFFF 0xFFFFFFFFFFFFFFFF) = 0xFFFFFFFFFFFFFFFF := by decide +kernel
theorem test_div_truncates : g3 (.div 0 3 1 2) (two 0xFFFFFFFFFFFFFFF9 2) = 0xFFFFFFFFFFFFFFFD ∧ g3 (.rem 0 3 1 2) (two 0xFFFFFFFFFFFFFFF9 2) = 0xFFFFFFFFFFFFFFFF := by
  decide +kernel
theorem test_div_by_zero : g3 (.div 0 3 1 2) (two 7 0) = 0xFFFFFFFFFFFFFFFF ∧ g3 (.rem 0 3 1 2) (two 7 0) = 7 := by decide +kernel
theorem test_div_overflow : g3 (.div 0 3 1 2) (two 0x8000000000000000 0xFFFFFFFFFFFFFFFF) = 0x8000000000000000 ∧
    g3 (.rem 0 3 1 2) (two 0x8000000000000000 0xFFFFFFFFFFFFFFFF) = 0 := by decide +kernel
theorem test_divw : g3 (.divw 0 3 1 2) (two 0x80000000 0xFFFFFFFF) = 0xFFFFFFFF80000000 ∧ g3 (.remuw 0 3 1 2) (two 0xFFFFFFFF 0) = 0xFFFFFFFFFFFFFFFF := by decide +kernel
theorem test_pickz : g3 (.pickz 0 3 1 2) (two 9 0) = 9 ∧ g3 (.picknz 0 3 1 2) (two 9 0) = 0 := by decide +kernel
theorem test_addi_negative : g3 (.addi 0 3 1 0xFFF) (two 5 0) = 4 := by decide +kernel
theorem test_andi_sign_extends : g3 (.andi 0 3 1 0x800) (two 0xFFFFFFFFFFFFFFFF 0) = 0xFFFFFFFFFFFFF800 := by decide +kernel
theorem test_sltui_extended : g3 (.sltui 0 3 1 0xFFF) (two 5 0) = 1 ∧ g3 (.slti 0 3 1 0xFFF) (two 5 0) = 0 := by decide +kernel
theorem test_srai : g3 (.srai 0 3 1 4) (two 0x8000000000000000 0) = 0xF800000000000000 := by decide +kernel
theorem test_srawi : g3 (.srawi 0 3 1 31) (two 0x80000000 0) = 0xFFFFFFFFFFFFFFFF := by decide +kernel
theorem test_lui : g3 (.lui 0 3 0x100000) (two 0 0) = 0xFFFFFFFF00000000 := by decide +kernel
theorem test_luhi_keeps_low : ((after (exec (.luhi 0 1 1) (two 0xFFFFFFFFFFFFFFFF 0))).core 0).g 1 = 0x00000FFFFFFFFFFF := by decide +kernel
theorem test_extu : g3 (.extu 0 3 1 4 7) (two 0xABCD 0) = 0xBC ∧ g3 (.exts 0 3 1 4 7) (two 0xABCD 0) = 0xFFFFFFFFFFFFFFBC := by decide +kernel
theorem test_ins : ((after (exec (.ins 0 2 1 8 7) (two 0xAB 0x123456))).core 0).g 2 = 0x12AB56 := by decide +kernel
theorem test_ins_undefined : ((after (exec (.ins 0 2 1 60 7) (two 0xAB 0x123456))).core 0).g 2 = 0x123456 := by decide +kernel
theorem test_clz : g3 (.clz 0 3 1) (two 1 0) = 63 ∧ g3 (.clz 0 3 1) (two 0 0) = 64 := by decide +kernel
theorem test_ctz : g3 (.ctz 0 3 1) (two 8 0) = 3 ∧ g3 (.popc 0 3 1) (two 0xFF01 0) = 9 := by decide +kernel
theorem test_rev8 : g3 (.rev8 0 3 1) (two 0x0102030405060708 0) = 0x0807060504030201 ∧ g3 (.brev 0 3 1) (two 1 0) = 0x8000000000000000 := by decide +kernel
theorem test_sextb : g3 (.sextb 0 3 1) (two 0x80 0) = 0xFFFFFFFFFFFFFF80 ∧ g3 (.zextw 0 3 1) (two 0xFFFFFFFFFFFFFFFF 0) = 0xFFFFFFFF := by decide +kernel
/-- The published check value of CRC-32C: the digits 1 to 9 give 0xE3069283, with the inversions that R95 leaves to software. -/
theorem test_crc32c_digits : ~~~ (g3 (.crc32c 0 .b 3 1 2) (two (g3 (.crc32c 0 .d 3 1 2) (two 0xFFFFFFFF 0x3837363534333231)) 0x39)).truncate 32 = 0xE3069283#32 := by
  decide +kernel
theorem test_g0_discards : ((after (exec (.addi 0 0 1 5) (two 1 0))).core 0).g 0 = 0 ∧ ((after (exec (.addi 0 0 1 5) (two 1 0))).core 0).pc = 4 := by decide +kernel
theorem test_not_released : exec (.add 0 3 1 2) State.reset = .next State.reset := by rfl

theorem witness_IntegerRegisterResults : (two 7 3).calm 0 = true := by decide +kernel
theorem witness_IntegerImmediateResults : (two 7 3).calm 0 = true ∧ (32 + 32 ≤ 64) ∧ 64 < 33 + 32 := by decide +kernel
theorem witness_Crc32cFolds : (two 0xFFFFFFFF 0x31).calm 0 = true := by decide +kernel
theorem witness_LateIntegerResults : (two 0x8000000000000000 0).calm 0 = true ∧ (two 0x8000000000000000 0xFFFFFFFFFFFFFFFF).calm 0 = true := by decide +kernel

/-! ## Floating-point and packed instructions -/

theorem test_fadd_d : f3 (.fadd 0 .d 3 1 2) (fs 0x3FF0000000000000 0x4000000000000000 0) = (0x4008000000000000, 0) := by decide +kernel
/-- 1 + 2^-53 is a tie between 1 and the next number: nearest-even gives 1, inexact. -/
theorem test_fadd_tie : f3 (.fadd 0 .d 3 1 2) (fs 0x3FF0000000000000 0x3CA0000000000000 0) = (0x3FF0000000000000, flagNX) := by decide +kernel
theorem test_fsub_infinities : f3 (.fsub 0 .d 3 1 2) (fs 0x7FF0000000000000 0x7FF0000000000000 0) = (0x7FF8000000000000, flagNV) := by decide +kernel
theorem test_fmul_s : f3 (.fmul 0 .s 3 1 2) (fs 0x40000000 0x40400000 0) = (0x40C00000, 0) := by decide +kernel
theorem test_fmul_overflow : f3 (.fmul 0 .s 3 1 2) (fs 0x7F7FFFFF 0x40000000 0) = (0x7F800000, flagOFNX) := by decide +kernel
theorem test_fdiv_by_zero : f3 (.fdiv 0 .s 3 1 2) (fs 0xBF800000 0 0) = (0xFF800000, flagDZ) := by decide +kernel
theorem test_fsqrt : f3 (.fsqrt 0 .d 3 1) (fs 0x4010000000000000 0 0) = (0x4000000000000000, 0) ∧
    f3 (.fsqrt 0 .d 3 1) (fs 0xBFF0000000000000 0 0) = (0x7FF8000000000000, flagNV) := by decide +kernel
theorem test_fmac : f3 (.fmac 0 .d 3 1 2) (fs 0x4000000000000000 0x4008000000000000 0x3FF0000000000000) = (0x401C000000000000, 0) := by decide +kernel
theorem test_fmin_zeros : f3 (.fmin 0 .d 3 1 2) (fs 0 0x8000000000000000 0) = (0x8000000000000000, 0) ∧
    f3 (.fmax 0 .d 3 1 2) (fs 0x7FF8000000000000 0x3FF0000000000000 0) = (0x3FF0000000000000, 0) := by decide +kernel
theorem test_fneg_fabs : f3 (.fneg 0 .s 3 1) (fs 0x3F800000 0 0) = (0xBF800000, 0) ∧ f3 (.fabs 0 .d 3 1) (fs 0xFFF8000000000000 0 0) = (0x7FF8000000000000, 0) := by
  decide +kernel
theorem test_fcvt_s_d : f3 (.fcvtSD 0 3 1) (fs 0x3FF0000000000001 0 0) = (0x3F800000, flagNX) ∧ f3 (.fcvtDS 0 3 1) (fs 0x3F800000 0 0) = (0x3FF0000000000000, 0) := by
  decide +kernel
theorem test_feq_nan : g3 (.feq 0 .d 3 1 2) (fs 0x7FF8000000000000 0 0) = 0 ∧ g3 (.fle 0 .d 3 1 2) (fs 0 0x8000000000000000 0) = 1 ∧
    g3 (.flt 0 .s 3 1 2) (fs 0xBF800000 0x3F800000 0) = 1 := by decide +kernel
theorem test_fclass : g3 (.fclass 0 .d 3 1) (fs 0xBFF0000000000000 0 0) = 0x1A ∧ g3 (.fclass 0 .d 3 1) (fs 0x7FF0000000000001 0 0) = 5 := by decide +kernel
theorem test_fcvt_integer : g3 (.fcvtToInteger 0 false .d 3 1) (fs 0xC004000000000000 0 0) = 0xFFFFFFFFFFFFFFFE ∧
    g3 (.fcvtToInteger 0 true .d 3 1) (fs 0xC004000000000000 0 0) = 0 := by decide +kernel
theorem test_fcvt_from_integer : (f3 (.fcvtFromInteger 0 false .d 3 1) (two 0xFFFFFFFFFFFFFFFF 0)).1 = 0xBFF0000000000000 := by decide +kernel
theorem test_fmv : g3 (.fmvGF 0 3 1) (fs 0x123456789ABCDEF0 0 0) = 0x123456789ABCDEF0 ∧ (f3 (.fmvFG 0 3 1) (two 0x42 0)).1 = 0x42 := by decide +kernel
theorem test_padd_lanes : (f3 (.padd 0 .b 3 1 2) (fs 0xFF01 0x0101 0)).1 = 0x0002 ∧ (f3 (.padd 0 .h 3 1 2) (fs 0xFF01 0x0101 0)).1 = 0x0002 := by decide +kernel
theorem test_padds_saturates : f3 (.padds 0 .h 3 1 2) (fs 0x7FFF 1 0) = (0x7FFF, flagSAT) ∧ f3 (.paddus 0 .b 3 1 2) (fs 0x80 0x80 0) = (0xFF, flagSAT) := by decide +kernel
theorem test_psubs : f3 (.psubus 0 .b 3 1 2) (fs 1 2 0) = (0, flagSAT) ∧ f3 (.psubs 0 .b 3 1 2) (fs 1 2 0) = (0xFF, 0) := by decide +kernel
theorem test_pmulhs : (f3 (.pmulhs 0 3 1 2) (fs 0xFFFF 0x0001 0)).1 = 0xFFFF ∧ (f3 (.pmul 0 3 1 2) (fs 0xFFFF 0x0002 0)).1 = 0xFFFE := by decide +kernel
theorem test_psad : (f3 (.psad 0 3 1 2) (fs 0x0102 0x0301 0)).1 = 3 := by decide +kernel
theorem test_pcmp : (f3 (.pcmpgt 0 3 1 2) (fs 0x0001 0xFFFF 0)).1 = 0xFFFF ∧ (f3 (.pcmpeq 0 .b 3 1 2) (fs 0x0100 0 0)).1 = 0xFFFFFFFFFFFF00FF := by decide +kernel
theorem test_pfadd : (f3 (.pfadd 0 3 1 2) (fs 0x3F8000003F800000 0x3F80000040000000 0)).1 = 0x4000000040400000 := by decide +kernel
/-- FPE is 0: FP Disabled, f3 unchanged. -/
theorem test_fp_disabled : (((after (exec (.fadd 0 .d 3 1 2) (one ((coreAt 0 false).setF 3 7)))).core 0).f 3) = 7 := by decide +kernel

theorem witness_FloatingPointResults : (fs 1 2 3).calm 0 = true ∧ ((fs 1 2 3).core 0).fpe = true ∧ ((fs 1 2 3).core 0).rm < 5 ∧
    (one (coreAt 0 false)).calm 0 = true ∧ ((one (coreAt 0 false)).core 0).fpe = false ∧
    (one { coreAt 0 true with fcsr := 5 }).calm 0 = true ∧ ((one { coreAt 0 true with fcsr := 5 }).core 0).fpe = true ∧ 5 ≤ ((one { coreAt 0 true with fcsr := 5 }).core 0).rm := by
  decide +kernel
theorem witness_RoundingIsCorrect : (4 < 5) ∧ 0 < 3 := by decide
theorem witness_FloatingPointArithmetic : Fmt.value .d 0x3FF0000000000000 = some 1 ∧ Fmt.value .d 0x4000000000000000 = some 2 ∧ Fmt.value .s 0x80000000 = some 0 ∧
    (1 : Rat) + 2 ≠ 0 ∧ (1 : Rat) - 2 ≠ 0 ∧ Fmt.d.unpack 0x7FF8000000000000 = .nan false ∧ Fmt.d.unpack 0x7FF0000000000001 = .nan true ∧
    Fmt.d.subnormal (Fmt.d.unpack 0x3FF0000000000000) = false ∧ Fmt.value .d 0x43E0000000000000 = some 9223372036854775808 ∧ Fmt.value .d 0x43F0000000000000 = some 18446744073709551616 ∧
    Fmt.value .d 0xC3E0000000000001 = some (-9223372036854777856) ∧ Fmt.value .d 0xBFF0000000000000 = some (-1) := by decide +kernel
theorem witness_FclassFields : (fs 0x7FF0000000000001 0 0).calm 0 = true ∧ ((fs 0x7FF0000000000001 0 0).core 0).fpe = true := by decide +kernel
theorem witness_PackedResults : (fs 1 2 3).calm 0 = true ∧ ((fs 1 2 3).core 0).fpe = true ∧ Lane.b ≠ Lane.w := by decide +kernel

/-! ## Branches, loads and stores -/

/-- The PC after an instruction. -/
def pcOf (i : Instr) (s : State) : W64 := ((after (exec i s)).core 0).pc

theorem test_beq_taken : pcOf (.beq 0 1 2 0xFFFF) (one { (coreAt 0 true).setG 1 7 |>.setG 2 7 with pc := 0x100 }) = 0xFC := by decide +kernel
theorem test_blt_signed : pcOf (.blt 0 1 2 2) (two 0xFFFFFFFFFFFFFFFF 0) = 8 ∧ pcOf (.bltu 0 1 2 2) (two 0xFFFFFFFFFFFFFFFF 0) = 4 := by decide +kernel
theorem test_bge_equal : pcOf (.bge 0 1 2 2) (two 5 5) = 8 ∧ pcOf (.bgeu 0 1 2 2) (two 4 5) = 4 ∧ pcOf (.bne 0 1 2 2) (two 4 5) = 8 := by decide +kernel
/-- A core at the last instruction of a loop body with a count. -/
def atLoopEnd (n : W64) : State := one { coreAt 0 true with pc := 0x20, lbeg := 0x10, lend := 0x20, lcnt := n }
theorem test_loop_back : pcOf (.add 0 3 1 2) (atLoopEnd 2) = 0x10 ∧ ((after (exec (.add 0 3 1 2) (atLoopEnd 2))).core 0).lcnt = 1 := by decide +kernel
theorem test_loop_out : pcOf (.add 0 3 1 2) (atLoopEnd 1) = 0x24 ∧ ((after (exec (.add 0 3 1 2) (atLoopEnd 1))).core 0).lcnt = 0 := by decide +kernel
theorem test_branch_at_loop_end : ((after (exec (.beq 0 0 0 4) (atLoopEnd 2))).core 0).lcnt = 2 := by decide +kernel
theorem test_loop_sets : ((after (exec (.loop 0 1 3) (two 5 0))).core 0).lend = 12 ∧ pcOf (.loop 0 1 3) (two 0 0) = 16 := by decide +kernel
theorem test_bl_links : ((after (exec (.bl 0 4) (two 0 0))).core 0).g 30 = 4 ∧ pcOf (.bl 0 4) (two 0 0) = 16 ∧ pcOf (.jmp 0 4) (two 0 0) = 16 := by decide +kernel
theorem test_jlr_reads_first : pcOf (.jlr 0 30) (one ((coreAt 0 true).setG 30 0x40)) = 0x40 := by decide +kernel
theorem test_jr_misaligned : ((after (exec (.jlr 0 1) (two 0x41 0))).core 0).g 30 = 0 := by decide +kernel

/-- A core at a level with an address in Tun, a value, and four bytes there. -/
def tun (lvl : Nat) : State :=
  { one (((coreAt lvl true).setG 1 0x2000010).setG 2 0x1122334455667788) with
    mem := { cells := [(0x2000010, 0x81), (0x2000011, 0x02), (0x2000012, 0x03), (0x2000013, 0x84)], poisoned := [], away := [], awayPoison := [], lines := [] } }

theorem test_ld_sign : g3 (.ld 0 .b 3 1 0) (tun 0) = 0x81 ∧ g3 (.ld 0 .bs 3 1 0) (tun 0) = 0xFFFFFFFFFFFFFF81 := by decide +kernel
theorem test_ld_little_endian : g3 (.ld 0 .w 3 1 0) (tun 0) = 0x84030281 ∧ g3 (.ld 0 .ws 3 1 0) (tun 0) = 0xFFFFFFFF84030281 := by decide +kernel
theorem test_ld_offset : g3 (.ld 0 .b 3 1 3) (tun 0) = 0x84 ∧ g3 (.ldx 0 .h 3 1 4 0) (tun 0) = 0x281 := by decide +kernel
theorem test_ldi_updates : ((after (exec (.ldi 0 .b 3 1 8) (tun 0))).core 0).g 1 = 0x2000018 ∧ g3 (.ldd 0 .b 3 1 0) (tun 0) = 0x81 := by decide +kernel
theorem test_st_then_ld : g3 (.ld 0 .h 3 1 0) (after (exec (.st 0 .h 2 1 0) (tun 0))) = 0x7788 := by decide +kernel
theorem test_drain : (after (exec (.storeBufferDrain 0 .ok .ok) (after (exec (.st 0 .w 2 1 0) (tun 0))))).byte 0x2000013 = 0x55 ∧
    (after (exec (.storeBufferDrain 0 .ok .ok) (after (exec (.st 0 .w 2 1 0) (tun 0))))).byte 0x2000014 = 0 := by decide +kernel
theorem test_std_updates : ((after (exec (.std 0 .d 2 1 16) (tun 0))).core 0).g 1 = 0x2000000 ∧ ((after (exec (.std 0 .d 2 1 16) (tun 0))).core 0).sbuf.length = 1 := by decide +kernel
/-- Reservation taken, then a store-conditional that holds it, then one that does not. -/
theorem test_ldres_stcnd : ((after (exec (.ldres 0 .w 3 1) (tun 0))).core 0).resv = some 0x40000 ∧
    g3 (.stcnd 0 .w 3 1 2) (after (exec (.ldres 0 .w 3 1) (tun 0))) = 0 ∧ g3 (.stcnd 0 .w 3 1 2) (tun 0) = 1 := by decide +kernel
theorem test_blkset : (after (exec (.storeBufferDrain 0 .ok .ok) (after (exec (.blkset 0 1 2 4 1) (one ((((coreAt 0 true).setG 1 0x2000010).setG 2 0xAB).setG 4 3)))))).byte 0x2000012 = 0xAB := by
  decide +kernel
theorem test_blkmov_progress : ((after (exec (.blkmov 0 5 1 4 1) (one ((((coreAt 0 true).setG 1 0x2000010).setG 5 0x2000020).setG 4 4)))).core 0).g 4 = 0 := by decide +kernel

theorem witness_BranchesAndHardwareLoop : (two 5 5).calm 0 = true ∧ (two 4 5).calm 0 = true ∧ (atLoopEnd 2).calm 0 = true ∧ 1 < ((atLoopEnd 2).core 0).lcnt ∧
    ((atLoopEnd 2).core 0).pc = ((atLoopEnd 2).core 0).lend ∧ (atLoopEnd 1).calm 0 = true ∧ (atLoopEnd 0).calm 0 = true ∧ ((two 4 5).core 0).pc ≠ ((two 4 5).core 0).lend + 4 := by decide +kernel
theorem witness_LoopInstruction : (two 5 0).calm 0 = true ∧ ((two 5 0).core 0).g 1 ≠ 0 ∧ ((two 0 5).core 0).g 1 = 0 ∧ (0 : BitVec 16).toInt ≤ 0 ∧ (1 : BitVec 16).toInt > 0 := by
  decide +kernel
theorem witness_JumpsAndCalls : (two 0x40 0).calm 0 = true ∧ fld (((two 0x40 0).core 0).g 1) 1 0 = 0 ∧ (two 0x41 0).calm 0 = true ∧ fld (((two 0x41 0).core 0).g 1) 1 0 ≠ 0 := by
  decide +kernel

/-- A core that owes a product in g5. -/
def owing : State := one ((coreAt 0 true).oweG 0x25 5 7)
theorem witness_RegisterFileAndLateResults : (coreAt 0 true).lvl < 4 ∧ (coreAt 3 true).lvl < 4 ∧ (owing.core 0).late = [{ unit := 0x25, rd := 5, fp := false, value := 7, flags := 0 }] := by
  decide +kernel
theorem test_late_writeback : ((after (exec (.lateWriteback 0 true) owing)).core 0).late = [] ∧ ((after (exec (.lateWriteback 0 true) owing)).core 0).g 5 = 7 := by decide +kernel

theorem witness_LoadsFromMemoryAndBuffer : (tun 0).calm 0 = true ∧ (tun 0).plain 0 false 0x2000010 8 = true ∧ MemSize.isF .d = false ∧
    (tun 0).plain 0 true 0x2000010 4 = true ∧ ((tun 0).core 0).sbuf = [] ∧ (0x2000010 % 16 + 4 ≤ 16) ∧ MemSize.isF .w = false ∧ MemSize.isSigned .w = false ∧
    MemSize.isF .fd = true ∧ ((tun 0).core 0).fpe = true ∧ (one (coreAt 0 false)).calm 0 = true ∧ ((one (coreAt 0 false)).core 0).fpe = false := by decide +kernel
/-- The same core with one buffered store of two bytes. -/
def oneStore : State := after (exec (.st 0 .h 2 1 0) (tun 0))
theorem witness_StoresReachMemory : (tun 0).calm 0 = true ∧ ((tun 0).core 0).sbuf = [] ∧ (tun 0).plain 0 true 0x2000010 8 = true ∧ (0x2000010 % 16 + 8 ≤ 16) ∧ MemSize.isSigned .ws = true ∧
    oneStore.online 0 = true ∧ oneStore.canonical = true ∧ oneStore.memc.marks = [] ∧ ((oneStore.core 0).sbuf.map (fun e => (e.bytes.map (fun x => x.1), e.rtype))) = [([0x2000010, 0x2000011], .cached)] ∧ inWindow 0x2000010 = false ∧
    inRegs 0x2000010 = false ∧ (∀ i, i < 4 → oneStore.rb (Reg.DEBUG_BINJ_CTL.at i) 31 = false) ∧
    ((oneStore.core 0).sbuf.all (fun e => decide (oneStore.admits e.tag true e.pa = (oneStore, none)))) = true ∧
    oneStore.mem.firstCopy (0x2000010 / 64) (dataPlaces 0) = none ∧ (oneStore.mem.line (0x2000010 / 64)).dirty = none := by decide +kernel
/-- A core at M with an address in Cask. -/
def cask : State := one (((coreAt 3 true).setG 1 0x1000010).setG 2 5)
/-- A core whose address is not aligned, and one that holds the reservation. -/
def odd : State := one (((coreAt 0 true).setG 1 0x2000011).setG 2 5)
def reserved : State := after (exec (.ldres 0 .w 3 1) (tun 0))
theorem witness_Reservations : (tun 0).calm 0 = true ∧ (tun 0).plain 0 false 0x2000010 8 = true ∧ (0x2000010 % 8 = 0) ∧ inCask 0x2000010 = false ∧ cask.calm 0 = true ∧
    cask.plain 0 false 0x1000010 8 = true ∧ cask.plain 0 true 0x1000010 8 = true ∧ inCask 0x1000010 = true ∧ odd.calm 0 = true ∧ odd.plain 0 false 0x2000011 4 = true ∧
    odd.plain 0 true 0x2000011 4 = true ∧ (0x2000011 % 4 ≠ 0) ∧ reserved.calm 0 = true ∧ (reserved.core 0).resv = some (0x2000010 / 128) ∧ reserved.plain 0 true 0x2000010 4 = true ∧
    (reserved.core 0).sbuf = [] := by decide +kernel
/-- A core with a source, a destination and a count for a block operation. -/
def block (n : W64) : State := one ((((coreAt 0 true).setG 1 0x2000010).setG 5 0x2000020).setG 4 n)
theorem witness_BlockOperations : (block 0).calm 0 = true ∧ (block 16).calm 0 = true ∧ ((block 16).core 0).sbuf = [] ∧ (block 16).plain 0 true 0x2000020 16 = true ∧
    (block 16).plain 0 false 0x2000010 16 = true ∧ inCask 0x2000020 = false ∧ (0x2000020 % 16 + 16 ≤ 16) ∧ (0x2000010 + 16 ≤ 0x2000020) := by decide +kernel

/-! ## System registers, caches and translation -/

/-- A core at a level whose g1 holds a value. -/
def lev (lvl : Nat) (v : W64) : State := one ((coreAt lvl true).setG 1 v)
/-- A system register after an instruction. -/
def srOf (i : Instr) (s : State) (n : Nat) : W64 := ((after (exec i s)).core 0).srd n

theorem test_mts_vbase_masks : srOf (.mts 0 1 0x480) (lev 1 0xFFFFFFFFFFFFFFFF) 0x480 = 0xFFFFFFFFFFFFFE00 := by decide +kernel
theorem test_mfs_lcid : ((after (exec (.mfs 7 3 0x008) { State.reset with cores := [(7, coreAt 0 true)] })).core 7).g 3 = 0x1107 := by decide +kernel
theorem test_mts_privileged : (after (exec (.mts 0 1 0x480) (lev 0 0x1000))).core 0 |>.srd 0x480 |> (· = 0) := by decide +kernel
theorem test_mts_stat_keeps_level : ((after (exec (.mts 0 1 0x400) (lev 1 0x3FF))).core 0).stat = 0x3F1 := by decide +kernel
theorem test_mts_part_63 : srOf (.mts 0 1 0x801) (lev 2 63) 0x801 = 0 ∧ srOf (.mts 0 1 0x801) (lev 2 62) 0x801 = 62 := by decide +kernel
theorem test_fcsr_bits : ((after (exec (.mts 0 1 0x000) (lev 0 0xFFFFFFFFFFFFFFFF))).core 0).fcsr = 0x5FF := by decide +kernel
theorem test_invall : ((after (exec (.invall 0) (one { coreAt 2 true with pred := { Predictor.empty with ghist := 3 } }))).core 0).pred.ghist = 0 := by decide +kernel
theorem test_cache_enable_uninitialised : bit ((after (exec (.cacheEnable 0 true true) (lev 2 0))).core 0 |>.srd 0x900) 0 = false := by decide +kernel
theorem test_iinv_initialises : bit ((after (exec (.iinv 0) (lev 2 0))).core 0 |>.srd 0x900) 8 = true := by decide +kernel
theorem test_dc_zero : (after (exec (.dcZero 0 1) (tun 0))).byte 0x2000010 = 0 := by decide +kernel
/-- A core with a range of two lines to clean. -/
def range2 : State := one (((coreAt 0 true).swr 0x100 0x2000000).swr 0x101 0x80)
theorem test_range_line : srOf (.rangeOperationLine 0) (after (exec (.rangeClean 0) range2)) 0x100 = 0x2000040 ∧
    srOf (.rangeOperationLine 0) (after (exec (.rangeClean 0) range2)) 0x101 = 0x40 := by decide +kernel

/-- A translation of one page of an address space. -/
def page1 (asid : Nat) (glob : Bool) : TlbEntry :=
  { regime := .uk, vmid := 0, asid := asid, glob := glob, size := 12, page := 5, frame := 0x2000, ipa := 5, rtype := .cached, ur := true, uw := true, ux := true,
    pr := true, pw := true, px := true, en := true, s2r := true, s2w := true, s2x := true }
/-- A core at K with two translations of page 5 and g1 naming the page in address space 3. -/
def tlb2 : State := one { (coreAt 1 true).setG 1 0x0003000000005000 with tlb := [page1 3 false, page1 4 false] }
theorem test_tlbi_va : ((after (exec (.tlbiVa 0 1) tlb2)).core 0).tlb = [page1 4 false] := by decide +kernel
theorem test_tlbi_asid : ((after (exec (.tlbiAsid 0 1) (one { (coreAt 1 true).setG 1 4 with tlb := [page1 3 false, page1 4 false, page1 4 true] }))).core 0).tlb =
    [page1 3 false, page1 4 true] := by decide +kernel
theorem test_tlbi_all : ((after (exec (.tlbiAll 0) (one { coreAt 2 true with tlb := [page1 3 false] }))).core 0).tlb = [] := by decide +kernel

/-- A walk's read of a table entry, which leaves the state alone. -/
def walkReads (s : State) (a : Nat) (d : W64) : Bool :=
  match s.walkRead 0 ((s.core 0).tagAt 0 0) false a with
  | (t, .ok v) => decide (t = s) && decide (v = d)
  | _ => false
/-- Four tables in Tun that map virtual page 0 to Tun's first page, readable at U, with translation on for K and U. -/
def walker : State :=
  { one ((coreAt 0 true).swr 0x4C1 0x2001001) with
    mem := { cells := [(0x2001000, 3), (0x2001001, 0x20), (0x2001003, 2), (0x2002000, 3), (0x2002001, 0x30), (0x2002003, 2), (0x2003000, 3), (0x2003001, 0x40),
                       (0x2003003, 2), (0x2004000, 3), (0x2004001, 2), (0x2004003, 2)], poisoned := [], away := [], awayPoison := [], lines := [] } }
theorem test_walk : okOf (walker.translate 0 0 .load 0x123).2 = some (0x2000123, .cached) ∧ errOf (walker.translate 0 0 .store 0x123).2 = some .prm ∧
    errOf (walker.translate 0 0 .load 0x8000000000).2 = some .trf := by decide +kernel

theorem witness_SystemRegisters : (lev 0 0).calm 0 = true ∧ ((lev 0 0).core 0).lvl < 0x480 / 1024 ∧ srAssigned 0x3FF = false ∧ 0x3FF / 1024 ≤ ((lev 0 0).core 0).lvl ∧
    (one (coreAt 0 false)).calm 0 = true ∧ ((one (coreAt 0 false)).core 0).fpe = false ∧ (lev 3 0).calm 0 = true ∧ 0xCC0 / 1024 ≤ ((lev 3 0).core 0).lvl ∧
    ((lev 3 0).core 0).fpe = true := by decide +kernel
theorem witness_CacheMaintenance : (lev 2 0).calm 0 = true ∧ (lev 2 0).canonical = true ∧ (tun 1).canonical = true ∧ 2 ≤ ((lev 2 0).core 0).lvl ∧ ((lev 2 0).core 0).sbuf = [] ∧
    (tun 0).calm 0 = true ∧ (tun 1).calm 0 = true ∧ ((tun 1).core 0).sbuf = [] ∧ (tun 1).mem.lines = [] ∧ (tun 1).plain 0 true 0x2000010 1 = true ∧
    (tun 1).plain 0 false 0x2000010 1 = true ∧ (tun 1).plain 0 true 0x2000000 64 = true ∧ inCask 0x2000010 = false ∧ cask.plain 0 true 0x1000010 1 = true ∧
    range2.calm 0 = true ∧ (range2.core 0).rangeBusy = false ∧ (range2.core 0).srd 0x101 ≠ 0 ∧
    (after (exec (.rangeClean 0) range2)).calm 0 = true ∧ ((after (exec (.rangeClean 0) range2)).core 0).rangeBusy = true ∧
    (after (exec (.rangeClean 0) range2)).plainAt 0 0 false 0x2000000 1 = true := by decide +kernel
theorem witness_TranslationInvalidation : tlb2.calm 0 = true ∧ (tlb2.core 0).lvl = 1 ∧ (lev 0 0).calm 0 = true ∧ ((lev 0 0).core 0).lvl = 0 ∧ (lev 2 0).calm 0 = true ∧
    ((lev 2 0).core 0).lvl = 2 ∧ (lev 3 0).calm 0 = true ∧ ((lev 3 0).core 0).lvl = 3 := by decide +kernel
theorem witness_IdentityTranslation : ((lev 0 0).core 0).half 0 0xFFFFFFFFFFF = some 0 ∧ ((lev 0 0).core 0).half 3 0x100000000000 = some 0 ∧ bit (0 : W64) 0 = false ∧
    bit (((lev 0 0).core 0).srd 0x8C1) 0 = false := by decide +kernel
theorem witness_FourLevelWalk : (walker.core 0).tlb = [] ∧ (walker.core 0).iTlb = [] ∧ (walker.core 0).dTlb = [] ∧ (walker.core 0).walks = [] ∧ (walker.core 0).half 0 0x123 = some 0x2001001 ∧ bit ((walker.core 0).srd 0x8C1) 0 = false ∧
    walkReads walker 0x2001000 0x2002003 = true ∧ walkReads walker 0x2002000 0x2003003 = true ∧
    walkReads walker 0x2003000 0x2004003 = true ∧ walkReads walker 0x2004000 0x2000203 = true ∧
    fld (0x2002003 : W64) 1 0 = 3 ∧ fld (0x2000203 : W64) 1 0 = 3 ∧ bit (0x2000203 : W64) 9 = true ∧ bit (0x2000203 : W64) 10 = false ∧
    walkReads walker 0x2001008 0 = true := by decide +kernel

/-! ## Waits, exceptions, gates and interrupts -/

/-- A core with one buffered store, one with a buffered Device store, one with EVENT.PEND set. -/
def buffered : State := one { coreAt 1 true with sbuf := [{ pa := 0x2000000, bytes := [(0x2000000, 1)], rtype := .cached, va := 0x2000000, lvl := 1, tag := (coreAt 1 true).tag 0, sent := false }] }
def device : State := one { coreAt 1 true with sbuf := [{ pa := 0x10000000, bytes := [(0x10000000, 1)], rtype := .devStrict, va := 0x10000000, lvl := 1, tag := (coreAt 1 true).tag 0, sent := false }] }
def pended : State := one ((coreAt 1 true).swr 0x1C1 1)
/-- The wait of the core after an instruction. -/
def waitOf (i : Instr) (s : State) : Wait := ((after (exec i s)).core 0).wait
theorem test_fence_c_waits_for_device : waitOf (.fenceC 0) device = .barrier 0 ∧ waitOf (.fenceC 0) buffered = .none ∧ waitOf (.fenceS 0) buffered = .barrier 2 := by decide +kernel
theorem test_wev : waitOf (.wev 0) pended = .none ∧ srOf (.wev 0) pended 0x1C1 = 0 ∧ waitOf (.wev 0) (lev 1 0) = .wev := by decide +kernel
theorem test_wtu : waitOf (.wtu 0 1) (lev 1 5) = .wtu 1 5 ∧ waitOf (.wtu 0 1) (lev 1 0) = .none := by decide +kernel
theorem test_sev_core : srOf (.sev 0 0) (lev 1 0) 0x1C1 = 1 ∧ srOf (.sev 0 3) (lev 1 0) 0x1C1 = 0 := by decide +kernel
theorem test_idle_entry : ((after (exec (.idleEntry 0) (one { (coreAt 1 true).swr 0x601 2 with wait := .wev }))).core 0).sleep = .doze := by decide +kernel

theorem witness_BarriersAndEvents : (lev 1 0).calm 0 = true ∧ ((lev 1 0).core 0).sbuf = [] ∧ (lev 1 0).unacknowledged 0 = false ∧ ((lev 1 0).core 0).rangeBusy = false ∧ buffered.calm 0 = true ∧ (buffered.core 0).sbuf ≠ [] ∧ device.calm 0 = true ∧
    ((device.core 0).sbuf.all (fun e => e.rtype == .cached || e.rtype == .uncached)) = false ∧ (lev 1 0).boot.booted = none ∧ (lev 1 0).online 5 = true := by decide +kernel
theorem witness_Waits : pended.calm 0 = true ∧ (pended.core 0).event = true ∧ (lev 1 5).calm 0 = true ∧ ((lev 1 5).core 0).event = false ∧ (lev 1 5).pendingInterrupt 0 = false ∧
    (lev 1 5).clk.etc < 5 ∧ ((lev 1 5).core 0).sbuf = [] ∧ fld (((lev 1 5).core 0).srd 0x601) 1 0 = 0 ∧
    (one ((coreAt 1 true).swr 0x601 1)).calm 0 = true ∧ fld (((one ((coreAt 1 true).swr 0x601 1)).core 0).srd 0x601) 1 0 = 1 ∧
    (one ((coreAt 1 true).swr 0x601 3)).calm 0 = true ∧ 2 ≤ fld (((one ((coreAt 1 true).swr 0x601 3)).core 0).srd 0x601) 1 0 := by decide +kernel

/-- A core at U with a vector table and a stack for K in Tun; the entries of vectors 1 and 0x12 give handlers 0x100 and 0x204. -/
def vectors (lvl : Nat) (fh : Bool) : State :=
  { one ({ (((coreAt lvl true).swr (0x480 + (lvl - 1) * 0x400) 0x2000200).swr 0x482 0x2001000) with
      stat := statWord lvl 15 fh true, spK := 0x2002000, spH := 0x2002000, spM := 0x2002000, pc := 0x44 } : Core) with
    mem := { cells := [(0x2000209, 1), (0x2000290, 4), (0x2000291, 2)], poisoned := [], away := [], awayPoison := [], lines := [] } }
theorem test_brk_entry : ((after (exec (.brk 0 5) (vectors 0 false))).core 0).pc = 0x204 ∧ ((after (exec (.brk 0 5) (vectors 0 false))).core 0).lvl = 1 ∧
    ((after (exec (.brk 0 5) (vectors 0 false))).core 0).spK = 0x2001FF0 ∧ ((after (exec (.brk 0 5) (vectors 0 false))).core 0).fh = true := by decide +kernel
/-- ERET after the entry comes back to the BRK, at U with FPE set. -/
theorem test_eret_back : pcOf (.eret 0) (after (exec (.brk 0 5) (vectors 0 false))) = 0x44 ∧
    ((after (exec (.eret 0) (after (exec (.brk 0 5) (vectors 0 false))))).core 0).stat = statWord 0 15 false true := by decide +kernel
theorem test_undefined_vector : pcOf (.sev 0 3) (vectors 0 false) = 0x100 := by decide +kernel
theorem test_eret_privileged : ((after (exec (.eret 0) (vectors 0 false))).core 0).lvl = 1 := by decide +kernel
theorem test_check_stop : ((after (exec (.brk 0 5) (one { coreAt 3 true with stat := statWord 3 15 true true, emgM := true }))).core 0).checkStopped = true := by decide +kernel

theorem witness_ExceptionIsTaken : (vectors 0 false).calm 0 = true ∧ ((vectors 0 false).core 0).sbuf = [] ∧ ((vectors 0 false).core 0).fh = false ∧
    (vectors 0 false).plainAt 0 1 false 0x2000290 8 = true ∧ (vectors 0 false).plainAt 0 1 true 0x2001FF0 8 = true ∧ (vectors 0 false).plainAt 0 1 true 0x2001FF8 8 = true ∧
    (0x2001FF0 % 16 = 0) ∧ (((vectors 0 false).core 0).srd 0x482).toNat ≤ 0x2001FF0 ∧ 16 ≤ ((vectors 0 false).core 0).spK.toNat ∧ (vectors 0 false).mHeld 0 = false := by decide +kernel
theorem witness_ExceptionsAreRaised : (vectors 0 false).calm 0 = true ∧ ((vectors 0 false).core 0).lvl < 2 ∧ ((vectors 0 false).core 0).itr = false ∧
    ((vectors 1 true).core 0).fh = true ∧ ((vectors 1 true).core 0).lvl = 1 ∧ ((vectors 1 true).core 0).itr = false ∧ ((vectors 3 true).core 0).lvl = 3 ∧
    ((one { coreAt 3 true with stat := statWord 3 15 true true, emgM := true }).core 0).emgM = true := by decide +kernel

/-- A core at U with a gate table for K in Tun: entry 0 leads to 0x300, is valid, and may be called from U. -/
def gates : State :=
  { one { ((coreAt 0 true).swr 0x481 0x2000000).swr 0x482 0x2001000 with spK := 0x2002000, pc := 0x40 } with
    mem := { cells := [(0x2000001, 3), (0x2000008, 3)], poisoned := [], away := [], awayPoison := [], lines := [] } }
theorem test_gate : ((after (exec (.gate 0 1 0) gates)).core 0).pc = 0x300 ∧ ((after (exec (.gate 0 1 0) gates)).core 0).lvl = 1 ∧
    ((after (exec (.gate 0 1 0) gates)).core 0).spK = 0x2001FF0 ∧ ((after (exec (.gate 0 1 0) gates)).core 0).fpe = true := by decide +kernel
theorem test_gret_back : pcOf (.gret 0) (after (exec (.gate 0 1 0) gates)) = 0x44 ∧ ((after (exec (.gret 0) (after (exec (.gate 0 1 0) gates)))).core 0).lvl = 0 := by decide +kernel
theorem witness_GateEnters : gates.calm 0 = true ∧ (gates.core 0).sbuf = [] ∧ (gates.core 0).lvl < 1 ∧ (∀ i, i < 4 → gates.plainAt 0 1 false (0x2000000 + BitVec.ofNat 64 (8 * i)) 8 = true) ∧
    gates.plainAt 0 1 true 0x2001FF0 8 = true ∧ gates.plainAt 0 1 true 0x2001FF8 8 = true ∧ gates.number 0x2000000 8 = 0x300 ∧ gates.number 0x2000008 8 = 3 ∧
    gates.number 0x2000018 8 = 0 ∧ (((gates.core 0).srd 0x482).toNat ≤ 0x2001FF0) ∧ (lev 1 0).calm 0 = true ∧ (1 ≤ ((lev 1 0).core 0).lvl) ∧
    ((one (coreAt 0 true)).setRb Reg.SYSCTL_SRSTAT.at 31 true).mHeld 0 = true ∧ ((one (coreAt 0 true)).setRb Reg.SYSCTL_SRSTAT.at 31 true).calm 0 = true := by decide +kernel
/-- A core at K with frames on its stack: back to U, to H, and to no word's address. -/
def framed (pc : Byte) (img : Byte) : State :=
  { one { coreAt 1 true with spK := 0x2000000 } with mem := { cells := [(0x2000000, pc), (0x2000008, img)], poisoned := [], away := [], awayPoison := [], lines := [] } }
theorem witness_Returns : (framed 0x40 0xF0).calm 0 = true ∧ (framed 0x40 0xF0).plain 0 false 0x2000000 8 = true ∧ (framed 0x40 0xF0).plain 0 false 0x2000008 8 = true ∧
    (framed 0x40 0xF0).number 0x2000000 8 = 0x40 ∧ (framed 0x40 0xF0).number 0x2000008 8 = 0xF0 ∧ (framed 0x40 0xF2).calm 0 = true ∧ (framed 0x40 0xF2).number 0x2000008 8 = 0xF2 ∧
    (framed 0x41 0xF0).calm 0 = true ∧ (framed 0x41 0xF0).number 0x2000000 8 = 0x41 ∧ (one (coreAt 0 true)).calm 0 = true := by decide +kernel

/-- A core at U with private source 3 enabled at priority 5, level K, and pending, with a vector table and a stack for K. -/
def ringing : State :=
  ((((({ one { (coreAt 0 true).swr 0x480 0x2000000 with stat := statWord 0 2 false true, spK := 0x2002000, pc := 0x44 } with
      mem := { cells := [(0x2000129, 5)], poisoned := [], away := [], awayPoison := [], lines := [] } }).setRb Reg.INTD_CTL.at 0 true).setRf (Reg.INTD_PCFG.at 0 2) 3 0 5).setRf
      (Reg.INTD_PCFG.at 0 2) 25 24 1).setRb (Reg.INTD_PCFG.at 0 2) 9 true).setRb (Reg.INTD_PSTAT.at 0 2) 0 true
theorem test_interrupt_entry : ((after (exec (.interruptEntry 0) ringing)).core 0).pc = 0x500 ∧ ((after (exec (.interruptEntry 0) ringing)).core 0).mlv = 5 ∧
    (after (exec (.interruptEntry 0) ringing)).rf (Reg.INTD_PSTAT.at 0 2) 1 0 = 2 ∧ (after (exec (.interruptEntry 0) ringing)).rpsDepth 0 = 1 := by decide +kernel
theorem test_edge_merges : (State.reset.setRb (Reg.INTD_SSTAT.at 7) 0 true) |> (fun s => (after (exec (.edgeEvent 0 7) s)).rf (Reg.INTD_SSTAT.at 7) 2 0) |> (· = 5) := by decide +kernel
theorem test_level_line : (after (exec (.levelLine (.shared 7) true .ok) State.reset)).rb (Reg.INTD_SSTAT.at 7) 4 = true := by decide +kernel
theorem test_csig : (after (exec (.csig (.core 0) 0x00010003) (lev 1 0))).rb (Reg.INTD_PSTAT.at 1 19) 0 = true := by decide +kernel
/-- The handler's core at K, completing source 1026 from g1, and a wrong source. -/
def handling (v : W64) : State := (after (exec (.interruptEntry 0) ringing)).modCore 0 (fun k => k.setG 1 v)
theorem test_ieoi : (after (exec (.ieoi 0 1) (handling 0x402))).rpsDepth 0 = 0 ∧ (after (exec (.ieoi 0 1) (handling 0x402))).rb (Reg.INTD_PSTAT.at 0 2) 1 = false := by decide +kernel
theorem test_ieoi_mismatch : (after (exec (.ieoi 0 1) (handling 0x404))).rb (Reg.INTD_PSTAT.at 0 15) 0 = true := by decide +kernel

theorem witness_InterruptsArePended : State.reset.rb (Reg.INTD_SSTAT.at 1023) 0 = false ∧ (State.reset.setRb (Reg.INTD_SSTAT.at 1023) 0 true).rb (Reg.INTD_SSTAT.at 1023) 0 = true ∧
    State.reset.rb (Reg.INTD_SCFG.at 1023) 8 = false ∧ (State.reset.setRb (Reg.INTD_SCFG.at 1023) 8 true).rb (Reg.INTD_SCFG.at 1023) 8 = true ∧
    State.reset.rb (Reg.PINMUX_PAD.at 95) 31 = false ∧ (lev 1 0).levelSource 7 = false ∧ (lev 1 0).allSw (Reg.INTD_SSTAT.at 7) = false ∧
    ((lev 1 0).setRb (Reg.INTD_SCFG.at 7) 31 true).allSw (Reg.INTD_SSTAT.at 7) = true ∧ (((lev 1 0).setRb (Reg.INTD_SCFG.at 7) 31 true).core 0).lvl ≠ 3 ∧
    (lev 1 0).rb (Reg.INTD_PCFG.at 47 31) 31 = false ∧ fld (0x2F000F : W32) 21 16 = 47 ∧ fld (0x30000F : W32) 21 16 = 48 := by decide +kernel
theorem witness_InterruptIsTaken : ringing.runs 0 = true ∧ ringing.still 0 = true ∧ (ringing.core 0).sbuf = [] ∧
    (ringing.due 0).map (fun d => match d with | .irq a => (a.snum, a.prio, a.lvl) | _ => (0, 0, 0)) = some (1026, 5, 1) ∧ ringing.plainAt 0 1 false 0x2000128 8 = true ∧ ringing.plainAt 0 1 true 0x2001FF0 8 = true ∧
    ringing.plainAt 0 1 true 0x2001FF8 8 = true ∧ (lev 1 0).rb Reg.INTD_CTL.at 0 = false ∧ (lev 1 0).takeable 0 = none ∧ (lev 1 0).due 0 = none ∧
    (handling 0x402).calm 0 = true ∧ ((handling 0x402).core 0).lvl = 1 ∧ (handling 0x402).rpsDepth 0 = 1 ∧ fld ((handling 0x402).reg (Reg.INTD_RPS.at 0 1)) 10 0 = 0x402 ∧
    fld ((handling 0x402).reg (Reg.INTD_RPS.at 0 1)) 25 24 = 1 ∧ (lev 2 1).calm 0 = true ∧ ((lev 2 1).core 0).lvl = 2 ∧ bit (((lev 2 1).core 0).g 1) 0 = true ∧
    (lev 2 1).rpsDepth 0 = 0 ∧ (∀ i, i < 16 → bit ((lev 2 1).reg (Reg.INTD_RPS.at 0 i)) 31 = false ∨ i = 0) := by decide +kernel

/-! ## Late responses, reports, fills and register access -/

/-- A core that waits for a Device load of two bytes into g5. -/
def loading : State := one { coreAt 1 true with
  wait := .load { rt := 5, fp := false, size := 2, sext := true, device := true, va := 0x10000000, far := 0x10000000, pa := 0x10000000, known := [], base := none } }
theorem test_load_response : ((after (exec (.deviceLoadResponse 0 (.data 0x8001)) loading)).core 0).g 5 = 0xFFFFFFFFFFFF8001 := by decide +kernel
theorem test_load_timeout : ((after (exec (.deviceLoadResponse 0 .timeout) loading)).core 0).loadRep.isSome = true ∧ pcOf (.deviceLoadResponse 0 .timeout) loading = 4 := by decide +kernel
theorem test_async_report_multi : (((after (exec (.asyncBusError 0 (some ⟨true, 0x10000000, 0x10000000, 0⟩)) (after (exec (.asyncBusError 0 (some ⟨true, 0x10000000, 0x10000000, 0⟩)) (lev 1 0))))).core 0).report.map
    (fun r => (r.vec, r.multi, r.tgt))) = some (0x0B, true, 1) := by decide +kernel
theorem test_fill : ((after (exec (.l1dFill 0 0x2000000 none false .ok .ok 0) (one ((coreAt 1 true).swr 0x900 2)))).mem.copyAt 0x80000 (.l1d 0)).isSome = true := by decide +kernel

/-- A core at K with a pending report of a store, at another level, and of a Device load. -/
def reporting (lvl tgt : Nat) : State := one { coreAt lvl true with report := some ⟨0x0B, tgt, false, true, true, 0⟩ }
def loadReport : State := one { coreAt 1 true with loadRep := some ⟨0x0B, 1, false, true, false, 0⟩ }
/-- A core whose buffer holds a store to an ordinary line. -/
def wants : State := after (exec (.st 0 .w 2 1 0) (tun 1))
theorem witness_LateResponses : (lev 1 0).calm 0 = true ∧ (lev 1 0).host.reads = [] ∧ (lev 1 0).host.queue = [] ∧ (lev 1 0).relay.reqs = [] ∧ (lev 1 0).relay.queue = [] ∧
    (lev 1 0).relay.parts = [] ∧ (reporting 1 1).runs 0 = true ∧ (reporting 1 1).still 0 = true ∧ ((reporting 1 1).core 0).itr = false ∧ ((reporting 1 1).core 0).restart = none ∧
    ((reporting 1 1).core 0).loadRep = none ∧ (reporting 3 1).runs 0 = true ∧ (reporting 3 1).still 0 = true ∧ ((reporting 3 1).core 0).lvl = 3 ∧
    loadReport.runs 0 = true ∧ loadReport.still 0 = true ∧ (loadReport.core 0).loadRep.isSome = true ∧ (lev 1 0).due 0 = none ∧
    (lev 1 0).decode 0x1F000000 = .unmapped ∧ (lev 1 0).decode 0x10000000 = .regs ∧ (lev 1 0).decode 0x0 = .rom := by decide +kernel
theorem witness_CacheFills : (tun 1).calm 0 = true ∧ (tun 1).canonical = true ∧ (tun 1).plain 0 false 0x2000000 1 = true ∧ inCask 0x2000000 = false ∧
    (tun 1).admits (((tun 1).core 0).tag 0) false (0x80000 * 64) = (tun 1, none) ∧ ((tun 1).core 0).srd 0x901 = 0 ∧ (tun 1).reg (Reg.CLUSTER_L2LOCK.at 0) = 0 ∧
    (tun 1).memc.fencedWays = [] ∧ (tun 1).unallocated (.l2 0) 0x80000 = false ∧ bit ((one ((coreAt 1 true).swr 0x900 3)).core 0 |>.srd 0x900) 1 = true ∧
    wants.calm 0 = true ∧ wants.canonical = true ∧ wants.plain 0 false 0x2000000 1 = true ∧
    (wants.core 0).sbuf.map (fun e => (e.pa / 64, e.rtype)) = [(0x80000, .cached)] ∧ wants.admits ((wants.core 0).tag 0) true (0x80000 * 64) = (wants, none) := by
  decide +kernel


theorem test_register_write : (after (exec (.registerWrite (.core 0) (Reg.GPIO_DOUT.at 0) 0xA5 false) (lev 1 0))).reg (Reg.GPIO_DOUT.at 0) = 0xA5 := by decide +kernel
theorem test_w1c : (((State.reset.setReg (Reg.SYSCTL_SRSTAT.at 0) 0x40000000)).writeFields true (Reg.SYSCTL_SRSTAT.at 0) 0x40000000).reg (Reg.SYSCTL_SRSTAT.at 0) = 0 := by decide +kernel
theorem test_size_error : (after (exec (.registerSizeError (.core 0) 0x10000002 true 2) (lev 1 0))).rf (Reg.ERRREC_REC_STATUS.at 0 0) 23 8 = 0x0701 := by decide +kernel
theorem test_unmapped : (after (exec (.unmappedAccess ((coreAt 1 true).tag 0) 0x1F000000 false) (lev 1 0))).rf (Reg.ERRREC_REC_STATUS.at 0 0) 23 8 = 0x0800 := by decide +kernel
theorem test_pair_commits : (after (exec (.nameHiWrite (.core 0) Reg.AON_WAKEETC_HI.at 2) (after (exec (.nameLoWrite (.core 0) Reg.AON_WAKEETC_LO.at 7) (lev 3 0))))).reg Reg.AON_WAKEETC_LO.at = 7 ∧
    (after (exec (.nameLoWrite (.core 0) Reg.AON_WAKEETC_LO.at 7) (lev 3 0))).reg Reg.AON_WAKEETC_LO.at = resetAt Reg.AON_WAKEETC_LO.at := by decide +kernel

theorem witness_FieldsByAccessCode : ((regAt Reg.AON_WAKECFG.at).map (fun d => d.fields.all (fun x => decide (x.lo ≤ x.hi) && decide (x.hi < 32)))) = some true ∧
    State.reset.allSw Reg.AON_WAKECFG.at = false ∧ ((regAt Reg.SYSCTL_SRCTL.at).map (fun d => d.fields.map (fun f => (f.acc, f.sw, f.lo)))) = some [(.rwl, true, 1), (.w1s, false, 0)] ∧
    ((regAt Reg.SYSCTL_SRSTAT.at).map (fun d => d.fields.map (fun f => f.acc))) = some [.ro, .w1c, .ro, .ro] := by decide +kernel
theorem witness_RegisterWrites : Reg.GPIO_DOUT.holds (Reg.GPIO_DOUT.at 0) ∧ State.reset.allSw (Reg.GPIO_DOUT.at 0) = false ∧ (blockOf 0x10000002).isSome = true ∧
    blockOf 0x1F000000 = none ∧ ((lev 3 0).core 0).lvl = 3 ∧ (Reg.GPIO_DOUT.at 0) % 4 = 0 := by decide +kernel

/-! ## Errors, sparing and memory tiers -/

/-- A Deferred record of bank 5 with an address. -/
def deferred5 : ErrRec := { bank := 5, unit := 1, code := 8, sev := .deferred, addr := some 0x2000000 }
def corrected5 : ErrRec := { deferred5 with sev := .corrected }
/-- Bank 5 with all its slots taken by Deferred records. -/
def fullBank : State := (List.range 16).foldl (fun s _ => s.record deferred5) State.reset
theorem test_record_slot : (State.reset.record deferred5).rf (Reg.ERRREC_REC_STATUS.at 5 0) 23 0 = 0x080103 ∧ (State.reset.record deferred5).rb Reg.ERRREC_SUMMARY_LO.at 5 = true := by decide +kernel
theorem test_record_overflow : (fullBank.record deferred5).rf (Reg.ERRREC_BANK_OVFCNT.at 5) 15 0 = 1 ∧ (fullBank.record deferred5).rb (Reg.ERRREC_BANK_STATUS.at 5) 8 = true := by decide +kernel
theorem test_record_merges : ((State.reset.record corrected5).record corrected5).rf (Reg.ERRREC_BANK_STATUS.at 5) 4 0 = 1 ∧
    ((State.reset.record corrected5).record corrected5).rb (Reg.ERRREC_REC_STATUS.at 5 0) 5 = true := by decide +kernel
theorem test_slot_free : (after (exec (.recordSlotFree (.core 0) 5 0) ({ State.reset.record deferred5 with cores := [(0, coreAt 1 true)] }))).rf (Reg.ERRREC_BANK_STATUS.at 5) 4 0 = 0 := by decide +kernel
theorem test_fatal_sequence : (after (exec (.fatalSequence none) { State.reset with fatalDue := true, errOut := false })).errOut = true ∧
    (after (exec (.fatalSequence none) { State.reset with fatalDue := true })).rb Reg.CSS_STAT.at 1 = true := by decide +kernel

theorem witness_ErrorRecordsAndFatalSequence : State.reset.freeSlot 5 = some 0 ∧ fullBank.freeSlot 5 = none ∧ ((State.reset.record corrected5).mergeSlot corrected5).isSome = true ∧
    ((one (coreAt 1 true)).designated false) = some 0 ∧ ((lev 1 0).core 0).lvl ≠ 3 ∧ ((lev 3 0).core 0).lvl = 3 ∧ State.reset.css.ops = [] ∧
    State.reset.css.subs = [] ∧ State.reset.fatalDue = false ∧ { State.reset with fatalDue := true }.fatalDue = true ∧ (State.reset.setRb Reg.CSS_STAT.at 1 true).rb Reg.CSS_STAT.at 1 = true ∧
    ((State.reset.setRb Reg.CSS_STAT.at 1 true).setRb Reg.ERRREC_FATALCTL.at 16 true).rb Reg.ERRREC_FATALCTL.at 16 = true ∧ State.reset.stopped = false := by decide +kernel

/-- A core with sparing enabled, and the same with a budget that its retries have used up. -/
def sparable : State := (lev 1 0).setRb (Reg.CLUSTER_SPARECTL.at 0) 0 true
def spent : State := (one { coreAt 1 true with retries := 7 }).setRb (Reg.CLUSTER_SPARECTL.at 0) 0 true
def triggered : State := after (exec (.instructionRetry 0 0x20 3 none none false 0) spent)
theorem test_retry : ((after (exec (.instructionRetry 0 0x20 3 none none false 0) sparable)).core 0).retries = 1 ∧ (Sparse.get [] triggered.spare 0).length = 1 := by decide +kernel
theorem test_sparing : (after (exec (.sparing 0 true true true 0) triggered)).slotOf 0 = 6 ∧ ((after (exec (.sparing 0 true true true 0) triggered)).core 0).srd 0x980 = 1 := by decide +kernel
theorem test_core_loss : (after (exec (.coreLoss 0 0) (after (exec (.sparing 0 false true true 0) triggered)))).online 0 = false := by decide +kernel
def eager : State := (sparable.setRf (Reg.CLUSTER_SPARECTL.at 0) 23 16 1).modCore 0 (fun k => { k with retryEtc := List.replicate 16 0 })
theorem witness_RetryAndSparing : sparable.working 0 = true ∧ sparable.memc.marks = [] ∧ detectedCode 0x20 3 = true ∧ 0x20 ∉ [0x05, 0x08, 0x2A] ∧ ((1 : Nat) % 2 ^ 120 ≠ 0) ∧ (sparable.core 0).retries < max 1 (sparable.rf (Reg.CLUSTER_SPARECTL.at 0) 10 8) ∧
    spent.working 0 = true ∧ max 1 (spent.rf (Reg.CLUSTER_SPARECTL.at 0) 10 8) ≤ (spent.core 0).retries ∧ spent.rb (Reg.CLUSTER_SPARECTL.at 0) 0 = true ∧
    spent.rf (Reg.CLUSTER_SPARESTAT.at 0) 1 0 = 0 ∧ ((lev 1 0).setRb (Reg.CLUSTER_SPARECTL.at 0) 0 false).rb (Reg.CLUSTER_SPARECTL.at 0) 0 = false ∧ (lev 1 0).rf (Reg.CLUSTER_SPARECTL.at 0) 23 16 = 0 ∧
    eager.working 0 = true ∧ 16 * eager.rf (Reg.CLUSTER_SPARECTL.at 0) 23 16 ≤
      ((eager.core 0).retryEtc.filter (fun x => decide (x ≤ eager.clk.etc) && decide ((eager.clk.etc - x).toNat ≤ 1000000))).length := by decide +kernel
theorem witness_SparingAndCoreLoss : triggered.online 0 = true ∧ (Sparse.get [] triggered.spare 0).map (fun t => (t.core, t.loss)) = [(0, none)] ∧ (triggered.core 0).sbuf = [] ∧
    (triggered.core 0).inDeviceLoad = false ∧ (triggered.core 0).late = [] ∧ triggered.rb (Reg.DEBUG_CORECTL.at 0) 30 = false ∧
    (Sparse.get [] (after (exec (.sparing 0 false true true 0) triggered)).spare 0).map (fun t => (t.core, t.loss)) = [(0, some 1)] := by decide +kernel

theorem test_qtier_invalid : exec (.qtierWrite (.core 0) 0x3F4100) (lev 3 0) = .next (lev 3 0) := by rfl
theorem test_wipe : (after (exec (.wipe (.core 0)) { lev 3 0 with mem := { cells := [(0x1000000, 5)], poisoned := [], away := [], awayPoison := [], lines := [] } })).mem.cells = [] := by decide +kernel
theorem test_train_invalid : (after (exec (.trainInvalidMode 3) State.reset)).rb (ctrlBase 3 + 0x10) 29 = true := by decide +kernel
theorem test_sram_bank_fence : (after (exec (.sramBankFence false 31) State.reset)).decode 0x2F80000 = .unmapped ∧ (after (exec (.sramBankFence false 30) State.reset)).decode 0x2F80000 ≠ .unmapped := by
  decide +kernel
/-- A dirty line of cluster 0's L2. -/
def dirtyL2 : State :=
  { lev 1 0 with mem := { cells := [], poisoned := [], away := [], awayPoison := [], lines := [(0x80000, { l1 := none, dirty := some (List.replicate 64 7), owner := some 0, poison := false, copies := [⟨.l2 0, 3, false, 0, false⟩] })] } }
theorem test_l2op_clean : (after (exec (.l2opClean (.core 0) 0) dirtyL2)).mem.cell 0x2000000 = 7 ∧ (after (exec (.l2opClinv (.core 0) 0) dirtyL2)).mem.lines = [] := by decide +kernel
theorem test_scrub_poisons : (after (exec (.cacheScrub (.l2 0) .data 0x80000 .uncorrectable) dirtyL2)).mem.poisonAt 0x2000000 = true := by decide +kernel
/-- Ordinary premises of the memory tiers: unlocked and locked tiers, present channels, a spare row, tampers armed. -/
theorem witness_MemoryTiers : (lev 3 0).rb Reg.MEMC_QTIER.at 31 = false ∧ ((lev 3 0).setRb Reg.MEMC_QTIER.at 31 true).rb Reg.MEMC_QTIER.at 31 = true ∧
    (lev 3 0).rb Reg.MEMC_DTIER.at 31 = false ∧ ((lev 3 0).setRb Reg.MEMC_DTIER.at 31 true).rb Reg.MEMC_DTIER.at 31 = true ∧ fld (0x3F4000 : W32) 21 16 ≠ 0 ∧ fld (0x3F4000 : W32) 15 8 = 64 ∧
    (List.range 16).countP (fun i => (0xF01 : W32).getLsbD (8 + i)) = 4 ∧ fld (0xF01 : W32) 7 0 = 1 ∧ ((lev 3 0).setRb Reg.MEMC_DTIER.at 8 true).rb Reg.MEMC_DTIER.at 8 = true ∧
    (lev 3 0).decode 0x2000000 = .tier 22 0 ∧ (lev 3 0).decode 0x1000000 = .tier 23 0 ∧ (lev 3 0).memc.applied = false ∧ (lev 1 0).wayFenced (.l2 0) 15 = false ∧
    (dirtyL2.mem.copyAt 0x80000 (.l2 0)).isSome = true ∧ (dirtyL2.mem.line 0x80000).dirty = some (List.replicate 64 7) ∧ ((lev 1 0).mem.copyAt 0x80000 (.l2 0)).isSome = false ∧
    (lev 1 0).lossAddr 0 = none ∧ (lev 1 0).sealedLossAddr 0 = none ∧ (lev 1 0).rb (bankStat false 31) 31 = false ∧ (lev 1 0).rf (bankStat false 31) 11 8 = 0 ∧
    0 < (lev 1 0).rf (bankStat false 31) 15 12 ∧ ((lev 1 0).setRf (bankStat false 31) 3 0 15).rf (bankStat false 31) 15 12 ≤ 15 ∧ (lev 3 0).clk.power = .run ∧ dirtyL2.canonical = true ∧ dirtyL2.memc.marks = [] ∧ (dirtyL2.mem.line 0x80000).owner = some 0 ∧
    (dirtyL2.mem.line 0x80000).l1 = none ∧ (lev 3 0).mem.wf = true ∧ dtierOk 0xF01 = true ∧
    qtierLoc 0x3F4000 0 = some 0 ∧ nfld (lev 1 0).memc.fencedClusters 0 0 = 0 ∧ (lev 3 0).rf (ctrlBase 0) 15 8 = 0 := by decide +kernel

/-! ## Channel subsystem and ledger -/

/-- A core at a level, the CSS enabled with its records and its ledger in Tun, path 0 ONLINE; the record of subchannel 0 and ring pair 1's of 16 entries in memory. -/
def css (lvl : Nat) : State :=
  { ((((lev lvl 0).setReg Reg.CSS_SCBASE_LO.at 0x2000000).setReg Reg.CSS_RCBASE_LO.at 0x2040000).setRb Reg.CSS_CTL.at 0 true).setRf (Reg.ADPT_PATHSTAT.at 0) 1 0 1 with
    mem := { cells := [(0x2000000, 1), (0x2000018, 1), (0x2040040, 1), (0x2040042, 0x44), (0x2040049, 0x10), (0x204004B, 2)], poisoned := [], away := [], awayPoison := [], lines := [] }
    css := { CssUnit.reset with base := 0x2080000, fresh := false } }

/-- A CCD of a command with PARAM, flags and ARG. -/
def ccd (cmd param flags arg : Nat) : Ccd := { w0 := cmd + flags * 256 + param * 65536, count := if 8 ≤ cmd then 16 else 0, addr := 0x2001000, arg := arg, aux := 0, w7 := 0 }

/-- An enabled subchannel in a state with slots in its queue, on path 0 with every command admitted. -/
def chanOf (st : ScState) (q : List Nat) : SubCh := { SubCh.empty with st := st, cfg := 0x0FFFFF01, paths := 0xFFFFFF00, auth := 2 ^ 64 - 1, timeout := 1, queue := q }

/-- Slot 3 holds the one operation of subchannel 0: at a phase, with one CCD. -/
def chan (st : ScState) (ph : OpPhase) (c : Ccd) : State :=
  let s := css 1
  { s with css := { s.css with
      subs := [(0, chanOf st [3])], ops := [(3, some { Op.start 0x2001400 with chain := [c], nread := 1, phase := ph })],
      slots := [(3, { Slot.empty with st := if ph == .handed then 3 else 2, subch := 0, ring := 1 })], rings := [(1, { RingPair.empty with enabled := true, cfg := 0x440001, reserved := 1 })] } }

/-- The state with one subchannel without operations. -/
def still (st : ScState) : State := let s := css 1; { s with css := { s.css with subs := [(0, chanOf st [])] } }

/-- RESULT of CSS.CMD after a command, with GO. -/
def resultOf (i : Instr) (s : State) : Nat × Bool := ((after (exec i s)).rf Reg.CSS_CMD.at 30 28, (after (exec i s)).rb Reg.CSS_CMD.at 31)
/-- STATUS of a slot after a command: the byte of its CQ record. -/
def slotAfter (i : Instr) (s : State) : Nat := ((after (exec i s)).slot 3).st

theorem test_sc_enable : resultOf (.scEnable (.core 0) 0) (css 1) = (0, false) ∧ ((after (exec (.scEnable (.core 0) 0) (css 1))).sub 0).gen = 1 := by decide +kernel
theorem test_sc_enable_twice : resultOf (.scEnable (.core 0) 0) (still .idle) = (1, false) ∧ resultOf (.badop (.core 0) 6 0) (css 1) = (7, false) := by decide +kernel
theorem test_sc_abort : resultOf (.scAbort (.core 0) 0) (chan .active .ready (ccd 0 0 0 0)) = (0, false) ∧ slotAfter (.scAbort (.core 0) 0) (chan .active .ready (ccd 0 0 0 0)) = 4 := by decide +kernel
theorem test_nop_ends : slotAfter (.ccdNop 0) (chan .active .ready (ccd 0 0 0 0)) = 4 ∧ ((after (exec (.ccdNop 0) (chan .active .ready (ccd 0 0 0 0)))).sub 0).st = .idle := by decide +kernel
theorem test_write_handed : slotAfter (.ccdWrite 0) ((chan .active .ready (ccd 9 0 0 0)).setRb (Reg.ADPT_PAUTH_LO.at 0) 0 true) = 3 ∧
    slotAfter (.ccdWrite 0) ((chan .active .ready (ccd 9 0 0 0)).setRb (Reg.ADPT_PAUTH_LO.at 0) 0 false) = 4 := by decide +kernel
theorem test_rp_enable : ((after (exec (.rpEnable (.core 0) 1) (css 1))).ring 1).sqBase = 0x2001000 ∧ ((after (exec (.rpEnable (.core 0) 1) (css 1))).ring 1).sqSize = 16 := by decide +kernel

theorem witness_SubchannelCommands : (css 1).rb Reg.CSS_CMD.at 31 = false ∧ (css 1).canonical = true ∧ (css 1).css.faults = [] ∧ (css 1).css.ops = [] ∧ (css 1).css.subs = [] ∧ (css 1).admits cssTag true ((css 1).subRecord 0 + 0x20) = (css 1, none) ∧
    (css 1).subRecord 0 < 2 ^ 40 ∧ (css 1).admits cssTag false ((css 1).subRecord 0) = (css 1, none) ∧ (css 1).mem.poisonAt ((css 1).subRecord 0) = false ∧
    subRecordBad ((css 1).bytes 0x2000000 64) = false ∧ subRecordBad ((css 1).bytes 0x2000040 64) = true ∧ ((still .idle).sub 0).st = .idle ∧ ((still .idle).sub 0).world = false ∧
    (still .idle).pathUp (((still .idle).sub 0).pathAt 0) = true ∧ (still .idle).pathUp (((still .idle).sub 0).pathAt 3) = false ∧ (still .active).css.ops = [] ∧
    ((chan .active .handed (ccd 0 0 0 0)).slot 3).subch = 0 ∧ (chan .active .handed (ccd 0 0 0 0)).css.log = [] ∧ ((chan .active .handed (ccd 0 0 0 0)).sub 0).queue = [3] ∧
    (chan .active .handed (ccd 0 0 0 0)).admits cssTag true 0x2000020 = (chan .active .handed (ccd 0 0 0 0), none) := by decide +kernel

/-- Ring pair 1 with an SQ of 16 entries at 0x2004000 whose first entry names subchannel 0 and the CCD at 0x2001400 (a NOP), a counter set, and subchannel 0 in a state. -/
def ringOf (st : ScState) (tail head : Nat) : State :=
  let s := ((css 1).setRf (Reg.CSS_LCNT.at 0) 13 0 8192).setRb Reg.HOSTEP_LINKSTAT.at 0 true
  { s with
    host := { HostEp.reset with fns := [(0, { HostFn.reset with mse := true })] }
    mem := { cells := [(0x2004003, 0xA0), (0x2004005, 0x10)], poisoned := [], away := [], awayPoison := [], lines := [] }
    css := { s.css with subs := [(0, chanOf st [])].filter (fun _ => st != .disabled)
                        rings := [(1, { RingPair.empty with enabled := true, cfg := 0x440001, sqBase := 0x2004000, sqTail := tail, sqHead := head, cqTail := 2, cqNext := 2, cqHead := 0 })] } }
/-- A completed slot at position 1 of the pair. -/
def answered : State := let s := ringOf .disabled 0 0; { s with css := { s.css with slots := [(3, { Slot.empty with st := 4, ring := 1, pos := 1 })] } }
/-- Ring pair 0x400 with an interrupt vector, with CQ records since a time; its own record is not used. -/
def coalescing : State := let s := css 1; { s with css := { s.css with rings := [(0x400, { RingPair.empty with enabled := true, intr := 0x8005, since := 1 })] } }

theorem test_sq_tail : ((after (exec (.sqTailWrite (.core 0) 1 16) (ringOf .idle 0 0))).ring 1).sqTail = 16 ∧ ((after (exec (.sqTailWrite (.core 0) 1 17) (ringOf .idle 0 0))).ring 1).fenced = true := by decide +kernel
theorem test_cq_head : ((after (exec (.cqHeadWrite (.core 0) 1 2) answered)).slot 3).st = 0 ∧ ((after (exec (.cqHeadWrite (.core 0) 1 1) answered)).slot 3).st = 4 ∧
    ((after (exec (.cqHeadWrite (.core 0) 1 3) answered)).ring 1).fenced = true := by decide +kernel
theorem witness_RingPairs : (ringOf .idle 0 0).rb Reg.HOSTEP_LINKSTAT.at 0 = true ∧ (ringOf .idle 0 0).barOpen 0 = true ∧ (css 1).barOpen 0 = false ∧ (css 1).css.ops = [] ∧ ((css 1).ring 1).enabled = false ∧ (css 1).admits cssTag false ((css 1).ringRecord 1) = (css 1, none) ∧ (css 1).ringRecord 1 < 2 ^ 40 ∧
    (css 1).mem.poisonAt ((css 1).ringRecord 1) = false ∧ ringRecordBad ((css 1).bytes ((css 1).ringRecord 1) 64) = false ∧ ringRecordBad ((css 1).bytes ((css 1).ringRecord 2) 64) = true ∧
    ((ringOf .idle 0 0).ring 1).enabled = true ∧ ((ringOf .idle 0 0).ring 1).closing = 0 ∧ (ringOf .idle 0 0).ringInFlight 1 = 0 ∧ ((ringOf .idle 0 0).ring 1).held = [] ∧
    ((ringOf .idle 0 0).ring 1).fenced = false ∧ ((ringOf .idle 0 0).ring 1).sqSize = 16 ∧ answered.css.slots = [(3, answered.slot 3)] ∧ (answered.slot 3).st = 4 ∧
    (coalescing.ring 0x400).since ≠ 0 ∧ ((css 1).ring 0x400).since = 0 := by decide +kernel
theorem witness_SqEntries : (ringOf .idle 1 0).cssRuns = true ∧ (ringOf .idle 1 0).nextRing = some 1 ∧ (ringOf .idle 1 0).rf (Reg.CSS_LCNT.at 0) 13 0 = 8192 ∧
    (ringOf .idle 1 0).css.ops = [] ∧ (ringOf .idle 1 0).css.log = [] ∧ ((ringOf .idle 1 0).ring 1).got = none ∧ (ringOf .idle 1 0).admits ((ringOf .idle 1 0).ring 1).tag false 0x2004000 = (ringOf .idle 1 0, none) ∧
    (ringOf .idle 1 0).fenced 0 = false ∧ ((ringOf .disabled 1 0).sub 0).st = .disabled ∧ ((ringOf .idle 1 0).sub 0).world = ((ringOf .idle 1 0).ring 1).world ∧
    nfld ((ringOf .idle 1 0).sub 0).auth 0 0 = 1 ∧ (ringOf .idle 1 0).number 0x2004000 8 = 0x1000A0000000 ∧ nfld 0x1000A0000000 62 24 * 32 = 0x2001400 ∧
    (ringOf .idle 1 0).admits { world := false, pid := 0, cls := 1, src := 0 } false 0x2001400 = (ringOf .idle 1 0, none) ∧
    ccdBad 0x2001400 (Ccd.ofBytes ((ringOf .idle 1 0).bytes 0x2001400 32)) [] none 0 false = false ∧ nfld ((ringOf .idle 1 0).sub 0).cfg 8 8 = 1 ∧
    (ringOf .idle 1 0).admits cssTag true ((ringOf .idle 1 0).subRecord 0 + 0x20) = (ringOf .idle 1 0, none) := by decide +kernel
/-- A slot is free whichever the free value names first. -/
theorem witness_free_slot : ∃ n, (ringOf .idle 1 0).freeLedgerSlot = some n := by
  have h : (ringOf .idle 1 0).rf (Reg.CSS_LCNT.at 0) 13 0 ≠ 0 := by decide +kernel
  have e : ∀ n, ((ringOf .idle 1 0).slot n).st = 0 := fun n => rfl
  refine Option.isSome_iff_exists.1 ?_
  simp only [State.freeLedgerSlot, h, if_false, e, if_true]
  exact List.findSome?_isSome_iff.2 ⟨0, List.mem_range.2 (by decide), rfl⟩

/-- The same with a next CCD wanted (NEXT is flag 2). -/
theorem test_branch_taken : (((after (exec (.branch 0) (chan .active .ready (ccd 1 0 0 0x2001440)))).op? 3).map (fun o => (o.at_, o.nread))) = some (0x2001440, 2) := by decide +kernel
theorem test_nop_next : (((after (exec (.ccdNop 0) (chan .active .ready (ccd 0 0 2 0)))).op? 3).map (fun o => o.at_)) = some 0x2001420 := by decide +kernel
theorem test_wait_begins : (((after (exec (.ccdWait 0) (chan .active .ready (ccd 2 0 0 5)))).op? 3).map (fun o => o.phase)) = some (.wait 5) := by decide +kernel
theorem test_step_timeout : slotAfter (.stepTimeout 0) (chan .active .handed (ccd 9 0 0 0)) = 4 ∧ ((after (exec (.stepTimeout 0) (chan .active .handed (ccd 9 0 0 0)))).sub 0).gen = 1 := by decide +kernel
theorem test_path_fence : ((after (exec (.pathFence 0 .link) (still .idle))).sub 0).st = .nopath ∧ (after (exec (.pathFence 0 .link) (still .idle))).rf (Reg.ADPT_PATHSTAT.at 0) 15 8 = 3 := by decide +kernel

/-- A phase's ordinary premises, for the CCDs of the statement. -/
theorem witness_ChannelPrograms :
    (∀ c ∈ [ccd 0 0 0 0, ccd 1 0 0 0x2001440, ccd 1 1 0 0, ccd 2 0 0 0, ccd 2 0 0 5, ccd 8 0 0 0, ccd 9 0 0 0, ccd 10 0 0 0, ccd 11 0 0 0],
      let s := chan .active .ready c
      s.css.log = [] ∧ (s.sub 0).queue = [3] ∧ (s.slot 3).subch = 0 ∧ (s.slot 3).mirrored = false ∧ s.cssStopped = false ∧ c.join = false ∧ c.mark = false ∧
      s.css.ops = [(3, some { Op.start 0x2001400 with chain := [c], nread := 1, phase := .ready })] ∧ (s.sub 0).st = .active ∧
      s.admits cssTag true (s.subRecord 0 + 0x20) = (s, none) ∧ (s.sub 0).path = 0 ∧ s.pathUp 0 = true ∧ s.pathRoom 0 c.cmd = true) := by decide +kernel
theorem witness_ChannelProgramClauses :
    (let s := chan .active .ready (ccd 9 0 0 0)
     s.admits (s.opTag 3) false 0x2001000 = (s, none) ∧ s.mem.poisonAt 0x2001000 = false ∧ s.isHost 0x2001000 = false ∧ (ccd 9 0 0 0).len none = 16 ∧
     s.pathAuth 0 (s.slot 3) = false ∧ (s.setRb (Reg.ADPT_PAUTH_LO.at 0) 0 true).pathAuth 0 (s.slot 3) = true ∧
     ccdBad 0x2001440 (Ccd.ofBytes (s.bytes 0x2001440 32)) [] none 1 false = false ∧ (ccd 0 0 2 0).next = true) ∧
    (let s := (chan .active .ready (ccd 8 0 0 0)).setRf (Reg.ADPT_PATHSTAT.at 0) 1 0 0; s.anyPath (s.sub 0) = false ∧ (s.sub 0).idx < 4) ∧
    (chan .active (.wait 5) (ccd 2 0 0 5)).clk.etc.toNat < 5 ∧ ((chan .nopath .ready (ccd 0 0 0 0)).sub 0).st = .nopath ∧ (ccd 9 0 0 0).idemp = false := by decide +kernel

/-- Path 0 of a lone idle subchannel, in a state of the path. -/
def pathIn (st : Nat) : State := (still .idle).setRf (Reg.ADPT_PATHSTAT.at 0) 1 0 st
theorem witness_PathsAndLedgerControl :
    (∀ st ∈ [0, 1, 2, 3], let s := pathIn st; s.css.ops = [] ∧ s.css.log = [] ∧ s.css.faults = [] ∧ s.canonical = true ∧ s.css.subs = [(0, chanOf .idle [])] ∧ (s.sub 0).lost = false ∧ (s.sub 0).drain = none ∧
      (∀ k, k < 4 → k ≠ 0 → (s.sub 0).pathAt k ≠ 0) ∧ s.admits cssTag true (s.subRecord 0 + 0x20) = (s, none) ∧ s.rf (Reg.ADPT_PATHSTAT.at 0) 1 0 = st ∧
      s.rf (Reg.ADPT_PATHSTAT.at 0) 31 16 = 0) ∧
    ((pathIn 3).setRb (Reg.ADPT_PATHCTL.at 0) 0 true).rb (Reg.ADPT_PATHCTL.at 0) 0 = true ∧ State.reset.css.fresh = true ∧ State.reset.rb Reg.CSS_CTL.at 0 = false ∧
    (((State.reset.setReg Reg.CSS_LBASE_HI.at 8).setRf (Reg.MEMC_QTIER.at) 21 16 63).lbase = 0x800000000) ∧ State.reset.rf Reg.CSS_LCTL.at 17 16 = 0 ∧ State.reset.lbaseOk = false ∧
    (let s := pathIn 1; s.admits cssTag true (s.slotAddr 3) = (s, none) ∧ s.slotAddr 3 % 64 = 0 ∧ (s.slot 3).image.length = 0) := by decide +kernel

/-- A ledger whose four invariants hold: slot 3 is in a state, everything else FREE. -/
def ledgerOf (st : Nat) (fl : Nat) : State :=
  let s := css 1
  let s := { s with css := { s.css with slots := [(3, { Slot.empty with st := st, ring := 1 })].filter (fun _ => st != 0), rings := [(1, { RingPair.empty with enabled := true, reserved := fl })] } }
  if st = 0 then s.setRf (Reg.CSS_LCNT.at 0) 13 0 8192
  else (((s.setRf (Reg.CSS_LCNT.at 0) 13 0 8191).setRf (Reg.CSS_LCNT.at st) 13 0 1).setReg64 Reg.CSS_LALLOC_LO.at 1).setRf Reg.CSS_STAT.at 29 16 fl
theorem witness_LedgerBalanceIsKept : ∀ x ∈ [(0, 0), (1, 1), (2, 1), (3, 1), (4, 0), (5, 0)],
    let s := ledgerOf x.1 x.2
    (s.slot 3).st = x.1 ∧ Sparse.wf (fun _ => Slot.empty) s.css.slots = true ∧ Sparse.wf (fun _ => RingPair.empty) s.css.rings = true ∧ s.rb Reg.CSS_LSTAT.at 31 = false ∧
    s.balance = 0 ∧ 1 ≤ s.rf (Reg.CSS_LCNT.at x.1) 13 0 ∧ s.admits cssTag true (s.slotAddr 3) = (s, none) ∧ s.slotAddr 3 < 2 ^ 40 := by decide +kernel
theorem test_ledger_unbalanced : ((ledgerOf 1 0).moveSlot 3 2 id).fatalDue = true ∧ ((ledgerOf 1 1).moveSlot 3 2 id).fatalDue = false := by decide +kernel

/-! ## Vehicle adapters -/

/-- Subchannel 0 of an ONLINE path, idle, with a device address. -/
def lineOf (p dev : Nat) : State :=
  let s := (css 1).setRf (Reg.ADPT_PATHSTAT.at p) 1 0 1
  { s with css := { s.css with subs := [(0, { chanOf .idle [] with paths := 0xFFFFFF00 + p, devaddr := dev })] } }
/-- The device step of slot 3, and the state in which an adapter holds it. -/
def stepOf (cmd : Nat) : AdStep := { slot := 3, gen := 0, sub := 0, cmd := cmd, param := 0, arg := 0, count := 16, data := List.replicate 16 0 }
def taking (p cmd : Nat) : State :=
  let s := (chan .active .handed (ccd cmd 0 0 0)).setRf (Reg.ADPT_PATHSTAT.at p) 1 0 1
  { s with css := { s.css with subs := [(0, { chanOf .active [3] with paths := 0xFFFFFF00 + p })], ops := [(3, some { Op.start 0x2001400 with chain := [ccd cmd 0 0 0], nread := 1, phase := .handed, path := p })] }
           adpt := [(p, { Adapter.reset with steps := [stepOf cmd] })] }
/-- An Ethernet frame to the broadcast address with EtherType 0x1234, and template 0 that takes it. -/
def frame : List Byte := List.replicate 6 0xFF ++ List.replicate 6 0x02 ++ [0x12, 0x34] ++ List.replicate 46 0
def templated (dev : Nat) : State := (lineOf 0x18 dev).setReg (Reg.ADPT_TPL_CTL.at 0 0) 0x11234
/-- An exchange of a smart driver, and a response to it with STATUS 0 whose CRC is right. -/
def xchg : SdExchange := { cs := 0, opc := 1, seq := 0, bytes := [0xA5, 0x10, 0, 0], slot := some 3, bad := false }
def reply (status : Byte) : List Byte := let b := [0x5A, 0x10, status, 0]; b ++ (leBytes 2 (crc16 b)).reverse
def asking : State := let s := taking 0x3C 9; { s with adpt := [(0x3C, { Adapter.reset with steps := [stepOf 9], xchg := some xchg })] }

theorem test_can_frame : ((after (exec (.frameReceive 0 (.can 5 0 0 [1, 2]) 7 0) (lineOf 0 0))).adapter 0).store = [(0, [5, 0, 0, 0, 0, 0, 2, 0, 0, 0, 0, 0, 7, 0, 0, 0, 1, 2])] ∧
    ((after (exec (.frameReceive 0 (.can 5 0 0 [1, 2]) 7 0) (lineOf 0 0x700000001)))).rf (Reg.ADPT_RXUNCL.at 0) 31 0 = 1 := by decide +kernel
theorem test_can_bad : (after (exec (.frameReceive 0 (.can 5 0 0 [1, 2]) 7 3) (lineOf 0 0))).rf (Reg.ADPT_CANSTAT.at 0) 23 16 = 1 ∧
    (after (exec (.frameReceive 0 (.can 5 0 0 [1, 2]) 7 3) (lineOf 0 0))).rf (Reg.ADPT_CANSTAT.at 0) 6 4 = 3 := by decide +kernel
theorem test_eth_frame : ((after (exec (.frameReceive 0x18 (.eth frame) 9 0) (templated 0))).adapter 0x18).store.map (fun x => (x.1, x.2.length)) = [(0, 76)] := by decide +kernel
theorem test_frame_sent : slotAfter (.frameSent 0 [] 0) (taking 0 9) = 4 ∧ ((after (exec (.frameSent 0 [] 0) (taking 0 9))).adapter 0).steps = [] := by decide +kernel
theorem test_stale_report : (after (exec (.pathReport 0 3 1 false) (taking 0 9))).reg Reg.CSS_STALECNT.at = 1 ∧ slotAfter (.pathReport 0 3 1 false) (taking 0 9) = 3 := by decide +kernel
theorem test_sd_response : slotAfter (.sdResponse 0x3C (reply 0)) asking = 4 ∧ ((after (exec (.sdResponse 0x3C [1]) asking)).adapter 0x3C).xchg = some { xchg with bad := true } := by decide +kernel

theorem witness_AdapterFrames :
    (∀ s ∈ [lineOf 0 0, lineOf 0 0x700000001], s.pathState 0 = 1 ∧ s.cssStopped = false ∧ s.rb (Reg.ADPT_FINJ.at 0) 31 = false ∧ s.canAccepts 0 0 2 = true ∧
      (s.sub 0).st ≠ .disabled ∧ (s.sub 0).path = 0 ∧ (s.adapter 0).steps = [] ∧ (s.adapter 0).store = [] ∧ s.storeRoom 0 0 = true) ∧
    canMatches ((lineOf 0 0).sub 0).devaddr 5 = true ∧ canMatches ((lineOf 0 0x700000001).sub 0).devaddr 5 = false ∧ (lineOf 0 0).rf (Reg.ADPT_CANSTAT.at 0) 23 16 ≤ 127 ∧
    ethBad frame = false ∧ (templated 0).ethForUs 0x18 frame = true ∧ (List.range 64).find? (fun t => (templated 0).tplMatches 0x18 t 0 frame) = some 0 ∧
    (templated 0).pathState 0x18 = 1 ∧ (templated 0).reg (Reg.ADPT_TPL_POL.at 0 0) = 0 ∧ ((templated 0).sub 0).path = 0x18 ∧ frame.length + 4 ≤ 1518 ∧ (templated 0).storeRoom 0x18 76 = true ∧
    ethBad [0] = true ∧ (lineOf 0x18 0).ethForUs 0x18 (List.replicate 14 2) = false ∧ ethBad (List.replicate 14 2) = false := by decide +kernel
theorem witness_AdapterFrames_sent : let s := taking 0 9
    s.pathState 0 = 1 ∧ s.nextSend 0 = some (stepOf 9) ∧ s.css.log = [] ∧ (s.op? 3).map (fun o => o.count) = some 16 ∧ (s.sub 0).queue = [3] ∧ (s.sub 0).drain = none ∧
    s.admits cssTag true (s.subRecord 0 + 0x20) = (s, none) ∧ (ccd 9 0 0 0).next = false := by decide +kernel
theorem witness_AdapterReports :
    (∀ x ∈ [(0, 8), (0, 9), (0, 11), (0x3B, 8)], let s := taking x.1 x.2
      s.css.log = [] ∧ (s.adapter x.1).steps = [stepOf x.2] ∧ (s.slot 3).subch = 0 ∧ (s.op? 3).map (fun o => (o.path, o.ocause, o.out)) = some (x.1, 0, 0) ∧ (ccd x.2 0 0 0).cmd = x.2 ∧
      (ccd x.2 0 0 0).count = 16 ∧ (s.sub 0).queue = [3] ∧ (s.sub 0).drain = none ∧ (s.slot 3).mirrored = false ∧ s.cssStopped = false ∧ s.pathState x.1 = 1 ∧ (s.sub 0).gen = 0 ∧
      takeFrame 0 (s.adapter x.1).store = none ∧ s.admits (s.opTag 3) true 0x2001000 = (s, none) ∧ s.stepError x.1 (stepOf x.2) = none) ∧
    (taking 0x18 10).stepError 0x18 (stepOf 10) = some 0x06 ∧ ((lineOf 0 0).setRf (Reg.ADPT_PATHSTAT.at 0) 1 0 2).pathState 0 = 2 := by decide +kernel
theorem witness_AdapterReports_smart : asking.pathState 0x3C = 1 ∧ (asking.adapter 0x3C).xchg = some xchg ∧ xchg.slot = some 3 ∧ sdGood xchg (reply 0) = true ∧ sdGood xchg (reply 2) = true ∧
    ((reply 2).getD 2 0).toNat = 2 ∧ sdGood xchg [1] = false ∧ { xchg with bad := true }.bad = true ∧ ((taking 0x3C 9).adapter 0x3C).xchg = none ∧
    (((taking 0x3C 9).setRf (Reg.ADPT_SDCFG.at 0) 31 24 1).setRb (Reg.ADPT_SDCFG.at 0) 20 true).rb (Reg.ADPT_SDCFG.at 0) 20 = true := by decide +kernel

/-! ## Mash, Kiln, keys -/

/-- A core at M or K whose job channel 0 of Mash names a CCD at 0x2001400: COUNT 16, source 0x2002000, result at 0x2003000. -/
def jobbing (cmd : Byte) : State :=
  { (lev 1 0).setReg64 (jobBase false 0) 0x2001400 with
    mem := { cells := if cmd = 0 then [] else [(0x2001400, cmd), (0x2001404, 16), (0x2001409, 0x20), (0x200140B, 2), (0x2001411, 0x30), (0x2001413, 2)], poisoned := [], away := [], awayPoison := [], lines := [] } }
/-- The job with its CCD read, and a running step of an engine for it. -/
def ccdOf (cmd : Nat) : Ccd := { w0 := cmd, count := 16, addr := 0x2002000, arg := 0x2003000, aux := 0, w7 := 0 }
def jobTag : AccessTag := { world := false, pid := 0, cls := 4, src := 0 }
def jobOf (cmd : Nat) : Job := { at_ := 0x2001400, chain := [ccdOf cmd], nread := 1, last := none, tag := jobTag }
def engaged (kiln : Bool) (cmd : Nat) (steps : List EngStep) : State :=
  let e : Engine := { steps := steps, jobs := [(0, some (jobOf cmd))] }
  if kiln then { jobbing 0 with kiln := e } else { jobbing 0 with mash := e }
def stepAt (cmd : Nat) (err : Option (Nat × Nat)) : EngStep :=
  { who := .job 0, ccd := ccdOf cmd, pieces := [(0x2002000, 16)], count := 16, tag := jobTag, started := true, iv := 0, key := none, lost := false, err := err }
/-- Key slot 1 with a TYPE and its low word; the ladder's source is slot 2. -/
def keyed (w1 w2 : W32) : State := ((lev 3 0).setReg (Reg.KILN_KS_CFG.at 1) w1).setReg (Reg.KILN_KS_CFG.at 2) w2

theorem test_job_start : ((after (exec (.jobStart (.core 0) false 0 0) (jobbing 4))).job false 0).isSome = true ∧ (after (exec (.jobStart (.core 0) false 0 0) (jobbing 6))).rf (jobBase false 0 + 0xC) 31 24 = 0x15 := by
  decide +kernel
theorem test_engine_error : (after (exec (.engineStepEnd false .ok) (engaged false 4 [stepAt 4 (some (0x1B, 0x20))]))).rf (jobBase false 0 + 0xC) 31 24 = 0x1B := by decide +kernel
theorem test_slot_clear : (after (exec (.slotClear (.core 0) 1 0) (keyed 3 0))).keyValid 1 = false ∧ (after (exec (.slotClear (.core 0) 1 1) (keyed 3 0))).keyValid 1 = true := by decide +kernel
theorem test_derive : (after (exec (.derive (.core 0) 1 2 true) (keyed 0 0))).keyValid 1 = true ∧ (after (exec (.derive (.core 0) 1 2 false) (keyed 0 0))).rf Reg.KILN_LDR_STAT.at 2 0 = 2 ∧
    (after (exec (.derive (.core 0) 1 2 true) (keyed 1 0))).rf Reg.KILN_LDR_STAT.at 2 0 = 1 := by decide +kernel
theorem test_rng_restart : (after (exec (.rngRestart (.core 0)) (after (exec .healthTestFailure (lev 3 0))))).rb Reg.KILN_RNGSTAT.at 0 = true ∧
    (after (exec .healthTestFailure (lev 3 0))).rb Reg.KILN_RNGSTAT.at 1 = true := by decide +kernel

theorem witness_EnginesKeysAndEntropy_jobs :
    (∀ cmd ∈ [4, 6], let s := jobbing cmd
      s.rb (jobBase false 0 + 0xC) 0 = false ∧ s.reg64 (jobBase false 0) = 0x2001400 ∧ s.admits { s.tagOf (.core 0) with cls := 4, src := 0 } false 0x2001400 = (s, none) ∧ s.mem.poisonAt 0x2001400 = false ∧
      ccdBad 0x2001400 (Ccd.ofBytes (s.bytes 0x2001400 32)) [] none 0 true = false ∧ jobAccepts false (Ccd.ofBytes (s.bytes 0x2001400 32)).cmd = (cmd == 4)) ∧
    (∀ x ∈ [(true, 3), (false, 4), (false, 5), (true, 6), (true, 7), (true, 0xC), (true, 0xD)], (engaged x.1 x.2 []).job x.1 0 = some (jobOf x.2) ∧ ((engaged x.1 x.2 []).engine x.1).steps = [] ∧
      (ccdOf x.2).cmd = x.2 ∧ (ccdOf x.2).join = false ∧ (ccdOf x.2).next = false) ∧
    (∀ e ∈ [none, some (0x1B, 0x20)], ((engaged false 4 [stepAt 4 e]).engine false).steps = [stepAt 4 e] ∧ (stepAt 4 e).started = true ∧ (engaged false 4 [stepAt 4 e]).job false 0 = some (jobOf 4)) ∧
    (let s := engaged false 4 [stepAt 4 none]
     s.canonical = true ∧ s.css.faults = [] ∧
     s.admits jobTag false 0x2002000 = (s, none) ∧ s.admits jobTag true 0x2003000 = (s, none) ∧ s.mem.poisonAt 0x2002000 = false) := by decide +kernel
/-- What SEAL computes is open, and its length is not. -/
theorem witness_engine_output : ∃ out, (engaged true 6 [stepAt 6 none]).engCompute (stepAt 6 none) (List.replicate 16 0) [] = .ok out ∧ 0x2003000 % 4096 + out.length ≤ 4096 := by
  refine ⟨_, rfl, ?_⟩
  simp [fitTo, stepAt, ccdOf, beBytes, leBytes]
  omega
theorem witness_EnginesKeysAndEntropy_steps : (∀ x ∈ [(true, 3), (false, 4), (false, 5), (true, 6), (true, 7)], let s := chan .active .ready (ccd x.2 0 0 0)
      (s.sub 0).queue = [3] ∧ s.cssStopped = false ∧ (ccd x.2 0 0 0).join = false ∧ (ccd x.2 0 0 0).mark = false ∧ (ccd x.2 0 0 0).cmd = x.2 ∧ (s.engine x.1).steps = []) := by decide +kernel
theorem witness_EnginesKeysAndEntropy_keys : ((keyed 0 0).core 0).lvl = 3 ∧ (keyed 1 0).keyValid 1 = true ∧ (keyed 0 0).keyValid 1 = false ∧ (keyed 0 0).scrapped = false ∧ keyLen 0 = 16 ∧
    (keyed 0 0x4007).keyValid 2 = true ∧ (keyed 0 0x4007).rf (Reg.KILN_KS_CFG.at 2) 3 1 = 3 ∧ (keyed 0 0x4007).rb (Reg.KILN_KS_CFG.at 2) 14 = true ∧
    (keyed 0 0x2001).rf (Reg.KILN_KS_CFG.at 2) 3 1 < 2 ∧ (keyed 0 0x2001).rb (Reg.KILN_KS_CFG.at 2) 13 = true ∧
    (let s := keyed 0 0x2001; s.admits { s.tagOf (.core 0) with cls := 4, src := 1 } false 0x1000000 = (s, none) ∧ s.mem.poisoned = []) ∧
    ((lev 3 0).setRf Reg.BOOT_LCS.at 2 0 4).scrapped = true ∧ ((lev 3 0).setRb Reg.KILN_RNGSTAT.at 0 true).rb Reg.KILN_RNGSTAT.at 0 = true ∧
    ((lev 3 0).setRb Reg.KILN_RNGSTAT.at 0 false).rb Reg.KILN_RNGSTAT.at 0 = false ∧ ((lev 1 0).core 0).lvl ≠ 3 ∧ fld (0x3000000 : W32) 27 24 ≠ 1 ∧
    (stepAt 6 none).ccd.cmd = 6 ∧ (stepAt 6 none).lost = false ∧ (((lev 3 0).setReg (Reg.KILN_KS_CFG.at 0) 0x101).setRb (Reg.KILN_KS_PID_LO.at 0) 0 true).stepRefusal (stepAt 6 none) = none := by decide +kernel

/-! ## Relay -/

/-- A flit from device 2. -/
def flit (vl ty dst : Nat) (p : List Byte) : Flit := { vl := vl, ty := ty, dst := dst, src := 2, tag := 0, info := 8, payload := pad64 p }
/-- Device 1, whose ports 0 and 1 are ACTIVE, with a route to device 2 on port 1 and a map of one page for it; flits wait at port 0. -/
def wired (rx : List Flit) : State :=
  let s := (((css 1).setRf Reg.RELAY_HID.at 5 0 0x21).setRf (Reg.RELAY_PORTSTAT.at 0) 2 0 3).setRf (Reg.RELAY_PORTSTAT.at 1) 2 0 3
  let s := ((s.setRf (Reg.RELAY_HROUTE.at 2) 5 0 2).setReg (Reg.RELAY_IMAP_OFS.at 0 0) 0x80000000).setReg (Reg.RELAY_IMAP_ATTR.at 0 0) 0x600
  let s := (s.setRf (Reg.RELAY_IMAP_PA_LO.at 0 0) 31 12 0x2005).setRb (Reg.RELAY_IMAP_SEND.at 0 0) 2 true
  { s with relay := { RelayUnit.reset with ports := [(0, { Port.reset with rx := rx })] } }
/-- The same with a WR or a BWR that waits for its WRD, a slot that a peer's step has, and ring pair 0x500. -/
def waiting (ty : Nat) (rx : List Flit) : State :=
  let s := wired rx
  { s with
    relay := { s.relay with ports := [(0, { Port.reset with rx := rx, wr := [(2, some (flit 0 ty 1 (if ty = 5 then [0, 0, 0, 2, 0, 0, 0, 0, 3] else [])))] })] }
    css := { s.css with slots := [(3, { Slot.empty with st := 3, handoff := true, fwd := true, peer := 2, bPath := 0x50 })], rings := [(0x500, { RingPair.empty with enabled := true, cfg := 0x440001 })] } }
/-- The bytes at a place after a command, and the TYPE and INFO of the flit that a port has sent. -/
def sentBy (i : Instr) (s : State) : List (Nat × Nat) := ((after (exec i s)).port 1).replay.map (fun e => (e.2.ty, e.2.info))

theorem test_rd : sentBy (.rd 0) (wired [flit 0 0 1 []]) = [(0, 0)] ∧ sentBy (.rd 0) (wired [flit 0 0 1 [0, 16]]) = [(0, 1)] := by decide +kernel
theorem test_wrd : sentBy (.wrd 0) (waiting 1 [flit 0 2 1 [7, 8]]) = [(1, 0)] ∧ (after (exec (.wrd 0) (waiting 1 [flit 0 2 1 [7, 8]]))).bytes 0x2005000 3 = [7, 8, 0] := by decide +kernel
theorem test_fwd : sentBy (.fwd 0) (waiting 1 [flit 0 3 1 []]) = [(1, 0)] ∧ sentBy (.fwd 0) (wired [flit 0 3 1 []]) = [(1, 1)] := by decide +kernel
theorem test_crossbar : sentBy (.rd 0) (wired [flit 0 0 2 []]) = [(0, 8)] ∧ sentBy (.rd 0) (wired [flit 0 0 7 []]) = [(0, 3)] := by decide +kernel

theorem witness_RemoteAccesses :
    (∀ f ∈ [flit 0 0 1 [], flit 0 0 1 [0, 16], flit 0 1 1 [], flit 0 3 1 [], flit 0 4 1 [], flit 0 5 1 []], let s := wired [f]
      (s.port 0).rx = [f] ∧ f.dst = s.devIndex ∧ f.vl = 0 ∧ s.routeTo f.src = some 1 ∧ s.portOpen 1 1 = true) ∧
    (let s := wired [flit 0 0 1 []]
     s.inbound 0 2 0 false = some (0x2005000, { world := false, pid := 0, cls := 3, src := 16 }) ∧ s.inbound 0 2 0x1000 false = none ∧ (flit 0 0 1 [0, 16]).num 0 8 = 0x1000 ∧
     s.admits { world := false, pid := 0, cls := 3, src := 16 } false 0x2005000 = (s, none) ∧ s.admits { world := false, pid := 0, cls := 3, src := 16 } true 0x2005000 = (s, none) ∧
     s.mem.poisoned = [] ∧ s.backTag (flit 0 4 1 []) = none ∧ s.fwdOk (flit 0 3 1 []) = false) := by decide +kernel
theorem witness_RemoteAccesses_writes :
    (∀ ty ∈ [1, 5], let s := waiting ty [flit 0 2 1 [7, 8]]
      (Sparse.get none (s.port 0).wr 2).map (fun g => (g.ty, g.src)) = some (ty, 2) ∧ s.portOpen 1 1 = true ∧ s.inbound 0 2 0 true = some (0x2005000, { world := false, pid := 0, cls := 3, src := 16 }) ∧
      s.backTag (flit 0 5 1 [0, 0, 0, 2, 0, 0, 0, 0, 3]) = some { world := false, pid := 0, cls := 1, src := 0x50 } ∧
      s.admits { world := false, pid := 0, cls := 1, src := 0x50 } true 0x2000000 = (s, none) ∧ s.fwdOk (flit 0 3 1 []) = true) := by decide +kernel
theorem witness_RelayRoutesAndLinks_routes :
    (∀ f ∈ [flit 0 0 2 [], flit 0 0 7 [], flit 3 2 7 []], let s := wired [f]; (s.port 0).rx = [f] ∧ s.boot.run = none ∧ f.dst ≠ 31 ∧ f.dst ≠ s.devIndex) ∧
    (wired []).routeTo 2 = some 1 ∧ (∀ v, v < 4 → (wired []).portOpen 1 v = true) ∧ (wired []).routeTo 7 = none ∧
    (let f := { flit 1 0 1 [] with info := 0 }; let s := wired [f]
     f.payload.length = 64 ∧ s.relay.queue = [] ∧ s.calm 0 = true ∧ s.relay.parts = [] ∧
     Sparse.get none { s.relay with reqs := [(0, some { port := 1, who := .coreRd 0 0 4 })] }.reqs f.tag = some { port := 1, who := .coreRd 0 0 4 }) ∧
    (let f := { flit 1 1 1 [] with info := 0 }
     let e : SbEntry := { pa := 0x600000000000, bytes := [(0x600000000000, 1)], rtype := .devOrdered, va := 0x600000000000, lvl := 1, tag := (coreAt 1 true).tag 0, sent := true }
     let s := (wired [f]).setCore 0 { coreAt 1 true with sbuf := [e] }
     let s := { s with relay := { s.relay with reqs := [(0, some { port := 1, who := .coreWr 0 true 1 0x600000000000 0x600000000000 })] } }
     (s.port 0).rx = [f] ∧ f.ty = 1 ∧ f.info = 0 ∧ s.relay.queue = [] ∧ (s.core 0).sbuf = [e] ∧ e.sent = true ∧ (s.core 0).wait ≠ .ack ∧
     Sparse.get none s.relay.reqs f.tag = some { port := 1, who := .coreWr 0 true 1 0x600000000000 0x600000000000 }) := by decide +kernel

/-- Port 0 in a state, with a replay buffer; port 0 is used by no route. -/
def linkIn (st : Nat) (p : Port) : State :=
  { ((lev 1 0).setRf (Reg.RELAY_PORTSTAT.at 0) 2 0 st).setRb (Reg.RELAY_PORTCTL.at 0) 0 true with relay := { RelayUnit.reset with ports := [(0, p)] } }
def sentOne : Port := { Port.reset with replay := [(5, flit 0 0 1 [])], nextSeq := 6, width := 2 }
/-- A ledger message: slots, state, GEN. -/
def msg (ty sub peer st gen : Nat) : Flit := flit 2 ty 1 (leBytes 2 sub ++ leBytes 2 peer ++ leBytes 1 st ++ leBytes 1 0 ++ leBytes 2 gen)
/-- The message for the manager's purposes, from device 0 at port 0. -/
def hier (ty : Nat) (p : List Byte) : Flit := { flit 3 ty 31 p with src := 0 }
/-- Slot 3 is the submitter's slot for device 2's slot 9; its step is handed off; its GEN is 0. -/
def submitting (f : Flit) : State :=
  let s := wired [f]
  let o : Op := { Op.start 0x2001400 with chain := [ccd 9 0 0 0], nread := 1, phase := .handed }
  { s with css := { s.css with subs := [(0, chanOf .active [3])], ops := [(3, some o)], slots := [(3, { Slot.empty with st := 3, fwd := true, peer := 2, peerSlot := 9, peerSt := 1, handoff := true })] } }
/-- Slot 3 is the executor's slot for device 2's slot 9. -/
def executing (st : Nat) (f : Flit) : State :=
  let s := wired [f]
  let sl : Slot := { Slot.empty with st := st, mirrored := true, peer := 2, peerSlot := 9, ring := 0x500 }
  if st = 2 then
    { s with css := { s.css with subs := [(0, chanOf .active [3])], ops := [(3, some { Op.start 0x2001400 with chain := [ccd 0 0 0 0], nread := 1, phase := .ready })], slots := [(3, sl)] } }
  else { s with css := { s.css with slots := [(3, sl)] }, relay := { s.relay with mirrors := [{ msg 0 9 3 st 0 with dst := 2 }] } }
/-- A worker's port 0 towards the manager, with a message. -/
def worker (f : Flit) (has : Bool) : State :=
  let s := linkIn 3 { Port.reset with rx := [f] }
  let s := (s.setRf (Reg.RELAY_HROUTE.at 0) 5 0 1).setRf Reg.RELAY_HID.at 5 0 (if has then 0x21 else 0)
  s.setRb Reg.SYSCTL_ID.at 0 false
def managing (f : Flit) : State :=
  ((linkIn 3 { Port.reset with rx := [f] }).setRb Reg.SYSCTL_ID.at 0 true).setRf Reg.RELAY_HID.at 5 0 0x20

theorem test_mirror_raises : ((after (exec (.mirror 0) (submitting (msg 0 3 9 3 0)))).slot 3).peerSt = 3 ∧ sentBy (.mirror 0) (submitting (msg 0 3 9 3 0)) = [(1, 8)].map (fun _ => (1, 0)) := by decide +kernel
theorem test_mirror_ends : ((after (exec (.mirror 0) (submitting { msg 0 3 9 4 0 with payload := pad64 (leBytes 2 3 ++ leBytes 2 9 ++ leBytes 1 4 ++ List.replicate 30 0 ++ [0x17]) }))).slot 3).st = 4 := by decide +kernel
theorem test_mack : ((after (exec (.mack 0) (executing 4 (msg 1 9 3 4 0)))).slot 3).st = 0 ∧ (after (exec (.mack 0) (executing 4 (msg 1 9 3 4 0)))).relay.mirrors = [] := by decide +kernel
theorem test_assign : (after (exec (.assign 0) (worker (hier 0 [4, 0, 0, 1]) false))).rf Reg.RELAY_HID.at 5 0 = 0x24 ∧ (after (exec (.assign 0) (worker (hier 0 [4, 0, 0, 1]) false))).rf Reg.RELAY_HID.at 9 8 = 1 := by decide +kernel
theorem test_ready : (after (exec (.ready 0) (managing (flit 3 2 0 [2])))).rb Reg.RELAY_HPRESENT.at 2 = true ∧ (after (exec (.ready 0) (managing (flit 3 2 0 [3])))).rb Reg.RELAY_HPRESENT.at 3 = false := by decide +kernel
theorem test_data_frame : ((after (exec (.dataFrameReceive 0 0 true none (flit 0 0 1 []) false) (linkIn 3 Port.reset))).port 0).expect = 1 ∧
    ((after (exec (.dataFrameReceive 0 1 true none (flit 0 0 1 []) false) (linkIn 3 Port.reset))).port 0).nak = true := by decide +kernel
theorem test_training : (after (exec (.fullTraining 0 15) (linkIn 1 Port.reset))).portState 0 = 2 ∧ (after (exec (.retrainLimit 0) (linkIn 4 sentOne))).portState 0 = 5 := by decide +kernel
theorem test_retrain_after_four_replays : (after (exec (.replayTimeout 0 .ok) (linkIn 3 { sentOne with replays := 4, replaySeq := 5 }))).portState 0 = 4 ∧ (after (exec (.replayTimeout 0 .ok) (linkIn 3 sentOne))).portState 0 = 3 := by decide +kernel

theorem witness_RelayRoutesAndLinks_ports :
    (∀ st ∈ [0, 1, 2, 3, 4, 5], (linkIn st sentOne).portState 0 = st ∧ (linkIn st sentOne).portQuiet 0 = true ∧ (linkIn st sentOne).rb (Reg.RELAY_PORTCTL.at 0) 0 = true) ∧
    (linkIn 2 sentOne).miswired 0 ⟨false, (linkIn 2 sentOne).devIndex, 1, (linkIn 2 sentOne).incarn, 0⟩ = true ∧ (linkIn 2 sentOne).miswired 0 ⟨true, 0, 1, 5, 0⟩ = false ∧ ((lev 1 0).manager = false) ∧ (linkIn 2 sentOne).rb (Reg.RELAY_NBRINC.at 0) 31 = false ∧ sentOne.width < 4 ∧
    typeOk (flit 0 0 1 []) = true ∧ sentOne.occupied 0 < batonTotal 0 ∧ batonTotal 3 ≤ ({ Port.reset with rx := List.replicate 16 (flit 3 0 1 []) } : Port).occupied 3 ∧
    sentOne.replay.any (fun e => e.1 == 5) = true ∧ sentOne.replays < 4 ∧ sentOne.late = none ∧ (linkIn 3 sentOne).rb (Reg.RELAY_FINJ.at 0) 31 = false ∧ (linkIn 4 sentOne).retrainWidth 0 = 0 ∧ ((linkIn 4 sentOne).setRf (Reg.RELAY_PORTSTAT.at 0) 9 8 2).retrainWidth 0 ≠ 0 ∧
    (lev 1 0).rb (Reg.RELAY_PORTCTL.at 0) 0 = false ∧ bit (0x10001 : W32) 16 = true ∧ Sparse.get 0 sentOne.sent 0 = 0 := by decide +kernel
theorem witness_LedgerMessagesAndHierarchy_ledger :
    (let s := submitting (msg 0 3 9 3 0)
     (s.port 0).rx = [msg 0 3 9 3 0] ∧ s.routeTo 2 = some 1 ∧ s.portOpen 1 2 = true ∧ (s.slot 3).peer = 2 ∧ (s.slot 3).peerSlot = 9 ∧ (s.slot 3).gen = 0 ∧ (s.slot 3).mirrored = false ∧
     (msg 0 3 9 3 0).num 0 2 = 3 ∧ (msg 0 3 9 3 0).num 2 2 = 9 ∧ (msg 0 3 9 3 0).num 4 1 = 3 ∧ (s.sub 0).queue.head? = some 3 ∧ (s.op? 3).map (fun o => o.phase) = some .handed ∧ (s.sub 0).gen = 0 ∧ (s.slot 3).peerSt = 1) ∧
    (let s := submitting (msg 0 3 9 4 1); (s.slot 3).gen ≠ (msg 0 3 9 4 1).num 6 2) ∧
    (let s := { submitting (msg 0 3 9 3 0) with css := { (submitting (msg 0 3 9 3 0)).css with subs := [] } }; (s.sub (s.slot 3).subch).queue.head? ≠ some 3 ∧ (s.slot 3).peerSt < 3) ∧
    (let s := executing 4 (msg 1 9 3 4 0)
     s.relay.mirrors = [{ msg 0 9 3 4 0 with dst := 2 }] ∧ (s.slot 3).mirrored = true ∧ (s.slot 3).st = 4 ∧ (s.slot 3).peer = 2 ∧ (msg 1 9 3 4 0).src = 2) ∧
    (let s := executing 2 (msg 2 9 3 0 0)
     (s.slot 3).st = 2 ∧ (s.slot 3).subch = 0 ∧ s.admits cssTag true (s.subRecord 0 + 0x20) = (s, none) ∧ s.mirrorSlot 2 9 0 = some 3 ∧ s.mirrorSlot 2 8 0 = none) := by decide +kernel
theorem witness_LedgerMessagesAndHierarchy_hierarchy :
    (∀ x ∈ [(0, [4, 0, 0, 1]), (1, [2]), (6, [5]), (7, [])], let s := worker (hier x.1 x.2) (x.1 != 0)
      (s.port 0).rx = [hier x.1 x.2] ∧ s.manager = false ∧ s.boot.run = none ∧ nfld (s.rf (Reg.RELAY_HROUTE.at 0) 5 0) 0 0 = 1 ∧ s.rb Reg.RELAY_HID.at 5 = (x.1 != 0) ∧
      s.portOpen 0 3 = true ∧ s.routeTo 0 = some 0 ∧ s.upstream = some 0) ∧
    (let s := managing (flit 3 2 0 [2]); s.manager = true ∧ (flit 3 2 0 [2]).num 0 1 = 2 ∧ s.devIndex = 0 ∧ s.portOpen 0 3 = true ∧ s.routeTo 2 = none ∧
      ∀ j, j < 31 → s.rb (Reg.RELAY_HTOPO.at j) 31 = false) ∧
    (let s := linkIn 3 { Port.reset with rx := [flit 3 7 31 []] }; s.portQuiet 0 = true ∧ s.upstream = none ∧ s.relay.lost = []) ∧ RelayUnit.reset.losses = [] ∧ RelayUnit.reset.fresh = true := by decide +kernel
/-- A worker that waits for device 2, without slots, with a completed slot of its own, and with a mirrored slot of a device that is lost. -/
def peering (slots : Sparse Slot) (lost : List Nat) : State :=
  let s := wired []
  { s with relay := { s.relay with waiting := [2], lost := lost }, css := { s.css with slots := slots } }
theorem witness_LedgerMessagesAndHierarchy_peerwait :
    2 ∈ (peering [] []).relay.waiting ∧ 2 ∉ (peering [] []).relay.lost ∧ (peering [] []).css.slots = [] ∧
    (let s := peering [(3, { Slot.empty with st := 5, fwd := true, peer := 2, peerSlot := 9, peerSt := 1 })] []
     s.css.slots = [(3, s.slot 3)] ∧ (s.slot 3).peer = 2 ∧ (s.slot 3).fwd = true ∧ (s.slot 3).st = 5 ∧ s.css.log = [] ∧ s.logRoom = false) ∧
    (let s := peering [(3, { Slot.empty with st := 4, mirrored := true, peer := 2, peerSlot := 9 })] [2]
     2 ∈ s.relay.lost ∧ s.relay.mirrors = [] ∧ s.css.log = [] ∧ (∀ e ∈ s.css.slots, e.1 = 3) ∧ (s.slot 3).peer = 2 ∧ (s.slot 3).mirrored = true ∧ (s.slot 3).st = 4) := by decide +kernel


/-! ## Host endpoint -/

/-- The link up, the image applied, PF0 with bus mastering and memory space, bound to PID 0; BAR2 window 0 covers the first page of Tun. -/
def hosted (pages : Sparse RingPage) (reads : Sparse (Option HostRead)) : State :=
  let s := (((css 1).setRb Reg.HOSTEP_LINKSTAT.at 0 true).setRb (Reg.HOSTEP_FBIND.at 0) 31 true).setReg (Reg.HOSTEP_WIN_OFS.at 0) 0xE0000000
  let s := (s.setRf (Reg.HOSTEP_WIN_PA_LO.at 0) 31 12 0x2006).setRb (Reg.HOSTEP_FBIND.at 1) 31 true
  { s with memc := { s.memc with applied := true }, host := { HostEp.reset with fns := [(0, { HostFn.reset with bme := true, mse := true })], pages := pages, reads := reads } }
/-- Ring page 1 with a good configuration, and one whose vector lies beyond the table. -/
def goodPage : RingPage := { RingPage.reset with sqL := 0x2004000, cqL := 0x2005000, cfg := 0x44 }
def badPage : RingPage := { goodPage with intr := 64 }
/-- VFs present, VF 1 in D3hot. -/
def virtual : State :=
  let s := hosted [] []
  { s with host := { s.host with fns := [(0, { HostFn.reset with cfg := [(0x158, 1), (0x160, 2)] }), (1, { HostFn.reset with d3 := true })] } }
def outOf (i : Instr) (s : State) : List (Nat × List Nat) := (after (exec i s)).out.map (fun o => (o.port, o.data))

theorem test_config_read : outOf (.configurationRequest 0 8 none) (hosted [] []) = [(0, [0, 0, 0x08800011])] ∧ outOf (.configurationRequest 9 8 none) (hosted [] []) = [(9, [1, 0])] := by decide +kernel
theorem test_bar2 : (after (exec (.bar2Request 0 5 0 (some [1, 2]) false .ok) (hosted [] []))).bytes 0x2006005 2 = [1, 2] ∧ outOf (.bar2Request 0 0x1000 4 none false .ok) (hosted [] []) = [(0, [4, 0])] := by decide +kernel
theorem test_bar0_page : ((after (exec (.bar0Request 0 0x11000 4 (some 0x77) false) (hosted [] []))).page 1).sqL = 0x77 ∧ outOf (.bar0Request 0 0x11000 4 none false) (hosted [(1, goodPage)] []) = [(0, [0, 0, 0x2004000])] := by decide +kernel
theorem test_rpcmd : ((after (exec (.rpcmdEnable 1) (hosted [(1, goodPage)] []))).ring 1).sqSize = 16 ∧ ((after (exec (.rpcmdEnable 1) (hosted [(1, badPage)] []))).page 1).result = 2 := by decide +kernel

theorem witness_HostTransactions :
    (let s := hosted [(1, goodPage)] []
     s.rb Reg.HOSTEP_LINKSTAT.at 0 = true ∧ s.memc.applied = true ∧ s.bootProfile = false ∧ s.fnPresent 0 = true ∧ s.fnPresent 9 = false ∧ (s.hostFn 0).mse = true ∧ (s.hostFn 0).d3 = false ∧ s.cfgRead 0 8 = (0x08800011, 0) ∧ s.host.queue = [] ∧ s.canonical = true ∧ (∀ j, j < 4 → s.rb (Reg.DEBUG_BINJ_CTL.at j) 31 = false) ∧
     s.rb (Reg.HOSTEP_WIN_OFS.at 0) 31 = true ∧ s.rb (Reg.HOSTEP_WIN_OFS.at 0) 30 = true ∧ s.rb (Reg.HOSTEP_WIN_OFS.at 0) 29 = true ∧ s.rf (Reg.HOSTEP_WIN_OFS.at 0) 15 0 = 0 ∧ s.rf (Reg.HOSTEP_WIN_LIM.at 0) 15 0 = 0 ∧
     s.admits { world := false, pid := 0, cls := 2, src := 0 } true 0x2006000 = (s, none) ∧ s.admits { world := false, pid := 0, cls := 2, src := 0 } false 0x2006000 = (s, none) ∧ s.mem.poisoned = []) ∧
    virtual.fnPresent 1 = true ∧ (virtual.hostFn 1).mse = false ∧ State.reset.rb Reg.HOSTEP_LINKSTAT.at 0 = false ∧ bit (Sparse.get (0 : W32) (virtual.hostFn 0).cfg 0x158) 0 = true ∧
    Sparse.get none (hosted [] [(3, some ⟨0, .ring 1, false⟩)]).host.reads 3 = some ⟨0, .ring 1, false⟩ ∧ Sparse.get none (hosted [] [(3, some ⟨0, .core 0 0, false⟩)]).host.reads 3 = some ⟨0, .core 0 0, false⟩ ∧
    Sparse.get none (hosted [] [(3, some ⟨0, .ring 1, true⟩)]).host.reads 3 = some ⟨0, .ring 1, true⟩ ∧ (hosted [] [(3, some ⟨0, .core 0 0, false⟩)]).calm 0 = true ∧ (hosted [] []).relay.parts = [] := by decide +kernel
theorem witness_HostPagesAndFunctions :
    (hosted [] []).barOpen 0 = true ∧ (hosted [] []).rb Reg.HOSTEP_LINKSTAT.at 0 = true ∧ (hosted [] []).barOpen 9 = false ∧ (hosted [] []).fnBound 9 = false ∧ (hosted [] []).barOpen 0 = true ∧ virtual.barOpen 0 = false ∧
    (∀ p ∈ [goodPage, badPage], let s := hosted [(1, p)] []
      s.css.ops = [] ∧ s.css.faults = [] ∧ s.css.subs = [] ∧ (s.page 1).busy = false ∧ s.fnBound 0 = true ∧ (s.hostFn 0).fenced = false ∧ (s.ring 1).enabled = false ∧ s.admits cssTag true (s.ringRecord 1) = (s, none) ∧
      s.admits cssTag false (s.ringRecord 1) = (s, none) ∧ s.mem.poisonAt (s.ringRecord 1) = false ∧ s.ringInFlight 1 = 0) ∧
    fld goodPage.intr 9 0 < msixSize 0 ∧ msixSize 0 ≤ fld badPage.intr 9 0 ∧ (hosted [(1, { goodPage with busy := true })] []).page 1 = { goodPage with busy := true } ∧ (hosted [] []).fnBound 2 = false ∧
    (let s := { hosted [(1, goodPage)] [] with css := { (css 1).css with rings := [(1, { RingPair.empty with enabled := true, cfg := 0x440001 })] } }; (s.ring 1).enabled = true ∧ (s.ring 1).world = false ∧ (s.ring 1).closing = 0 ∧ s.ringInFlight 1 = 0) ∧
    virtual.css.slots = [] ∧ virtual.css.faults = [] ∧ virtual.host.queue = [] ∧ virtual.host.reads = [] ∧ (virtual.hostFn 1).d3 = true ∧ Sparse.wf (fun _ => HostFn.reset) virtual.host.fns = true ∧ virtual.boot.run = none ∧ (virtual.hostFn 1).bme = false ∧
    ((5 : BitVec 4).toNat ≤ 5 ∧ (16 : BitVec 5).toNat ∈ [1, 4, 8, 16]) ∧ bit (Sparse.get (0 : W32) (hosted [] []).host.mb 8) 15 = false := by decide +kernel
/-- A message that waits for bus mastering, an asserted INTA, and a mailbox message with an open vector. -/
theorem witness_HostPagesAndFunctions_messages :
    (let s := { virtual with host := { virtual.host with fns := [(0, { HostFn.reset with msixEn := true })], msix := [(3, { MsixEntry.reset with ctl := 0 })], pba := [(3, true)], inta := true, mb := [(8, 0x8003)] } }
     (s.hostFn 0).bme = false ∧ (s.hostFn 0).msixEn = true ∧ (s.hostFn 0).fnMask = false ∧ bit (s.msix 0 3).ctl 0 = false ∧ (∀ j, j < 64 → (Sparse.get false s.host.pba j = true ↔ j = 3)) ∧ s.host.inta = true ∧
     (∀ j, j < 4 → (s.ring j).held = []) ∧ bit (Sparse.get (0 : W32) s.host.mb 8) 15 = true ∧
     { s with host := { s.host with fns := [(0, { HostFn.reset with msixEn := true, bme := true })] } }.msixOpen 0 3 = true) := by decide +kernel

/-! ## Sealed world, debug and boot -/

/-- A booted set, and a machine that runs it with a core at M or K. -/
def setOf : Booted := { src := 0, slot := 0, entry := 0x1000000, sec := 0x1000100, stack := List.replicate 48 0x1001000, centry := List.replicate 48 0, compat := false, svn := 3, sev := false }
def booted (lvl : Nat) : State := let s := lev lvl 0; { s with boot := { s.boot with booted := some setOf } }
/-- A core that owes the restart entry. -/
def owingRestart (gone : Bool) : State := let s := booted 1; s.modCore 0 (fun k => { k with restart := some gone })
/-- An unlock buffer whose form is right, with a valid nonce. -/
def tokens (en : Nat) : State :=
  let s := (booted 1).setReg (Reg.DEBUG_TOKBUF.at 0) 0x4B4F5444
  (s.setReg (Reg.DEBUG_TOKBUF.at 1) (BitVec.ofNat 32 (0x100 + en * 2 ^ 24))).setRb Reg.DEBUG_UNLOCK.at 0 true
/-- A halted core, invasive debug of the ordinary world in force. -/
def stopped : State := ((lev 1 0).setRb Reg.DEBUG_AUTH.at 1 true).modCore 0 (fun k => { k with halted := true })

theorem test_restart_entry : pcOf (.add 0 3 1 2) (owingRestart false) = 0x1000000 ∧ ((after (exec (.add 0 3 1 2) (owingRestart true))).core 0).lvl = 3 := by decide +kernel
theorem test_unlock_bad_form : (after (exec (.unlock (.core 0)) (booted 1))).rf Reg.DEBUG_UNLOCK.at 27 24 = 3 := by decide +kernel
theorem test_halt : ((after (exec (.halt (.core 0) 0) ((lev 1 0).setRb Reg.DEBUG_AUTH.at 1 true))).core 0).halted = true ∧ ((after (exec (.resume (.core 0) 0) stopped)).core 0).halted = false := by decide +kernel
theorem test_itr : ((after (exec (.itr (some (.core 0)) 0 0x04611000) (stopped.modCore 0 (fun k => (k.setG 1 5).setG 2 6)))).core 0).g 3 = 11 ∧
    (after (exec (.itr (some (.core 0)) 0 0) stopped)).rf (Reg.DEBUG_CORECTL.at 0) 28 23 = 1 := by decide +kernel
theorem test_dap_denied : (after (exec (.dap 1) ((lev 1 0).setRf Reg.DEBUG_AUTH.at 3 0 0))).jtag.dap = 3 ∧ outOf (.bypass 7 true) (lev 1 0) = [(0, [0])] := by decide +kernel

theorem witness_SealedRestartAndUnlock_restart :
    (booted 3).boot.booted = some setOf ∧ ((booted 3).core 0).lvl = 3 ∧ ((booted 1).core 0).lvl < 2 ∧ ((booted 2).core 0).lvl = 2 ∧ (booted 2).rb Reg.SYSCTL_SRCTL.at 1 = false ∧
    (booted 3).rb Reg.SYSCTL_SRSTAT.at 31 = false ∧ ((booted 3).setRb Reg.SYSCTL_SRSTAT.at 31 true).rb Reg.SYSCTL_SRSTAT.at 31 = true ∧ (∀ d, d < 48 → ((booted 3).core d).sbuf = []) ∧
    (∀ g ∈ [true, false], (owingRestart g).runs 0 = true ∧ (owingRestart g).haltDue 0 = false ∧ ((owingRestart g).core 0).restart = some g ∧ ((owingRestart g).core 0).itr = false ∧ ((owingRestart g).core 0).sbuf = []) ∧
    (BitVec.ofNat 64 (setOf.stack.getD 0 0) - 16).toNat % 16 = 0 ∧
    (let k := (owingRestart false).core 0
     let w := (owingRestart false).setCore 0 (({ k with restart := none, gs := Sparse.set 0 k.gs 2 0 } : Core).swr 0x900 0 |>.swr 0xCC0 0)
     w.plainAt 0 3 true 0x1000FF0 8 = true ∧ w.plainAt 0 3 true 0x1000FF8 8 = true) := by decide +kernel
theorem witness_SealedRestartAndUnlock_unlock :
    ((booted 1).setRb Reg.DEBUG_AUTH.at 16 true).rb Reg.DEBUG_AUTH.at 16 = true ∧ (booted 1).rb Reg.DEBUG_AUTH.at 16 = false ∧ (booted 1).rf Reg.DEBUG_UNLOCK.at 19 16 < 8 ∧
    ((booted 1).setRb Reg.KILN_RNGSTAT.at 0 true).rb Reg.KILN_RNGSTAT.at 0 = true ∧ ((tokens 1).regBytes Reg.DEBUG_TOKBUF.at 4) = [0x44, 0x54, 0x4F, 0x4B, 0, 1, 0, 1] ++ List.replicate 8 0 ∧
    (tokens 1).rb Reg.DEBUG_UNLOCK.at 0 = true ∧ ((booted 1).setRf Reg.DEBUG_AUTH.at 3 0 0).rb Reg.DEBUG_AUTH.at 3 = false := by decide +kernel
theorem witness_HaltedCoresAndJtag :
    (let s := (lev 1 0).setRb Reg.DEBUG_AUTH.at 1 true; s.calm 0 = true ∧ (s.core 0).late = [] ∧ (s.core 0).lvl = 1 ∧ s.rb Reg.DEBUG_AUTH.at 1 = true ∧ (s.core 0).halted = false) ∧
    ((lev 1 0).setRb Reg.DEBUG_AUTH.at 1 false).rb Reg.DEBUG_AUTH.at 1 = false ∧ (stopped.core 0).halted = true ∧ stopped.rb (Reg.DEBUG_CORECTL.at 0) 30 = false ∧
    (stopped.setCore 0 { stopped.core 0 with halted := false, itr := true }).runs 0 = true ∧ Sparse.get none (lev 1 0).boot.itr 0 = none ∧ blockOf 0x1F000000 = none ∧ bit (0x3C000001 : W64) 0 = true ∧
    0x10000000 + fld (0xF000001 : W64) 27 2 * 4 = 0x1F000000 ∧ ((lev 1 0).setRf Reg.BOOT_LCS.at 2 0 4).rf Reg.BOOT_LCS.at 2 0 = 4 ∧ ((lev 1 0).setRf Reg.BOOT_LCS.at 2 0 2).rf Reg.BOOT_LCS.at 2 0 = 2 := by decide +kernel

/-- A boot source that does not answer, and one whose locator and slot 0 are good: the locator's CRC is right and the state area says ACTIVE. -/
def noDev : XspiDev := { answers := false, loc0 := [], loc1 := [], slot0 := ⟨[], ⟨none, []⟩⟩, slot1 := ⟨[], ⟨none, []⟩⟩ }
def locator : List Byte := let b := List.replicate 0x1C 0; b ++ leBytes 4 (crc32c b)
def aDev : XspiDev := { noDev with answers := true, loc0 := locator }
def envOf (seq : BitVec 3) (d : XspiDev) : BootEnv := { manager := true, seq := seq, x0 := d, x1 := noDev, relay := ⟨none, []⟩, mode0 := false, mode1 := false }
/-- A machine whose boot is due, in a life-cycle state. -/
def dueOf (k lc : Nat) : State :=
  let s := State.reset.setRf Reg.BOOT_LCS.at 2 0 lc
  { s with boot := { s.boot with due := some k, powerUp := false }, clk := { s.clk with power := .run } }
/-- A recovery boot whose download has come to a point, and a UART0 frame that continues it. -/
def dl (whole : Bool) (man : List Byte) : Download := { pcie := false, man := man, next := 4, part := [], whole := whole, block := 0 }
def recovering (d : Download) : State :=
  let s := lev 3 0
  { s with boot := { s.boot with due := none, run := some { env := envOf 7 noDev, left := [], pos := 0, recovery := true, dl := some d, kind := 0 } } }
def frameOf (cmd : Nat) (idx : BitVec 16) : BootMsg := .uart idx [9] (BitVec.ofNat 32 (crc32c (leBytes 1 cmd ++ leBytes 2 idx.toNat ++ leBytes 2 1 ++ [9])))
def downOf (i : Instr) (s : State) : Option (Nat × Nat) := (after (exec i s)).boot.run.bind (fun r => r.dl.map (fun d => (d.next, d.man.length)))
/-- A core at M with key slots provisioned, an SVN of the booted set, and the release of other cores to come. -/
def fused : State := ((booted 3).setReg Reg.BOOT_KEYSTAT.at 0x303).setRf Reg.BOOT_BSTAT.at 21 16 3

theorem test_manifest_chunk : downOf (.manifest (frameOf 1 4)) (recovering (dl false [1])) = some (5, 2) ∧ downOf (.manifest (frameOf 1 5)) (recovering (dl false [1])) = some (4, 1) := by decide +kernel
theorem test_end_too_early : downOf (.endDownload (frameOf 3 4)) (recovering (dl false [1])) = none := by decide +kernel
theorem test_release : ((after (exec (.release (.core 0) 0 2) fused)).core 1).released = true ∧ ((after (exec (.release (.core 0) 0 2) fused)).core 1).pc = 0x1000100 ∧ ((after (exec (.release (.core 0) 0 2) (booted 1))).core 1).released = false := by decide +kernel
theorem test_raise_svn : (after (exec (.raiseSvn (.core 0) 3 true) fused)).rf Reg.BOOT_FSVN.at 5 0 = 3 ∧ (after (exec (.raiseSvn (.core 0) 4 true) fused)).rb Reg.BOOT_FUSEPROG.at 29 = true := by decide +kernel
theorem test_revoke_last : (after (exec (.revokeRootKeySlot (.core 0) 0 true) fused)).rb Reg.BOOT_KEYSTAT.at 4 = true ∧ (after (exec (.revokeRootKeySlot (.core 0) 0 true) (fused.setReg Reg.BOOT_KEYSTAT.at 1))).rb Reg.BOOT_FUSEPROG.at 29 = true := by decide +kernel

theorem witness_BootAndDownloads_boot :
    (∀ x ∈ [(0, 4), (0, 0), (0, 2), (2, 2)], let s := dueOf x.1 x.2; s.boot.due = some x.1 ∧ s.clk.power = .run ∧ s.boot.powerUp = false ∧ s.rf Reg.BOOT_LCS.at 2 0 = x.2 ∧ s.rb Reg.BOOT_SEQCFG.at 11 = false ∧
      s.rf Reg.BOOT_SEQCFG.at 2 0 = 0) ∧
    noDev.answers = false ∧ locatorOk aDev.loc0 = true ∧ aDev.answers = true ∧ (envOf 6 noDev).manager = true ∧ (dueOf 5 2).boot.due = some 5 ∧ (lev 3 0).boot.run = none := by decide +kernel
theorem witness_BootAndDownloads_downloads :
    (∀ d ∈ [dl false [1], dl true [1]], (recovering d).boot.run.map (fun r => (r.recovery, r.dl)) = some (true, some d) ∧ d.pcie = false ∧ d.next = 4) ∧ (dl false [1]).man.length + 1 < manLength ∧
    ((dl false (List.replicate 30924 0)).man.length + 1 = manLength) ∧ crc32c (leBytes 1 1 ++ leBytes 2 4 ++ leBytes 2 1 ++ [9]) < 2 ^ 32 ∧
    (let s := { dueOf 5 2 with boot := { (dueOf 5 2).boot with booted := some setOf } }; s.boot.due = some 5 ∧ s.boot.booted = some setOf ∧ s.rb Reg.BOOT_RESCHK.at 31 = false ∧ s.boot.powerUp = false ∧
      (s.setRb Reg.BOOT_RESCHK.at 31 true).rb Reg.BOOT_RESCHK.at 31 = true) ∧ State.reset.rb Reg.HOSTEP_LINKSTAT.at 0 = false ∧ (hosted [] []).boot.run = none := by decide +kernel
theorem witness_ReleaseFusesAndLifeCycle :
    (fused.core 0).lvl = 3 ∧ ((booted 1).core 0).lvl ≠ 3 ∧ fused.boot.booted = some setOf ∧ fused.online 1 = true ∧ (fused.core 1).released = false ∧ setOf.compat = false ∧ fused.rb Reg.BOOT_FUSEPROG.at 30 = false ∧
    fused.rf Reg.BOOT_FSVN.at 5 0 = 0 ∧ fld (fused.reg Reg.BOOT_BSTAT.at) 21 16 = 3 ∧ bit (fused.reg Reg.BOOT_KEYSTAT.at) 1 = true ∧ bit (fused.reg Reg.BOOT_KEYSTAT.at) 5 = false ∧ fused.boot.warm = none ∧
    fused.rf Reg.BOOT_LCS.at 2 0 = 0 ∧ fused.rb Reg.BOOT_LCS.at 31 = false ∧ fused.stopped = false ∧ fused.clk.power = .run ∧ (fused.setRb Reg.BOOT_LCS.at 31 true).rb Reg.BOOT_LCS.at 31 = true := by decide +kernel

/-! ## Power, trace, clocks and resets -/

/-- A queue of one task that core 0 takes, and the same task held. -/
def tasks : State :=
  let s := (((lev 1 0).modCore 0 (fun k => k.swr 0x600 1)).setRb Reg.PACER_CTL.at 0 true).setReg (Reg.PACER_QCFG.at 0) 0x80000004
  { s with pacer := { s.pacer with queues := [(0, [(7, 0x55)])] } }
def holding : State :=
  let s := tasks.modCore 0 (fun k => k.swr 0x200 (BitVec.ofNat 64 (2 ^ 63 + 7)))
  { s with pacer := { s.pacer with queues := [], held := [(7, some { queue := 0, word := 0x55, core := 0 })] } }
def powered (p : DevPower) (up : Bool) : State := let s := lev 3 0; { s with clk := { s.clk with power := p }, boot := { s.boot with powerUp := up } }

theorem test_take_head : ((after (exec (.take 0 3) tasks)).core 0).g 3 = 0x55 := by decide +kernel
/-- The charge is open (R490); the queue is not. -/
theorem test_yield : (holding.yieldTask 7).queue 0 = [(7, 0x55)] := by decide +kernel
theorem test_voltage_timeout : (after (exec (.voltageTimeout 1) { lev 1 0 with pacer := { PacerUnit.reset with opTarget := [(1, some 2)] } })).rb (Reg.PACER_GRPSTAT.at 1) 30 = true := by decide +kernel
theorem test_overheat : (after (exec (.measurement [1, 1, 1, 1] [0, 0, 0, 0] 130) (lev 1 0))).fatalDue = true ∧ (after (exec (.measurement [1, 1, 1, 1] [127, 0, 0, 0] 0) (lev 1 0))).rb (Reg.PACER_GRPSTAT.at 2) 29 = true := by decide +kernel
theorem test_drain_timeout : (after (exec .drainTimeout { lev 3 0 with boot := { (lev 3 0).boot with sleep := true } })).rf Reg.PACER_DEVSLEEP.at 19 16 = 2 := by decide +kernel

theorem witness_TasksPowerAndSleep_tasks : tasks.calm 0 = true ∧ (tasks.core 0).srd 0x600 ≠ 0 ∧ bit (tasks.core 0).dspcur 63 = false ∧ tasks.rb Reg.PACER_CTL.at 0 = true ∧ tasks.boot.sleep = false ∧
    tasks.pacer.queues = [(0, [(7, 0x55)])] ∧ tasks.eligible 0 0 = true ∧ tasks.pacer.waiters = [] ∧ (lev 1 0).pacer.queues = [] ∧ ((lev 1 0).core 0).srd 0x600 = 0 ∧ bit (holding.core 0).dspcur 63 = true ∧
    Sparse.get none holding.pacer.held (fld (holding.core 0).dspcur 11 0) = some { queue := 0, word := 0x55, core := 0 } ∧ holding.calm 0 = true ∧
    tasks.queueOn 0 = true ∧ tasks.mayPush 0 ((tasks.core 0).tag 0) = true ∧ tasks.fenced 0 = false ∧ tasks.fenced (tasks.rf (Reg.PACER_QCFG.at 0) 29 24) = false ∧ (tasks.queue 0).length + tasks.heldOf 0 < tasks.rf (Reg.PACER_QCFG.at 0) 10 0 ∧ tasks.poolUsed.length < 4096 ∧
    (lev 1 0).queueOn 0 = false ∧ (tasks.setRb (Reg.PACER_QCFG.at 0) 30 true).rb (Reg.PACER_QCFG.at 0) 30 = true := by decide +kernel
theorem witness_TasksPowerAndSleep_power :
    (let s := { lev 1 0 with pacer := { PacerUnit.reset with opTarget := [(1, some 2)] } }; s.pacer.opTarget = [(1, some 2)] ∧ s.pacer.opWait = [] ∧ s.rf (Reg.PACER_GRPSTAT.at 1) 2 0 ≠ 2 ∧ s.groupHeld 1 = false ∧
      { s with spare := triggered.spare }.groupHeld 0 = true) ∧
    ((20 : BitVec 16).toInt < 121 ∧ (124 : BitVec 16).toInt < 125 ∧ ¬ (124 : BitVec 16).toInt < 121 ∧ ¬ (127 : BitVec 16).toInt < 125 ∧ (127 : BitVec 16).toInt < 130 ∧ ¬ (130 : BitVec 16).toInt < 130) ∧ (lev 1 0).rb Reg.PACER_CTL.at 0 = false ∧
    (∀ b, b < 8 → (lev 3 0).clusterBusy b = (b == 0)) ∧ (lev 3 0).rb (Reg.PACER_BLKGATE.at 0) 0 = false ∧ ((lev 1 0).setRb Reg.SYSCTL_OWNER.at 3 true).rb Reg.SYSCTL_OWNER.at 3 = true ∧
    (powered .run false).boot.sleep = false ∧ (powered .run false).rb Reg.PACER_DEVSLEEP.at 31 = false ∧ tasks.pacerBusy = true ∧ (lev 3 0).rf Reg.CSS_STAT.at 29 16 = 0 ∧
    (powered (.window true) false).mem.lines = [] ∧ (powered .park true).clk.power = .park ∧ (powered .off true).boot.powerUp = true ∧ ((powered .park false).setRb Reg.AON_ETCSTAT.at 2 true).rb Reg.AON_ETCSTAT.at 2 = true ∧
    (powered .park true).rb Reg.CSS_CTL.at 0 = false := by decide +kernel

/-- SWMSG running to sink 4, and four chunks of it waiting at sink 0, whose memory is 4 KB of Tun. -/
def messaging : State := (((lev 1 0).setReg (Reg.TRACE_SRCCFG.at 96) 0x84000000).setRf (Reg.TRACE_SRCSTAT.at 96) 18 16 2)
def sinking : State :=
  let s := ((lev 1 0).setReg (Reg.TRACE_SINKCTL.at 0) 0x80000000).setReg (Reg.TRACE_SINKBASE_LO.at 0) 0x2007000
  { s with trace := { s.trace with srcs := [(96, { TraceSrc.reset with chunks := [[1], [2], [3], [4]] })] } }
theorem test_swmsg : ((after (exec (.swmsg (.core 0) 5 0x01020304) messaging)).tsrc 96).part = [10, 5, 4, 3, 2, 1] ∧ exec (.swmsg (.core 0) 5 0) (lev 1 0) = .next (lev 1 0) := ⟨by decide +kernel, rfl⟩
theorem test_sink_line : (after (exec (.sinkWrite 0 false .ok) sinking)).rf (Reg.TRACE_SINKWP.at 0) 27 0 = 4 ∧ ((after (exec (.sinkWrite 0 false .ok) sinking)).tsrc 96).chunks = [] ∧
    (after (exec (.sinkWrite 0 false .error) sinking)).rb (Reg.TRACE_SINKSTAT.at 0) 4 = true := by decide +kernel
theorem witness_Trace :
    messaging.rb Reg.SYSCTL_OWNER.at 9 = false ∧ messaging.tstate 96 = 2 ∧ messaging.rf (Reg.TRACE_SRCCFG.at 96) 26 24 = 4 ∧ messaging.rb (Reg.TRACE_SRCCFG.at 96) 30 = false ∧ messaging.rf (Reg.TRACE_SRCCFG.at 96) 28 27 ≤ 1 ∧
    (messaging.tsrc 96).lost = 0 ∧ (messaging.tsrc 96).held + 6 ≤ 512 ∧ 512 < ({ TraceSrc.reset with chunks := List.replicate 40 (List.replicate 14 0) } : TraceSrc).held + 6 ∧ (lev 1 0).tstate 96 ≠ 2 ∧
    (lev 1 0).rb (Reg.TRACE_SRCCFG.at 50) 31 = false ∧ bit (0x80000000 : W32) 31 = true ∧ fld (0x80000000 : W32) 28 27 = 0 ∧ (lev 1 0).taddr 3 false = 0 ∧ ((lev 1 0).tsrc 3).atoms = [] ∧
    ((lev 1 0).setRb Reg.SYSCTL_OWNER.at 9 true).rb Reg.SYSCTL_OWNER.at 9 = true ∧ (messaging.setRf (Reg.TRACE_SRCCFG.at 96) 19 16 1).rf (Reg.TRACE_SRCCFG.at 96) 19 16 ≠ 0 ∧
    sinking.trace.srcs = [(96, { TraceSrc.reset with chunks := [[1], [2], [3], [4]] })] ∧ sinking.rf (Reg.TRACE_SRCCFG.at 96) 26 24 = 0 ∧ sinking.rb (Reg.TRACE_SINKCTL.at 0) 31 = true ∧
    sinking.rf (Reg.TRACE_SINKSTAT.at 0) 4 0 = 0 ∧ sinking.rf (Reg.TRACE_SINKWP.at 0) 27 0 * 16 < 4096 * 2 ^ sinking.rf (Reg.TRACE_SINKCTL.at 0) 15 12 ∧ ((lev 1 0).tsrc 3).resync = none ∧ sinking.admits { world := false, pid := 0, cls := 5, src := 0 } true 0x2007000 = (sinking, none) ∧ sinking.reg64 (Reg.TRACE_SINKBASE_LO.at 0) = 0x2007000 ∧
    (sinking.setRb (Reg.TRACE_SINKSTAT.at 0) 1 true).rb (Reg.TRACE_SINKSTAT.at 0) 1 = true := by decide +kernel

theorem test_etc_tick : (after (exec (.etcIncrement true) (lev 1 0))).clk.etc = 40 ∧ (after (exec (.etcIncrement true) (powered .park false))).clk.etc = 30517 := by decide +kernel
theorem test_core_reset : ((after (exec (.coreReset (some (.core 0)) 0) (lev 3 0))).core 0).released = false ∧ ((after (exec (.coreReset (some (.core 0)) 0) (lev 1 0))).core 0).released = true := by decide +kernel
theorem test_warm_reset : (after (exec (.warmReset (some (.core 0))) (lev 3 0))).boot.due = some 2 ∧ (after (exec (.warmReset (some (.core 0))) (lev 3 0))).rb Reg.AON_RSTCAUSE.at 2 = true := by decide +kernel
theorem test_binj : (after (exec (.binjArm (.core 0) 0 0x80002400) ((lev 1 0).setRb Reg.DEBUG_AUTH.at 1 true))).rb (Reg.DEBUG_BINJ_CTL.at 0) 31 = true ∧
    (after (exec (.binjArm (.core 0) 0 0x80002400) ((lev 1 0).setRb Reg.DEBUG_AUTH.at 1 false))).rb (Reg.DEBUG_BINJ_CTL.at 0) 31 = false := by decide +kernel
theorem test_rsvtest : (after (exec (.rsvtest (.core 0) 0 true) (lev 1 0))).rf (Reg.CLUSTER_RSVTEST.at 0) 1 0 = 1 ∧ (after (exec (.rsvtest (.core 0) 0 false) (lev 1 0))).rf (Reg.CLUSTER_SPARESTAT.at 0) 1 0 = 2 := by decide +kernel
theorem witness_ClocksAndFaultInjection :
    (lev 1 0).clk.power = .run ∧ (powered .park false).clk.power = .park ∧ (powered .off false).clk.power = .off ∧ bit (((one ((coreAt 1 true).swr 0x5C1 1)).core 0).srd 0x5C1) 0 = true ∧
    ((one ((coreAt 1 true).swr 0x5C1 1)).core 0).srd 0x5C0 ≤ (lev 1 0).clk.etc ∧ bit (((lev 1 0).core 0).srd 0x5C1) 0 = false ∧ ((lev 1 0).setRb Reg.DEBUG_AUTH.at 1 true).rb Reg.DEBUG_AUTH.at 1 = true ∧
    fld (0x80002400 : W32) 15 10 = 9 ∧ fld (0x80002400 : W32) 23 16 = 0 ∧ fld (0x80002400 : W32) 29 24 = 0 ∧ (lev 1 0).online 0 = true ∧ (lev 1 0).rf (Reg.CLUSTER_SPARESTAT.at 0) 1 0 = 0 ∧
    ((lev 1 0).setRf (Reg.CLUSTER_SPARESTAT.at 0) 1 0 2).rf (Reg.CLUSTER_SPARESTAT.at 0) 1 0 = 2 ∧ (lev 1 0).rb (Reg.CLUSTER_SPARESTAT.at 0) 31 = false := by decide +kernel
theorem witness_Resets : (lev 3 0).canonical = true ∧ (∀ d, d < 48 → ((lev 3 0).core d).sbuf = [] ∧ ((lev 3 0).core d).late = [] ∧ bit (((lev 3 0).core d).srd 0x200) 63 = false ∧ ((lev 3 0).core d).inDeviceLoad = false ∧
      (lev 3 0).sparing d = false ∧ (lev 3 0).online d = true) ∧ ((lev 3 0).core 0).lvl = 3 ∧ ((lev 2 0).core 0).lvl = 2 ∧ ((lev 1 0).core 0).lvl < 2 ∧ (lev 3 0).stopped = false ∧ (lev 3 0).clk.power = .run ∧
    (lev 3 0).boot.lcs = none ∧ (lev 3 0).boot.warm = none ∧ ((lev 3 0).setRb Reg.CSS_STAT.at 1 true).rb Reg.CSS_STAT.at 1 = true ∧ (lev 3 0).rb Reg.ERRREC_FATALCTL.at 16 = false ∧
    loading.core 0 ≠ Core.reset ∧ (loading.core 0).inDeviceLoad = true ∧
    ((lev 3 0).setRb Reg.SYSCTL_RSTCTL.at 8 true).rb Reg.SYSCTL_RSTCTL.at 8 = true ∧ (lev 3 0).rb Reg.SYSCTL_RSTCTL.at 16 = false ∧
    ((lev 3 0).setRb Reg.SYSCTL_RSTCTL.at 16 true).rb Reg.SYSCTL_RSTCTL.at 16 = true := by decide +kernel
/-- Reset meets the invariants' premises, and a queue with a command at its front steps. -/
theorem witness_CanonicalFormIsKept : State.reset.canonical = true ∧ { State.reset with pending := [.aclkLost] }.canonical = true := by decide +kernel
theorem witness_CoresStayLegal : ∀ c, (State.reset.core c).legal = true := fun _ => by show Core.reset.legal = true; decide +kernel
theorem witness_StepsTakeTheFront : ∃ t, step { State.reset with pending := [.aclkLost] } = .next t := ⟨_, rfl⟩

end Sys2Proof.Tests
end

/-! PROOFS. Instructions of a calm core: what a body with a guard, a floating-point or packed operation, and LOOP do. -/
namespace Sys2Proof.Machine

/-! ## Bodies with a guard -/

/-- Executing an instruction looks at its body at the state before it alone. -/
theorem State.execute_congr {s : State} {b b' : State → State × Except Exc Done} (c : Nat) (h : b s = b' s) :
    s.execute c b = s.execute c b' := by
  unfold State.execute
  rw [h]

/-- A floating-point or packed instruction on a calm core with FPE set, where no rounding mode stands in its way: its effect on the core. -/
theorem State.fpu_calm {s : State} {c : Nat} {u : Bool} (h : s.calm c = true) (hf : (s.core c).fpe = true)
    (hu : ¬ (u = true ∧ (s.core c).badRm = true)) (f : Core → Core) (hk : (s.core c).Continues (f (s.core c))) :
    s.fpu c u f = s.setCore c (f (s.core c)).fallThrough := by
  have hbody : s.fpu c u f = s.execute c (fun s => (s.modCore c f, .ok .next)) :=
    State.execute_congr c (by simp [hf, hu])
  rw [hbody]
  exact State.core_calm h f hk .next (.inl rfl)

theorem Core.continues_putF (k : Core) (d : RegNo) (r : FRes) : k.Continues (k.putF d r) :=
  (k.continues_setF d.toNat r.1).trans ⟨rfl, rfl, rfl, rfl, rfl, rfl⟩

theorem Core.continues_putGF (k : Core) (d : RegNo) (r : FRes) : k.Continues (k.putGF d r) :=
  (k.continues_setG d.toNat r.1).trans ⟨rfl, rfl, rfl, rfl, rfl, rfl⟩

/-- Raising no flag leaves the core as it is. -/
theorem Core.raiseFlags_zero (k : Core) : k.raiseFlags 0 = k := by
  show { k with fcsr := k.fcsr ||| 0#64 } = k
  rw [BitVec.or_zero]

/-- A result without flags is a plain write of its register. -/
theorem Core.putGF_noFlags (k : Core) (d : RegNo) (v : W64) : k.putGF d (v, 0) = k.setG d.toNat v :=
  Core.raiseFlags_zero _

/-- A listed packed integer operation on a calm core with FPE set writes its result with its flags. -/
theorem State.packedOp_calm {s : State} {c : Nat} (h : s.calm c = true) (hf : (s.core c).fpe = true) (d a b : RegNo)
    (op : W64 → W64 → FRes) :
    s.packedOp c true d a b op =
      s.setCore c ((s.core c).putF d (op ((s.core c).f a.toNat) ((s.core c).f b.toNat))).fallThrough :=
  State.fpu_calm h hf (by simp) (fun k => k.putF d (op (k.f a.toNat) (k.f b.toNat))) (Core.continues_putF _ d _)

/-! ## The completion after an effect on the core alone -/

theorem Core.released_advance (k : Core) (pc : W64) (d : Done) : (k.advance pc d).1.released = k.released := by
  unfold Core.advance
  split
  · rfl
  · split
    · rfl
    · split <;> rfl

/-- The completion of an instruction of a calm core that has left its core as k: only the core changes further. -/
theorem State.finish_setCore_calm {s : State} {c : Nat} (h : s.calm c = true) {k : Core} (hk : (s.core c).Continues k) {d : Done}
    (hd : d ≠ .hold) :
    (s.setCore c k).finish c (s.core c) d =
      s.setCore c { (((k.holdAfter d).learn (s.core c) d).advance (s.core c).pc d).1 with retries := 0 } := by
  obtain ⟨hrun, -, hitr, hdbg, hstep, hreq, hinj, hmarks, ht, ht'⟩ := (State.calm_iff s c).mp h
  obtain ⟨hrel, hhalt⟩ := State.released_of_runs hrun
  have hcore : (s.setCore c k).core c = k := State.core_setCore_self s c k
  rw [State.finish_calm (s := s.setCore c k) (s.core c) hd (by rw [hcore, hk.itr, hitr]) (by rw [hcore, hk.halted, hhalt])
    (by rw [hcore, hk.stepping, hstep]) (by rw [hcore, hk.dbg, hdbg]) hreq hinj hmarks ht ht', hcore]
  obtain ⟨p, hl⟩ := (k.holdAfter d).learn_keeps (s.core c) d
  refine State.setCore_setCore s c _ _ (hk.released.trans hrel) ?_
  show (Core.advance _ _ _).1.released = true
  rw [Core.released_advance, hl]
  exact ((k.continues_holdAfter d).released.trans hk.released).trans hrel

/-! ## LOOP (R101) -/

/-- A core that LOOP has set up: the body runs from the next instruction to last, count times. -/
def Core.withLoop (k : Core) (last count : W64) : Core := { k with lbeg := k.pc + 4, lend := last, lcnt := count }

theorem Core.continues_withLoop (k : Core) (last count : W64) : k.Continues (k.withLoop last count) :=
  ⟨rfl, rfl, rfl, rfl, rfl, rfl⟩

/-- The end of a hold has no part in the loop registers (R105). -/
theorem Core.endHold_withLoop (k : Core) (last count : W64) :
    (k.withLoop last count).endHold = k.endHold.withLoop last count := by
  unfold Core.endHold
  by_cases ho : k.overlaid = []
  · rw [if_pos ho, if_pos (show (k.withLoop last count).overlaid = [] from ho)]
    rfl
  · rw [if_neg ho, if_neg (show (k.withLoop last count).overlaid ≠ [] from ho)]
    rfl

/-- LOOP ends the hold of a reserved line as every instruction outside class I0 does (R105). -/
theorem Core.holdAfter_withLoop (k : Core) (last count t : W64) (entered : Bool) :
    (k.withLoop last count).holdAfter (.loop t entered) = (k.holdAfter .next).withLoop last count := by
  have hw : (k.withLoop last count).hold = k.hold := rfl
  unfold Core.holdAfter
  rw [hw]
  cases k.hold with
  | none => rfl
  | some n => simp [Core.endHold_withLoop]

/-- The predictor does not learn from LOOP: it is no branch of R128. -/
theorem Core.learn_loop (k k0 : Core) (t : W64) (entered : Bool) : k.learn k0 (.loop t entered) = k := by
  unfold Core.learn
  split
  · rfl
  · split <;> rfl

theorem wordTarget_eq_ofInt (pc : W64) (off : BitVec 16) : wordTarget pc off = pc + BitVec.ofInt 64 (off.toInt * 4) := by
  rw [wordTarget, BitVec.ofInt_mul, BitVec.signExtend]
  rfl

/-- A forward word offset leads to another address. -/
theorem wordTarget_ne {off : BitVec 16} (pc : W64) (h : 0 < off.toInt) : pc ≠ wordTarget pc off := by
  intro he
  have hz : BitVec.ofInt 64 (off.toInt * 4) = 0#64 := by
    rw [wordTarget_eq_ofInt] at he
    simpa using he.symm
  have hlt : off.toInt < 2 ^ 15 := BitVec.toInt_lt
  have := congrArg BitVec.toInt hz
  rw [BitVec.toInt_ofInt_eq_self (by decide) (by omega) (by omega)] at this
  simp at this
  omega

/-- A LOOP whose count is zero skips its body. -/
theorem Core.advance_loopSkipped (k : Core) (pc t : W64) : (k.advance pc (.loop t false)).1 = { k with pc := t } := rfl

/-- A LOOP that enters its body, whose last instruction is another: the next instruction (R73). -/
theorem Core.advance_loopEntered {k : Core} {pc : W64} (t : W64) (h : pc ≠ k.lend) :
    (k.advance pc (.loop t true)).1 = { k with pc := pc + 4 } := by
  simp [Core.advance, Done.target, h]

/-- LOOP with a positive offset on a calm core: its loop registers, and the PC that its ending gives. -/
theorem execLoop_calm {s : State} {c : Nat} (h : s.calm c = true) (a : RegNo) {off : BitVec 16} (hoff : 0 < off.toInt) {k : Core}
    (hk : s.core c = k) :
    exec (.loop c a off) s = .next (s.setCore c
      { (((k.holdAfter .next).withLoop (wordTarget k.pc off) (k.g a.toNat)).advance k.pc
          (.loop (wordTarget k.pc off + 4) (k.g a.toNat != 0))).1 with retries := 0 }) := by
  subst hk
  show Host.Outcome.next (s.execute c _) = _
  rw [State.execute_calm h, if_neg (Int.not_le.mpr hoff)]
  show Host.Outcome.next ((s.setCore c ((s.core c).withLoop _ _)).finish c (s.core c) _) = _
  rw [State.finish_setCore_calm h (Core.continues_withLoop _ _ _) (by simp), Core.holdAfter_withLoop, Core.learn_loop]

/-- LOOP with an offset that is zero or negative is undefined. -/
theorem execLoop_undefined {s : State} {c : Nat} (h : s.calm c = true) (a : RegNo) {off : BitVec 16} (hoff : off.toInt ≤ 0) :
    traps (.loop c a off) s c { vec := 0x01 } := by
  show Host.Outcome.next (s.execute c _) = _
  rw [State.execute_calm h, if_pos hoff]

/-- Settles O11: a positive offset takes the body's end away from LOOP itself, so that LOOP's own ending never counts as the end of a pass. -/
theorem loopInstruction : Obligations.LoopInstruction := by
  unfold Obligations.LoopInstruction
  intro s c a off h k count last
  have hlast : last = wordTarget k.pc off := (wordTarget_eq_ofInt k.pc off).symm
  have hpc : (k.holdAfter .next).pc = k.pc := (k.continues_holdAfter .next).pc
  refine ⟨execLoop_undefined h a, fun hoff hz => ?_, fun hoff hnz => ?_⟩
  · have hskip : (k.g a.toNat != 0) = false := by simpa using hz
    rw [execLoop_calm h a hoff rfl, hskip, Core.advance_loopSkipped, Core.withLoop, hpc, ← hlast, show k.g a.toNat = 0 from hz]
  · have henter : (k.g a.toNat != 0) = true := by simpa using hnz
    rw [execLoop_calm h a hoff rfl, henter, Core.advance_loopEntered _ (wordTarget_ne k.pc hoff), Core.withLoop, hpc, ← hlast]

end Sys2Proof.Machine

/-! PROOFS. CRC-32C (R95). -/
namespace Sys2Proof.Machine

/-- One bit of a reflected CRC-32C division, on words. -/
def crcShift (v : W32) : W32 := if v.getLsbD 0 then (v >>> 1) ^^^ 0x82F63B78 else v >>> 1

/-- A byte folded into the running value, on words. -/
def crcByte (v : W32) (b : Byte) : W32 :=
  crcShift (crcShift (crcShift (crcShift (crcShift (crcShift (crcShift (crcShift (v ^^^ b.zeroExtend 32))))))))

/-- One bit of the model's division, on numbers, is the same. -/
theorem toNat_crcShift (v : W32) :
    (if v.toNat % 2 = 1 then (v.toNat / 2) ^^^ 0x82F63B78 else v.toNat / 2) = (crcShift v).toNat := by
  have hbit : v.getLsbD 0 = true ↔ v.toNat % 2 = 1 := by simp [BitVec.getLsbD, Nat.testBit_zero]
  have hshift : (v >>> 1).toNat = v.toNat / 2 := by simp [Nat.shiftRight_eq_div_pow]
  unfold crcShift
  by_cases h : v.toNat % 2 = 1
  · rw [if_pos h, if_pos (hbit.mpr h), BitVec.toNat_xor, hshift]
    rfl
  · rw [if_neg h, if_neg (fun h' => h (hbit.mp h')), hshift]

theorem crc32cByte_toNat (v : W32) (b : Byte) : crc32cByte v.toNat b = (crcByte v b).toNat := by
  have hstart : v.toNat ^^^ b.toNat = (v ^^^ b.zeroExtend 32).toNat := by
    rw [BitVec.toNat_xor]
    exact congrArg _ (BitVec.toNat_setWidth_of_le (by decide)).symm
  show (List.range 8).foldl _ _ = _
  rw [hstart, List.foldl_hom BitVec.toNat (g₁ := fun a _ => crcShift a) (fun a _ => toNat_crcShift a)]
  rfl

/-- The bytes of a number are its digits to the base 256 (R5). -/
theorem leBytes_eq_map (n v : Nat) : leBytes n v = (List.range n).map (fun i => BitVec.ofNat 8 (v / 256 ^ i)) := by
  induction n generalizing v with
  | zero => rfl
  | succ n ih =>
    rw [leBytes, ih, List.range_succ_eq_map, List.map_cons, List.map_map]
    simp [Function.comp_def, Nat.div_div_eq_div_mul, Nat.pow_succ']

/-- Byte i of a doubleword, by number and by shift. -/
theorem ofNat_div_pow256 (y : W64) (i : Nat) : BitVec.ofNat 8 (y.toNat / 256 ^ i) = (y >>> (8 * i)).truncate 8 := by
  apply BitVec.eq_of_toNat_eq
  simp [Nat.shiftRight_eq_div_pow, Nat.pow_mul]

/-- The model's fold over the low n bytes, on words. -/
theorem crc32cFold_leBytes (x y : W64) (n : Nat) :
    crc32cFold x (leBytes n y.toNat) =
      ((List.range n).foldl (fun v i => crcByte v ((y >>> (8 * i)).truncate 8)) (x.truncate 32)).zeroExtend 64 := by
  have hx : x.toNat % 2 ^ 32 = (x.truncate 32).toNat := by simp
  unfold crc32cFold
  rw [hx, List.foldl_hom BitVec.toNat (g₁ := crcByte) (fun v b => crc32cByte_toNat v b), leBytes_eq_map, List.foldl_map]
  simp only [ofNat_div_pow256]
  exact BitVec.ofNat_toNat 64 _

/-- Settles O3: the fold on numbers of the model is the fold on words, bit by bit and byte by byte. -/
theorem crc32cFolds : Obligations.Crc32cFolds := by
  unfold Obligations.Crc32cFolds
  intro s c wd d a b h x y shift fold n
  have hn : n = wd.bytes := by cases wd <;> rfl
  have hfold : ((List.range n).foldl fold (x.truncate 32)).zeroExtend 64 = crc32cFold x (leBytes wd.bytes y.toNat) := by
    rw [crc32cFold_leBytes, hn]
    rfl
  rw [hfold]
  exact congrArg Host.Outcome.next (State.alu_calm h _ (Core.continues_setG _ _ _))

end Sys2Proof.Machine

/-! PROOFS. FCLASS (R98): the fields of a floating-point number and the class word. -/
namespace Sys2Proof
open Sys2Proof.Machine

/-! ## The fields of an operand (R70) -/

/-- The bits of an operand of a format. -/
def Fmt.bitsOf (f : Fmt) (v : W64) : Nat := v.toNat % 2 ^ f.width
/-- Its fraction field. -/
def Fmt.fracOf (f : Fmt) (v : W64) : Nat := f.bitsOf v % 2 ^ (f.prec - 1)
/-- Its exponent field. -/
def Fmt.expOf (f : Fmt) (v : W64) : Nat := f.bitsOf v / 2 ^ (f.prec - 1) % 2 ^ f.ebits
/-- The exponent field of infinities and NaNs. -/
def Fmt.topExp (f : Fmt) : Nat := 2 ^ f.ebits - 1

theorem Fmt.topExp_pos (f : Fmt) : 0 < f.topExp := by cases f <;> decide

theorem Fmt.expOf_le_topExp (f : Fmt) (v : W64) : f.expOf v ≤ f.topExp :=
  Nat.le_sub_one_of_lt (Nat.mod_lt _ (Nat.two_pow_pos _))

theorem Fmt.fracOf_lt (f : Fmt) (v : W64) : f.fracOf v < 2 ^ (f.prec - 1) := Nat.mod_lt _ (Nat.two_pow_pos _)

/-- The sign bit, as the quotient that the model takes. -/
theorem Fmt.signQuotient_eq_one_iff (f : Fmt) (v : W64) :
    f.bitsOf v / 2 ^ (f.width - 1) = 1 ↔ 2 ^ (f.width - 1) ≤ f.bitsOf v := by
  have hlt : f.bitsOf v < 2 ^ f.width := Nat.mod_lt _ (Nat.two_pow_pos _)
  have hw : 2 ^ f.width = 2 * 2 ^ (f.width - 1) := by cases f <;> rfl
  rw [Nat.div_eq_iff (Nat.two_pow_pos _)]
  omega

variable {f : Fmt} {v : W64}

theorem Fmt.unpack_zero (he : f.expOf v = 0) (hf : f.fracOf v = 0) : ∃ sg, f.unpack v = .zero sg := by
  have ht : f.expOf v ≠ f.topExp := by have := f.topExp_pos; omega
  exact ⟨_, (if_neg ht).trans ((if_pos he).trans (if_pos hf))⟩

theorem Fmt.unpack_subnormal (he : f.expOf v = 0) (hf : f.fracOf v ≠ 0) : ∃ sg, f.unpack v = .fin sg (f.fracOf v) f.qmin := by
  have ht : f.expOf v ≠ f.topExp := by have := f.topExp_pos; omega
  exact ⟨_, (if_neg ht).trans ((if_pos he).trans (if_neg hf))⟩

theorem Fmt.unpack_normal (he : 0 < f.expOf v) (ht : f.expOf v < f.topExp) :
    ∃ sg, f.unpack v = .fin sg (f.fracOf v + 2 ^ (f.prec - 1)) (f.qmin + ((f.expOf v : Int) - 1)) :=
  ⟨_, (if_neg (Nat.ne_of_lt ht)).trans (if_neg (Nat.ne_of_gt he))⟩

theorem Fmt.unpack_inf (ht : f.expOf v = f.topExp) (hf : f.fracOf v = 0) : ∃ sg, f.unpack v = .inf sg :=
  ⟨_, (if_pos ht).trans (if_pos hf)⟩

theorem Fmt.unpack_nan (ht : f.expOf v = f.topExp) (hf : f.fracOf v ≠ 0) :
    f.unpack v = .nan (f.fracOf v / 2 ^ (f.prec - 2) == 0) :=
  (if_pos ht).trans (if_neg hf)

/-! ## Integral values -/

/-- A quotient is an integer exactly where its denominator divides. -/
theorem den_mkRat_eq_one_iff (n : Int) {d : Nat} (hd : d ≠ 0) : (mkRat n d).den = 1 ↔ d ∣ n.natAbs := by
  have hpos : 0 < d.gcd n.natAbs := Nat.gcd_pos_of_pos_left _ (Nat.pos_of_ne_zero hd)
  rw [Rat.den_mkRat, if_neg hd, Nat.div_eq_iff_eq_mul_left hpos (Nat.gcd_dvd_left _ _), Nat.one_mul, eq_comm,
    Nat.gcd_eq_left_iff_dvd]

theorem natCast_mul_two_pow (m n : Nat) : (m : Rat) * 2 ^ (n : Int) = ((m * 2 ^ n : Nat) : Rat) :=
  ((Rat.natCast_mul m (2 ^ n)).trans (congrArg ((m : Rat) * ·) (Rat.natCast_pow 2 n))).symm

theorem natCast_mul_two_pow_neg (m n : Nat) : (m : Rat) * 2 ^ (-(n : Int)) = mkRat m (2 ^ n) := by
  have hinv : (2 : Rat) ^ (-(n : Int)) = ((2 ^ n : Nat) : Rat)⁻¹ :=
    (Rat.zpow_neg 2 n).trans (congrArg (·⁻¹) (Rat.natCast_pow 2 n).symm)
  exact (congrArg ((m : Rat) * ·) hinv).trans (Rat.mkRat_eq_div m (2 ^ n)).symm

/-- A magnitude is an integer exactly where the model's test says so. -/
theorem den_mul_two_zpow_eq_one_iff (m : Nat) (e : Int) :
    ((m : Rat) * 2 ^ e).den = 1 ↔ 0 ≤ e ∨ m % 2 ^ (-e).toNat = 0 := by
  obtain ⟨n, rfl | rfl⟩ := Int.eq_nat_or_neg e
  · rw [natCast_mul_two_pow]
    exact iff_of_true (Rat.den_natCast _) (.inl (Int.natCast_nonneg n))
  · rw [natCast_mul_two_pow_neg, den_mkRat_eq_one_iff _ (Nat.ne_of_gt (Nat.two_pow_pos n)), Int.natAbs_natCast,
      Nat.dvd_iff_mod_eq_zero, Int.neg_neg, Int.toNat_natCast]
    refine ⟨.inr, fun h => h.elim (fun hn => ?_) id⟩
    have hz : n = 0 := by omega
    rw [hz, Nat.pow_zero, Nat.mod_one]

/-- A sign does not make a number integral. -/
theorem den_sign_mul (sg : Bool) (x y : Rat) : ((if sg then -1 else 1) * x * y).den = (x * y).den := by
  cases sg with
  | false => exact congrArg (fun z => (z * y).den) (Rat.one_mul x)
  | true =>
    have hneg : (-1 : Rat) * x * y = -(x * y) :=
      (congrArg (· * y) ((Rat.neg_mul 1 x).trans (congrArg (-·) (Rat.one_mul x)))).trans (Rat.neg_mul x y)
    exact (congrArg Rat.den hneg).trans (Rat.neg_den _)

/-- A number is an integer exactly where the model's test says so. -/
theorem FVal.integral_fin_iff (sg : Bool) (m : Nat) (e : Int) :
    (∃ x, (FVal.fin sg m e).toRat = some x ∧ x.den = 1) ↔ 0 ≤ e ∨ m % 2 ^ (-e).toNat = 0 := by
  rw [← den_mul_two_zpow_eq_one_iff, ← den_sign_mul sg]
  exact ⟨fun ⟨_, hx, hd⟩ => Option.some.inj hx ▸ hd, fun hd => ⟨_, rfl, hd⟩⟩

/-! ## The class word -/

/-- A class word: the class code, the sign and the integral bit (R98). -/
def classWord (code : Nat) (sg integral : Bool) : W64 := BitVec.ofNat 64 (code + b2n sg * 8 + b2n integral * 16)

theorem b2n_lt_two (b : Bool) : b2n b < 2 := by cases b <;> decide
theorem b2n_eq_one_iff (b : Bool) : b2n b = 1 ↔ b = true := by cases b <;> decide

/-- A bit of a word, as a digit of its number. -/
theorem bit_iff {w : Nat} (v : BitVec w) (i : Nat) : bit v i = true ↔ v.toNat / 2 ^ i % 2 = 1 := by
  rw [bit, BitVec.getLsbD, Nat.testBit_eq_decide_div_mod_eq, decide_eq_true_iff]

theorem classWord_fields {code : Nat} (h : code < 8) (sg integral : Bool) :
    fld (classWord code sg integral) 2 0 = code ∧ bit (classWord code sg integral) 3 = sg ∧
    bit (classWord code sg integral) 4 = integral ∧ fld (classWord code sg integral) 63 5 = 0 := by
  have hs := b2n_lt_two sg
  have hi := b2n_lt_two integral
  have hn : (classWord code sg integral).toNat = code + b2n sg * 8 + b2n integral * 16 := by
    rw [classWord, BitVec.toNat_ofNat, Nat.mod_eq_of_lt (by omega)]
  refine ⟨?_, ?_, ?_, ?_⟩
  · rw [fld, hn, Nat.shiftRight_eq_div_pow]
    omega
  · rw [Bool.eq_iff_iff, bit_iff, ← b2n_eq_one_iff, hn]
    omega
  · rw [Bool.eq_iff_iff, bit_iff, ← b2n_eq_one_iff, hn]
    omega
  · rw [fld, hn, Nat.shiftRight_eq_div_pow]
    omega

/-- The class code of an operand, by its fields (R98's table). -/
def Fmt.classCode (f : Fmt) (v : W64) : Nat :=
  if f.expOf v = 0 then (if f.fracOf v = 0 then 0 else 1)
  else if f.expOf v < f.topExp then 2
  else if f.fracOf v = 0 then 3
  else if f.fracOf v < 2 ^ (f.prec - 2) then 5 else 4

theorem Fmt.classCode_lt (f : Fmt) (v : W64) : f.classCode v < 8 := by
  have hsplit {p : Prop} [Decidable p] {m n : Nat} (hm : m < 8) (hn : n < 8) : (if p then m else n) < 8 := by
    split
    · exact hm
    · exact hn
  exact hsplit (hsplit (by decide) (by decide)) (hsplit (by decide) (hsplit (by decide) (hsplit (by decide) (by decide))))

/-- The sign bit of an operand, as the model reads it. -/
def Fmt.signOf (f : Fmt) (v : W64) : Bool := f.bitsOf v / 2 ^ (f.width - 1) == 1

theorem Fmt.classOf_zero {sg : Bool} (hu : f.unpack v = .zero sg) : f.classOf v = classWord 0 (f.signOf v) true := by
  rw [Fmt.classOf, hu]
  rfl

theorem Fmt.classOf_inf {sg : Bool} (hu : f.unpack v = .inf sg) : f.classOf v = classWord 3 (f.signOf v) false := by
  rw [Fmt.classOf, hu]
  rfl

theorem Fmt.classOf_nan {q : Bool} (hu : f.unpack v = .nan q) :
    f.classOf v = classWord (if q then 5 else 4) (f.signOf v) false := by
  rw [Fmt.classOf, hu]
  rfl

theorem Fmt.classOf_subnormal {sg : Bool} {m : Nat} {e : Int} (hu : f.unpack v = .fin sg m e)
    (hs : f.subnormal (.fin sg m e) = true) : f.classOf v = classWord 1 (f.signOf v) false := by
  rw [Fmt.classOf, hu]
  exact if_pos hs

theorem Fmt.classOf_normal {sg : Bool} {m : Nat} {e : Int} (hu : f.unpack v = .fin sg m e)
    (hs : f.subnormal (.fin sg m e) = false) :
    f.classOf v = classWord 2 (f.signOf v) (decide (0 ≤ e) || m % 2 ^ (-e).toNat == 0) := by
  rw [Fmt.classOf, hu]
  exact if_neg (Bool.not_eq_true _ ▸ hs)

/-- The model's test for a quiet NaN, as an order. -/
theorem beq_zero_div_two_pow (n e : Nat) : (n / 2 ^ e == 0) = decide (n < 2 ^ e) := by
  rw [Bool.eq_iff_iff, beq_iff_eq, decide_eq_true_iff, Nat.div_eq_zero_iff_lt (Nat.two_pow_pos _)]

/-- The class word of an operand, by the case of its fields: its integral bit is set for zeros and for integral numbers that are not
subnormal (R98). -/
theorem Fmt.classOf_eq (f : Fmt) (v : W64) : ∃ integral, f.classOf v = classWord (f.classCode v) (f.signOf v) integral ∧
    (integral = true ↔ (f.expOf v = 0 ∧ f.fracOf v = 0) ∨ (0 < f.expOf v ∧ ∃ x, f.value v = some x ∧ x.den = 1)) := by
  have htop := f.topExp_pos
  unfold Fmt.value Fmt.classCode
  by_cases he : f.expOf v = 0
  · have hpos : ¬ 0 < f.expOf v := by omega
    by_cases hf : f.fracOf v = 0
    · obtain ⟨sg, hu⟩ := Fmt.unpack_zero he hf
      exact ⟨true, by rw [if_pos he, if_pos hf, Fmt.classOf_zero hu], iff_of_true rfl (.inl ⟨he, hf⟩)⟩
    · obtain ⟨sg, hu⟩ := Fmt.unpack_subnormal he hf
      have hs : f.subnormal (.fin sg (f.fracOf v) f.qmin) = true := by
        rw [Fmt.subnormal, decide_eq_true (f.fracOf_lt v), Bool.true_and, beq_iff_eq]
      exact ⟨false, by rw [if_pos he, if_neg hf, Fmt.classOf_subnormal hu hs],
        iff_of_false Bool.false_ne_true (fun h => h.elim (fun h => hf h.2) (fun h => hpos h.1))⟩
  · have hpos : 0 < f.expOf v := Nat.pos_of_ne_zero he
    rw [if_neg he]
    by_cases ht : f.expOf v < f.topExp
    · obtain ⟨sg, hu⟩ := Fmt.unpack_normal hpos ht
      have hs : f.subnormal (.fin sg (f.fracOf v + 2 ^ (f.prec - 1)) (f.qmin + ((f.expOf v : Int) - 1))) = false := by
        rw [Fmt.subnormal, decide_eq_false (Nat.not_lt.mpr (Nat.le_add_left _ _)), Bool.false_and]
      refine ⟨_, by rw [if_pos ht, Fmt.classOf_normal hu hs], ?_⟩
      rw [hu, FVal.integral_fin_iff, Bool.or_eq_true, decide_eq_true_iff, beq_iff_eq]
      exact ⟨fun h => .inr ⟨hpos, h⟩, fun h => h.elim (fun h => absurd h.1 he) (fun h => h.2)⟩
    · have ht' : f.expOf v = f.topExp := Nat.le_antisymm (f.expOf_le_topExp v) (Nat.not_lt.mp ht)
      have hnone {u : FVal} (hu : u.toRat = none) :
          false = true ↔ (f.expOf v = 0 ∧ f.fracOf v = 0) ∨ (0 < f.expOf v ∧ ∃ x, u.toRat = some x ∧ x.den = 1) :=
        iff_of_false Bool.false_ne_true (fun h => h.elim (fun h => he h.1)
          (fun ⟨_, _, hx, _⟩ => Option.some_ne_none _ (hx.symm.trans hu)))
      rw [if_neg ht]
      by_cases hf : f.fracOf v = 0
      · obtain ⟨sg, hu⟩ := Fmt.unpack_inf ht' hf
        exact ⟨false, by rw [if_pos hf, Fmt.classOf_inf hu], hnone (hu ▸ rfl)⟩
      · have hu := Fmt.unpack_nan ht' hf
        refine ⟨false, ?_, hnone (hu ▸ rfl)⟩
        rw [if_neg hf, Fmt.classOf_nan hu, beq_zero_div_two_pow]
        simp only [decide_eq_true_iff]

end Sys2Proof

namespace Sys2Proof.Machine

/-- FCLASS on a calm core with FPE set writes the class word, and no flag. -/
theorem execFclass_calm {s : State} {c : Nat} (h : s.calm c = true) (hf : (s.core c).fpe = true) (f : Fmt) (d r : RegNo) :
    completes (.fclass c f d r) s c ((s.core c).setG d.toNat (f.classOf ((s.core c).f r.toNat))) := by
  rw [← Core.putGF_noFlags]
  exact congrArg Host.Outcome.next (State.fpu_calm h hf (by simp) _ (Core.continues_putGF _ d _))

/-- Settles O8: the class word has each field of the table, by the case of the operand's exponent and fraction. -/
theorem fclassFields : Obligations.FclassFields := by
  unfold Obligations.FclassFields
  intro s c f d r h hf a n frac ex top
  obtain ⟨integral, hv, hi⟩ := f.classOf_eq a
  obtain ⟨hfld, hsign, hint, hhigh⟩ := classWord_fields (f.classCode_lt a) (f.signOf a) integral
  have hcl : f.classCode a = if ex = 0 then (if frac = 0 then 0 else 1) else if ex < top then 2
      else if frac = 0 then 3 else if frac < 2 ^ (f.prec - 2) then 5 else 4 := rfl
  have htop : 0 < top := f.topExp_pos
  have hsg : f.signOf a = true ↔ 2 ^ (f.width - 1) ≤ n := beq_iff_eq.trans (f.signQuotient_eq_one_iff a)
  refine ⟨f.classOf a, execFclass_calm h hf f d r, ?_⟩
  rw [hv, hfld, hsign, hint, hhigh, hcl]
  refine ⟨fun he hf0 => ?_, fun he hf0 => ?_, fun he ht => ?_, fun ht hf0 => ?_, fun ht hf0 => ?_, fun ht hf0 hf1 => ?_, hsg, hi, rfl⟩
  · rw [if_pos he, if_pos hf0]
  · rw [if_pos he, if_neg hf0]
  · rw [if_neg (Nat.ne_of_gt he), if_pos ht]
  · rw [if_neg (ht ▸ Nat.ne_of_gt htop), if_neg (ht ▸ Nat.lt_irrefl top), if_pos hf0]
  · have hpos : 0 < frac := Nat.lt_of_lt_of_le (Nat.two_pow_pos _) hf0
    rw [if_neg (ht ▸ Nat.ne_of_gt htop), if_neg (ht ▸ Nat.lt_irrefl top), if_neg (Nat.ne_of_gt hpos), if_neg (Nat.not_lt.mpr hf0)]
  · rw [if_neg (ht ▸ Nat.ne_of_gt htop), if_neg (ht ▸ Nat.lt_irrefl top), if_neg (Nat.ne_of_gt hf0), if_pos hf1]

end Sys2Proof.Machine

/-! PROOFS. Packed integer operations (R70, R99), lane by lane. -/
namespace Sys2Proof.Machine

/-! ## Numbers by their digits -/

/-- The number of n digits to a base, the digit of the lowest place first. -/
def digitSum (base : Nat) (d : Nat → Nat) (n : Nat) : Nat := ((List.range n).map (fun k => d k * base ^ k)).sum

theorem digitSum_succ (base : Nat) (d : Nat → Nat) (n : Nat) : digitSum base d (n + 1) = digitSum base d n + d n * base ^ n := by
  simp [digitSum, List.range_succ]

theorem digitSum_lt {base : Nat} {d : Nat → Nat} (hd : ∀ k, d k < base) (n : Nat) : digitSum base d n < base ^ n := by
  induction n with
  | zero => simp [digitSum]
  | succ n ih =>
    rw [digitSum_succ]
    calc digitSum base d n + d n * base ^ n < base ^ n + d n * base ^ n := Nat.add_lt_add_right ih _
      _ = (d n + 1) * base ^ n := by rw [Nat.succ_mul, Nat.add_comm]
      _ ≤ base * base ^ n := Nat.mul_le_mul_right _ (hd n)
      _ = base ^ (n + 1) := Nat.pow_succ'.symm

/-- A digit is what division and remainder give back. -/
theorem digitSum_digit {base : Nat} {d : Nat → Nat} (hd : ∀ k, d k < base) {n j : Nat} (hj : j < n) :
    digitSum base d n / base ^ j % base = d j := by
  have hpos : 0 < base := Nat.lt_of_le_of_lt (Nat.zero_le _) (hd 0)
  induction n with
  | zero => omega
  | succ n ih =>
    rw [digitSum_succ]
    rcases Nat.lt_succ_iff_lt_or_eq.mp hj with h | rfl
    · obtain ⟨m, rfl⟩ := Nat.exists_eq_add_of_lt h
      have hhigh : d (j + m + 1) * base ^ (j + m + 1) = base ^ j * (base * (d (j + m + 1) * base ^ m)) := by
        rw [Nat.pow_succ, Nat.pow_add]
        ac_rfl
      rw [hhigh, Nat.add_mul_div_left _ _ (Nat.pow_pos hpos), Nat.add_mul_mod_self_left, ih h]
    · rw [Nat.add_mul_div_right _ _ (Nat.pow_pos hpos), Nat.div_eq_of_lt (digitSum_lt hd j), Nat.zero_add, Nat.mod_eq_of_lt (hd j)]

/-! ## Lanes -/

/-- A lane as a number, as the model takes it. -/
theorem toNat_laneAt (w j : Nat) (v : W64) : (laneAt w j v).toNat = v.toNat / 2 ^ (j * w) % 2 ^ w := by
  rw [laneAt, BitVec.extractLsb'_toNat, Nat.shiftRight_eq_div_pow, Nat.mul_comm]

/-- Each lane of a packed result is the operation of the operands' lanes (R70). -/
theorem laneAt_lanes {w : Nat} (hw : w ∣ 64) (f : Nat → Nat → Nat) (a b : W64) {j : Nat} (hj : j < 64 / w) :
    laneAt w j (lanes w f a b) = BitVec.ofNat w (f (laneAt w j a).toNat (laneAt w j b).toNat) := by
  have hd : ∀ k, f (laneAt w k a).toNat (laneAt w k b).toNat % 2 ^ w < 2 ^ w := fun k => Nat.mod_lt _ (Nat.two_pow_pos w)
  have hlanes : lanes w f a b = BitVec.ofNat 64 (digitSum (2 ^ w) (fun k => f (laneAt w k a).toNat (laneAt w k b).toNat % 2 ^ w) (64 / w)) := by
    simp only [lanes, digitSum, toNat_laneAt, Nat.pow_mul']
  have hlt := digitSum_lt hd (64 / w)
  rw [← Nat.pow_mul, Nat.mul_div_cancel' hw] at hlt
  apply BitVec.eq_of_toNat_eq
  rw [toNat_laneAt, hlanes, BitVec.toNat_ofNat, Nat.mod_eq_of_lt hlt, Nat.pow_mul', digitSum_digit hd hj, BitVec.toNat_ofNat]

theorem anyLane_iff (w : Nat) (p : Nat → Nat → Bool) (a b : W64) :
    anyLane w p a b = true ↔ ∃ j, j < 64 / w ∧ p (laneAt w j a).toNat (laneAt w j b).toNat = true := by
  simp only [anyLane, List.any_eq_true, List.mem_range, toNat_laneAt]

theorem laneBits_dvd (l : Lane) : l.bits ∣ 64 := by cases l <;> decide

/-! ## The value of a lane -/

/-- The signed value of a lane. -/
theorem laneInt_toNat {w : Nat} (hw : 0 < w) (u : BitVec w) : laneInt w u.toNat = u.toInt := by
  have htwo : 2 ^ w = 2 * 2 ^ (w - 1) := by rw [← Nat.pow_succ', Nat.succ_eq_add_one, Nat.sub_add_cancel hw]
  have hiff : u.toNat < 2 ^ (w - 1) ↔ 2 * u.toNat < 2 ^ w := by omega
  rw [laneInt, BitVec.toInt_eq_toNat_cond]
  simp only [hiff]
  push_cast
  rfl

/-- A number cut to a lane. -/
theorem ofNat_laneOf (w : Nat) (i : Int) : BitVec.ofNat w (laneOf w i) = BitVec.ofInt w i := by
  have h : laneOf w i = (BitVec.ofInt w i).toNat := by rw [BitVec.toNat_ofInt, laneOf]; push_cast; rfl
  rw [h, BitVec.ofNat_toNat, BitVec.setWidth_eq]

/-- A lane's value under a reading as signed or unsigned. -/
def laneVal {w : Nat} (signed : Bool) (u : BitVec w) : Int := if signed then u.toInt else u.toNat

/-- The sum or difference of two values. -/
def sumOrDiff (sub : Bool) (x y : Int) : Int := if sub then x - y else x + y

theorem laneSum_toNat {w : Nat} (hw : 0 < w) (signed sub : Bool) (u v : BitVec w) :
    laneSum w signed sub u.toNat v.toNat = sumOrDiff sub (laneVal signed u) (laneVal signed v) := by
  simp only [laneSum, laneInt_toNat hw]
  rfl

theorem clamp_bounds {lo hi : Int} (h : lo ≤ hi) (i : Int) : lo ≤ max lo (min hi i) ∧ max lo (min hi i) ≤ hi := by omega

theorem neg_le_sub_one {p : Int} (h : 0 < p) : -p ≤ p - 1 := by omega

/-- A clamped value is one that a lane holds (R99). -/
theorem laneVal_ofInt_clamp {w : Nat} (hw : 0 < w) (signed : Bool) (i : Int) :
    laneVal signed (BitVec.ofInt w (clamp w signed i)) = clamp w signed i := by
  cases signed with
  | true =>
    have hpos : (0 : Int) < 2 ^ (w - 1) := Int.pow_pos (by decide)
    have hclamp : -(2 ^ (w - 1)) ≤ clamp w true i ∧ clamp w true i ≤ 2 ^ (w - 1) - 1 := clamp_bounds (neg_le_sub_one hpos) i
    exact BitVec.toInt_ofInt_eq_self hw hclamp.1 (Int.lt_of_le_sub_one hclamp.2)
  | false =>
    have hpos : (0 : Int) < 2 ^ w := Int.pow_pos (by decide)
    have hclamp : 0 ≤ clamp w false i ∧ clamp w false i ≤ 2 ^ w - 1 := clamp_bounds (Int.le_sub_one_of_lt hpos) i
    have hmod : clamp w false i % 2 ^ w = clamp w false i := Int.emod_eq_of_lt hclamp.1 (Int.lt_of_le_sub_one hclamp.2)
    have hcast : ((2 ^ w : Nat) : Int) = 2 ^ w := Int.natCast_pow 2 w
    show ((BitVec.ofInt w (clamp w false i)).toNat : Int) = _
    rw [BitVec.toNat_ofInt, hcast, Int.toNat_of_nonneg (Int.emod_nonneg _ (Int.ne_of_gt hpos))]
    exact hmod

/-! ## Saturation (R99) -/

/-- Each lane of a saturating operation is the exact sum or difference, clamped. -/
theorem laneVal_satLanes {w : Nat} (hw : w ∣ 64) (signed sub : Bool) (a b : W64) {j : Nat} (hj : j < 64 / w) :
    laneVal signed (laneAt w j (satLanes w signed sub a b).1) =
      clamp w signed (sumOrDiff sub (laneVal signed (laneAt w j a)) (laneVal signed (laneAt w j b))) := by
  have hpos : 0 < w := Nat.pos_of_dvd_of_pos hw (by decide)
  rw [satLanes, laneAt_lanes hw _ _ _ hj, ofNat_laneOf, laneVal_ofInt_clamp hpos, laneSum_toNat hpos]

theorem satLanes_flags (w : Nat) (signed sub : Bool) (a b : W64) :
    (satLanes w signed sub a b).2 = flagSAT ∨ (satLanes w signed sub a b).2 = 0 := by
  unfold satLanes
  dsimp only
  split <;> simp

/-- SAT is raised exactly where a lane is not the exact sum or difference. -/
theorem satLanes_flagSAT_iff {w : Nat} (hw : w ∣ 64) (signed sub : Bool) (a b : W64) :
    (satLanes w signed sub a b).2 = flagSAT ↔ ∃ j, j < 64 / w ∧
      laneVal signed (laneAt w j (satLanes w signed sub a b).1) ≠
        sumOrDiff sub (laneVal signed (laneAt w j a)) (laneVal signed (laneAt w j b)) := by
  have hpos : 0 < w := Nat.pos_of_dvd_of_pos hw (by decide)
  have hflag : (satLanes w signed sub a b).2 = flagSAT ↔
      anyLane w (fun x y => decide (clamp w signed (laneSum w signed sub x y) ≠ laneSum w signed sub x y)) a b = true := by
    unfold satLanes
    dsimp only
    split
    · exact iff_of_true rfl ‹_›
    · exact iff_of_false (by decide) ‹_›
  rw [hflag, anyLane_iff]
  refine exists_congr fun j => and_congr_right fun hj => ?_
  rw [laneVal_satLanes hw signed sub a b hj, decide_eq_true_iff, laneSum_toNat hpos]

/-! ## The operations on one lane -/

theorem ofNat_sub_lane {w : Nat} (u v : BitVec w) : BitVec.ofNat w (u.toNat + 2 ^ w - v.toNat) = u - v := by
  rw [BitVec.sub_def]
  congr 1
  have := v.isLt
  omega

theorem ofNat_min_lane {w : Nat} (hw : 0 < w) (u v : BitVec w) :
    BitVec.ofNat w (if laneInt w u.toNat ≤ laneInt w v.toNat then u.toNat else v.toNat) = BitVec.ofInt w (min u.toInt v.toInt) := by
  rw [laneInt_toNat hw, laneInt_toNat hw, Int.min_def]
  split <;> simp

theorem ofNat_max_lane {w : Nat} (hw : 0 < w) (u v : BitVec w) :
    BitVec.ofNat w (if laneInt w u.toNat ≤ laneInt w v.toNat then v.toNat else u.toNat) = BitVec.ofInt w (max u.toInt v.toInt) := by
  rw [laneInt_toNat hw, laneInt_toNat hw, Int.max_def]
  split <;> simp

theorem ofNat_mulHigh_lane {w : Nat} (hw : 0 < w) (u v : BitVec w) (n : Nat) :
    BitVec.ofNat w (laneOf w (laneInt w u.toNat * laneInt w v.toNat / 2 ^ n)) = BitVec.ofInt w (u.toInt * v.toInt / 2 ^ n) := by
  rw [ofNat_laneOf, laneInt_toNat hw, laneInt_toNat hw]

theorem ofNat_equal_lane {w : Nat} (u v : BitVec w) :
    BitVec.ofNat w (if u.toNat = v.toNat then 2 ^ w - 1 else 0) = if u = v then BitVec.allOnes w else 0 := by
  by_cases h : u = v
  · have hmax : 2 ^ w - 1 < 2 ^ w := Nat.sub_lt (Nat.two_pow_pos w) (by decide)
    rw [if_pos (congrArg _ h), if_pos h]
    apply BitVec.eq_of_toNat_eq
    rw [BitVec.toNat_allOnes, BitVec.toNat_ofNat, Nat.mod_eq_of_lt hmax]
  · rw [if_neg (fun he => h (BitVec.eq_of_toNat_eq he)), if_neg h]
    rfl

theorem ofNat_greater_lane (u v : BitVec 16) :
    BitVec.ofNat 16 (if laneInt 16 v.toNat < laneInt 16 u.toNat then 0xFFFF else 0) = if v.toInt < u.toInt then 0xFFFF else 0 := by
  rw [laneInt_toNat (by decide), laneInt_toNat (by decide)]
  split <;> rfl

/-- A lane of a byte, by the powers of 256. -/
theorem toNat_laneAt_byte (j : Nat) (v : W64) : (laneAt 8 j v).toNat = v.toNat / 256 ^ j % 256 :=
  (toNat_laneAt 8 j v).trans (congrArg (fun p => v.toNat / p % 256) (Nat.pow_mul' 2 j 8))

/-- The model's sum of differences is that of the lanes' absolute differences. -/
theorem sumAbsDiff_eq (x y : W64) : sumAbsDiff x y = BitVec.ofNat 64 (((List.range 8).map (fun j =>
    ((laneAt 8 j x).toNat - (laneAt 8 j y).toNat) + ((laneAt 8 j y).toNat - (laneAt 8 j x).toNat))).sum) := by
  have habs (m n : Nat) : max m n - min m n = (m - n) + (n - m) := by omega
  refine congrArg (fun l => BitVec.ofNat 64 (List.sum l)) (List.map_congr_left fun j _ => ?_)
  rw [toNat_laneAt_byte, toNat_laneAt_byte]
  exact habs _ _

/-! ## The packed instructions -/

/-- The instruction completes with a value of fd and its flags, which stay in FCSR (R72). -/
def packedWrites (s : State) (c : Nat) (d : RegNo) (i : Instr) (v flags : W64) : Prop :=
  completes i s c ((s.core c).putF d (v, flags))

/-- The instruction writes the operation of each lane, and no flag. -/
def packedPerLane (s : State) (c : Nat) (d a b : RegNo) (i : Instr) (w : Nat) (g : BitVec w → BitVec w → BitVec w) : Prop :=
  ∃ v, packedWrites s c d i v 0 ∧
    ∀ j, j < 64 / w → laneAt w j v = g (laneAt w j ((s.core c).f a.toNat)) (laneAt w j ((s.core c).f b.toNat))

/-- The instruction writes the clamped sum or difference of each lane, and sets SAT exactly where a lane was clamped (R99). -/
def packedSaturates (s : State) (c : Nat) (d a b : RegNo) (i : Instr) (w : Nat) (signed sub : Bool) : Prop :=
  ∃ v flags, packedWrites s c d i v flags ∧
    (∀ j, j < 64 / w → laneVal signed (laneAt w j v) = clamp w signed (sumOrDiff sub
      (laneVal signed (laneAt w j ((s.core c).f a.toNat))) (laneVal signed (laneAt w j ((s.core c).f b.toNat))))) ∧
    (flags = flagSAT ∨ flags = 0) ∧
    (flags = flagSAT ↔ ∃ j, j < 64 / w ∧ laneVal signed (laneAt w j v) ≠ sumOrDiff sub
      (laneVal signed (laneAt w j ((s.core c).f a.toNat))) (laneVal signed (laneAt w j ((s.core c).f b.toNat))))

section
variable {s : State} {c : Nat} (h : s.calm c = true) (hf : (s.core c).fpe = true) {d a b : RegNo} {i : Instr} {listed : Bool}
include h hf

theorem packedWrites_of_packedOp (hl : listed = true) {op : W64 → W64 → FRes} (hi : exec i s = .next (s.packedOp c listed d a b op)) :
    packedWrites s c d i (op ((s.core c).f a.toNat) ((s.core c).f b.toNat)).1 (op ((s.core c).f a.toNat) ((s.core c).f b.toNat)).2 := by
  subst hl
  exact hi.trans (congrArg Host.Outcome.next (State.packedOp_calm h hf d a b op))

/-- An operation of the model on numbers, lane by lane, is the stated one on lanes. -/
theorem packedPerLane_of_lanes (hl : listed = true) {w : Nat} (hw : w ∣ 64) {f : Nat → Nat → Nat} {g : BitVec w → BitVec w → BitVec w}
    (hi : exec i s = .next (s.packedOp c listed d a b (fun x y => (lanes w f x y, 0))))
    (hg : ∀ u v : BitVec w, BitVec.ofNat w (f u.toNat v.toNat) = g u v) : packedPerLane s c d a b i w g :=
  ⟨_, packedWrites_of_packedOp h hf hl hi, fun _ hj => (laneAt_lanes hw f _ _ hj).trans (hg _ _)⟩

/-- The model's saturating operation clamps each lane and tells of it in SAT. -/
theorem packedSaturates_of_satLanes (hl : listed = true) {w : Nat} (hw : w ∣ 64) {signed sub : Bool}
    (hi : exec i s = .next (s.packedOp c listed d a b (fun x y => satLanes w signed sub x y))) :
    packedSaturates s c d a b i w signed sub :=
  ⟨_, _, packedWrites_of_packedOp h hf hl hi, fun _ hj => laneVal_satLanes hw signed sub _ _ hj, satLanes_flags w signed sub _ _,
    satLanes_flagSAT_iff hw signed sub _ _⟩

/-! Wrapping and saturating sums and differences, of every listed lane width. -/

theorem padd_perLane (l : Lane) : packedPerLane s c d a b (.padd c l d a b) l.bits (fun u v => u + v) :=
  packedPerLane_of_lanes h hf rfl (laneBits_dvd l) rfl (by simp [BitVec.ofNat_add])

theorem psub_perLane (l : Lane) : packedPerLane s c d a b (.psub c l d a b) l.bits (fun u v => u - v) :=
  packedPerLane_of_lanes h hf rfl (laneBits_dvd l) rfl ofNat_sub_lane

theorem pcmpeq_perLane {l : Lane} (hl : l ≠ .w) :
    packedPerLane s c d a b (.pcmpeq c l d a b) l.bits (fun u v => if u = v then BitVec.allOnes l.bits else 0) :=
  packedPerLane_of_lanes h hf (bne_iff_ne.mpr hl) (laneBits_dvd l) rfl ofNat_equal_lane

theorem padds_saturates {l : Lane} (hl : l ≠ .w) : packedSaturates s c d a b (.padds c l d a b) l.bits true false :=
  packedSaturates_of_satLanes h hf (bne_iff_ne.mpr hl) (laneBits_dvd l) rfl

theorem paddus_saturates {l : Lane} (hl : l ≠ .w) : packedSaturates s c d a b (.paddus c l d a b) l.bits false false :=
  packedSaturates_of_satLanes h hf (bne_iff_ne.mpr hl) (laneBits_dvd l) rfl

theorem psubs_saturates {l : Lane} (hl : l ≠ .w) : packedSaturates s c d a b (.psubs c l d a b) l.bits true true :=
  packedSaturates_of_satLanes h hf (bne_iff_ne.mpr hl) (laneBits_dvd l) rfl

theorem psubus_saturates {l : Lane} (hl : l ≠ .w) : packedSaturates s c d a b (.psubus c l d a b) l.bits false true :=
  packedSaturates_of_satLanes h hf (bne_iff_ne.mpr hl) (laneBits_dvd l) rfl

/-! The operations of one lane width. -/

theorem pmul_perLane : packedPerLane s c d a b (.pmul c d a b) 16 (fun u v => u * v) :=
  packedPerLane_of_lanes h hf rfl (by decide) rfl (by simp [BitVec.ofNat_mul])

theorem pmulhs_perLane : packedPerLane s c d a b (.pmulhs c d a b) 16 (fun u v => BitVec.ofInt 16 (u.toInt * v.toInt / 2 ^ 16)) :=
  packedPerLane_of_lanes h hf rfl (by decide) rfl (fun u v => ofNat_mulHigh_lane (by decide) u v 16)

theorem pmin_perLane : packedPerLane s c d a b (.pmin c d a b) 16 (fun u v => BitVec.ofInt 16 (min u.toInt v.toInt)) :=
  packedPerLane_of_lanes h hf rfl (by decide) rfl (ofNat_min_lane (by decide))

theorem pmax_perLane : packedPerLane s c d a b (.pmax c d a b) 16 (fun u v => BitVec.ofInt 16 (max u.toInt v.toInt)) :=
  packedPerLane_of_lanes h hf rfl (by decide) rfl (ofNat_max_lane (by decide))

theorem pminu_perLane : packedPerLane s c d a b (.pminu c d a b) 8 (fun u v => BitVec.ofNat 8 (min u.toNat v.toNat)) :=
  packedPerLane_of_lanes h hf rfl (by decide) rfl (fun _ _ => rfl)

theorem pmaxu_perLane : packedPerLane s c d a b (.pmaxu c d a b) 8 (fun u v => BitVec.ofNat 8 (max u.toNat v.toNat)) :=
  packedPerLane_of_lanes h hf rfl (by decide) rfl (fun _ _ => rfl)

theorem pcmpgt_perLane : packedPerLane s c d a b (.pcmpgt c d a b) 16 (fun u v => if v.toInt < u.toInt then 0xFFFF else 0) :=
  packedPerLane_of_lanes h hf rfl (by decide) rfl ofNat_greater_lane

/-! The operations on the doubleword as a whole. -/

theorem pand_writes : packedWrites s c d (.pand c d a b) ((s.core c).f a.toNat &&& (s.core c).f b.toNat) 0 :=
  packedWrites_of_packedOp h hf rfl (op := fun x y => (x &&& y, 0)) rfl

theorem por_writes : packedWrites s c d (.por c d a b) ((s.core c).f a.toNat ||| (s.core c).f b.toNat) 0 :=
  packedWrites_of_packedOp h hf rfl (op := fun x y => (x ||| y, 0)) rfl

theorem pxor_writes : packedWrites s c d (.pxor c d a b) ((s.core c).f a.toNat ^^^ (s.core c).f b.toNat) 0 :=
  packedWrites_of_packedOp h hf rfl (op := fun x y => (x ^^^ y, 0)) rfl

theorem psad_writes : packedWrites s c d (.psad c d a b) (sumAbsDiff ((s.core c).f a.toNat) ((s.core c).f b.toNat)) 0 :=
  packedWrites_of_packedOp h hf rfl (op := fun x y => (sumAbsDiff x y, 0)) rfl

end

/-- Settles O9: the model works on lanes as numbers, and the lemmas above read each of its operations as one on words of the lane's width. -/
theorem packedResults : Obligations.PackedResults := by
  unfold Obligations.PackedResults
  intro s c l d a b h hf
  have hsad := psad_writes h hf (d := d) (a := a) (b := b)
  rw [sumAbsDiff_eq] at hsad
  exact ⟨padd_perLane h hf l, psub_perLane h hf l, fun hl => ⟨padds_saturates h hf hl, paddus_saturates h hf hl,
    psubs_saturates h hf hl, psubus_saturates h hf hl, pcmpeq_perLane h hf hl⟩, pmul_perLane h hf, pmulhs_perLane h hf,
    pmin_perLane h hf, pmax_perLane h hf, pminu_perLane h hf, pmaxu_perLane h hf, pcmpgt_perLane h hf, pand_writes h hf, por_writes h hf,
    pxor_writes h hf, hsad⟩

end Sys2Proof.Machine
